-- ==== Sys2Proof/Word.lean ====
section
/-!
DEFINITION. The word types of the model and their plainest arithmetic.
Every multi-byte value of the device is stored least significant byte first (00_scope.md R9).
-/
namespace Sys2Proof

/-- One byte. -/
abbrev Byte := BitVec 8
/-- A 16-bit word. -/
abbrev W16 := BitVec 16
/-- A 32-bit word. -/
abbrev W32 := BitVec 32
/-- A 64-bit word. -/
abbrev W64 := BitVec 64
/-- A 128-bit word: an instruction (R136), an accumulator value (R59). -/
abbrev W128 := BitVec 128

end Sys2Proof
end

