-- ==== Sys2Proof/Syntax.lean ====
section
/-!
DEFINITION. The commands of the block: one constructor of Instr per row of spec/opcode_table.json, with its operands.
A command's `t` is the time of the event: CCLK for the steps of a core, BCLK (ns) for every other step.
-/
namespace Sys2Proof

/-! ### Core instructions: the fields of the 128-bit encodings (03, 04, 05). `rsv` is the value of the reserved bits. -/

/-- MX.LDW (03_matrix_array.md, MX.LDW encoding). -/
structure MxLdw where
  fmt : BitVec 4
  wb : Bool
  scl : BitVec 2
  gsz : BitVec 2
  tsc : BitVec 8
  kvm1 : BitVec 8
  nvm1 : BitVec 7
  waddr : BitVec 18
  wstr : BitVec 12
  wsaddr : BitVec 25
  sstr : BitVec 12
  rsv : Nat
  deriving DecidableEq, Repr

/-- MX.MUL (03_matrix_array.md, MX.MUL encoding). -/
structure MxMul where
  fmta : BitVec 4
  wb : Bool
  acc : BitVec 4
  accum : Bool
  last : Bool
  tr : Bool
  conv : Bool
  cw : Bool
  halo : Bool
  anchor : BitVec 10
  astep : BitVec 6
  rmax : BitVec 4
  mm1 : BitVec 7
  scla : BitVec 2
  gsza : BitVec 2
  tsca : BitVec 8
  aaddr : BitVec 18
  astr : BitVec 12
  asaddr : BitVec 25
  noff : Bool
  asstr : BitVec 10
  deriving DecidableEq, Repr

/-- MX.WO (03_matrix_array.md, MX.WO encoding). -/
structure MxWo where
  fmto : BitVec 4
  acc : BitVec 4
  osh : BitVec 7
  ostep : BitVec 4
  vrows : BitVec 8
  nvm1 : BitVec 7
  oaddr : BitVec 18
  ostr : BitVec 12
  tsaddr : BitVec 25
  rsv : Nat
  deriving DecidableEq, Repr

/-- MV.MUL (03_matrix_array.md, MV.MUL encoding). -/
structure MvMul where
  fmta : BitVec 4
  fmtw : BitVec 4
  acc : BitVec 4
  vm1 : BitVec 3
  accum : Bool
  last : Bool
  anchor : BitVec 10
  astep : BitVec 6
  rmax : BitVec 4
  kvm1 : BitVec 7
  nvm1 : BitVec 7
  scla : BitVec 2
  gsza : BitVec 2
  sclw : BitVec 2
  gszw : BitVec 2
  tsca : BitVec 8
  tscw : BitVec 8
  aaddr : BitVec 18
  waddr : BitVec 18
  row0 : BitVec 4
  rsv : Nat
  deriving DecidableEq, Repr

/-- The common layout of the VX class (04_vector_engine.md R124, R125), without OP and FN. -/
structure VxOps where
  it : Bool
  vd : BitVec 5
  va : BitVec 5
  vb : BitVec 5
  vc : BitVec 5
  bm : BitVec 2
  bidx : BitVec 6
  msk : BitVec 3
  mz : Bool
  imm : BitVec 32
  rsv : Nat
  deriving DecidableEq, Repr

/-- The functions of the common layout (R125, R126). -/
inductive VxFn
  | add | sub | mul | min | max | abs | neg | div | sqrt | rcp | mov | relu | scale2 | and | or | xor | shl | shra | shrl
  | fma | fnma
  | exp2 | exp | log2 | ln | rsqrt | tanh | sigmoid | erf | silu | gelu
  | rsum | rmax | rmin | csum | cmax | cmin
  | eq | ne | lt | le | gt | ge | unord | mand | mor | mxor | mandn | mgen
  | sel | f2i | i2f | itag
  deriving DecidableEq, Repr

/-- VX.RDA (R128). -/
structure VxRda where
  fmto : BitVec 4
  acc : BitVec 4
  rb : BitVec 3
  ch : Bool
  vd : BitVec 5
  osh : BitVec 7
  ostep : BitVec 4
  msk : BitVec 3
  mz : Bool
  rsv : Nat
  deriving DecidableEq, Repr

/-- VX.QNT (R130). -/
structure VxQnt where
  fmtq : BitVec 4
  scl : BitVec 2
  gsz : BitVec 2
  va : BitVec 5
  tsc : BitVec 8
  floor : BitVec 8
  daddr : BitVec 18
  dstr : BitVec 12
  saddr : BitVec 25
  sstr : BitVec 12
  msk : BitVec 3
  rsv : Nat
  deriving DecidableEq, Repr

/-- VX.DQT (R132). -/
structure VxDqt where
  fmtq : BitVec 4
  scl : BitVec 2
  gsz : BitVec 2
  vd : BitVec 5
  tsc : BitVec 8
  goff : Bool
  aaddr : BitVec 18
  astr : BitVec 12
  saddr : BitVec 25
  sstr : BitVec 12
  msk : BitVec 3
  mz : Bool
  rsv : Nat
  deriving DecidableEq, Repr

/-- VX.LD and VX.ST (R133). -/
structure VxLs where
  fmt : BitVec 4
  vr : BitVec 5
  addr : BitVec 18
  str : BitVec 12
  msk : BitVec 3
  mz : Bool
  rsv : Nat
  deriving DecidableEq, Repr

/-- DM.XFER (R157): the byte address of the descriptor. -/
structure DmXfer where
  desc : BitVec 25
  rsv : Nat
  deriving DecidableEq, Repr

/-- DM.LITE (R157), without DIR. -/
structure DmLite where
  laddr : BitVec 25
  raddr : BitVec 52
  lenm1 : BitVec 8
  cnt : BitVec 6
  cen : Bool
  sclass : BitVec 3
  scnt : BitVec 6
  scen : Bool
  rsv : Nat
  deriving DecidableEq, Repr

/-- DM.RALLY (R157). -/
structure DmRally where
  acc : BitVec 4
  entry : BitVec 12
  rsv : Nat
  deriving DecidableEq, Repr

/-- DM.SKIM and DM.COPY (R156). -/
structure DmLocal where
  daddr : BitVec 18
  lenm1 : BitVec 18
  saddr : BitVec 18
  pat : BitVec 32
  rsv : Nat
  deriving DecidableEq, Repr

/-- SY.GATE (R141). -/
structure SyGate where
  qmask : BitVec 6
  time : BitVec 32
  bound : BitVec 32
  rsv : Nat
  deriving DecidableEq, Repr

/-- SY.WAITC (R141, R146). -/
structure SyWaitc where
  cnt : BitVec 6
  target : BitVec 32
  bound : BitVec 32
  rsv : Nat
  deriving DecidableEq, Repr

/-- CT.WRC (R164). -/
structure CtWrc where
  offset : BitVec 12
  value : BitVec 64
  rsv : Nat
  deriving DecidableEq, Repr

/-- CT.RTAG (R164). -/
structure CtRtag where
  gran : BitVec 7
  tag : BitVec 2
  rsv : Nat
  deriving DecidableEq, Repr

/-- CT.STS (R164). -/
structure CtSts where
  acc : BitVec 4
  addr : BitVec 25
  rsv : Nat
  deriving DecidableEq, Repr

/-- CT.CINV (R164). -/
structure CtCinv where
  units : BitVec 6
  rsv : Nat
  deriving DecidableEq, Repr

/-- CT.END, CT.NOP and CT.HGDUMP have no operands (R164). -/
structure CtBare where
  rsv : Nat
  deriving DecidableEq, Repr

/-- A decoded instruction of a core (R136). -/
inductive CoreInstr
  | mxLdw (f : MxLdw)
  | mxMul (f : MxMul)
  | mxWo (f : MxWo)
  | mvMul (f : MvMul)
  | vx (fn : VxFn) (f : VxOps)
  | vxRda (f : VxRda)
  | vxQnt (f : VxQnt)
  | vxDqt (f : VxDqt)
  | vxLd (f : VxLs)
  | vxSt (f : VxLs)
  | dmXfer (f : DmXfer)
  | dmLitePut (f : DmLite)
  | dmLiteGet (f : DmLite)
  | dmRally (f : DmRally)
  | dmSkim (f : DmLocal)
  | dmCopy (f : DmLocal)
  | syGate (f : SyGate)
  | syWaitc (f : SyWaitc)
  | ctEnd (f : CtBare)
  | ctNop (f : CtBare)
  | ctWrc (f : CtWrc)
  | ctRtag (f : CtRtag)
  | ctSts (f : CtSts)
  | ctHgdump (f : CtBare)
  | ctCinv (f : CtCinv)
  deriving DecidableEq, Repr

/-- The six engine queues of a core (R136, R137). -/
inductive QueueId
  | mx | mv | vx | dt | dl | ct
  deriving DecidableEq, Repr

/-- The engines that keep operations and logs (R101). -/
inductive MatEngine
  | mxa | mvp
  deriving DecidableEq, Repr

/-- What the error correction finds on a read: a physical finding, given with the command (R153). -/
inductive Ecc
  | ok | corrected | uncorrectable
  deriving DecidableEq, Repr

/-- A Farast packet (R352): its eight header words and its payload. -/
structure Packet where
  w : List Nat
  payload : List (BitVec 8)
  deriving DecidableEq, Repr

/-- What the checks on the source of one unit of a transfer find (R163, R238): physical findings, given with the command. -/
inductive UnitFinding
  | ok | corrected | uncorrectable | sealBad
  deriving DecidableEq, Repr

/-- A transfer whose last source byte is read, and what the checks find on what it reads then (R161, R163). -/
structure SourceRead where
  id : Nat
  fnd : UnitFinding := .ok
  deriving DecidableEq, Repr

/-- A CT.WRC and what the error correction finds on the edge table it reads (R75, R153). -/
structure WrcRead where
  op : CtWrc
  ecc : Ecc := .ok
  deriving DecidableEq, Repr

/-- What an inbound WRITE meets: a level whose table entry reads uncorrectable in its walk (R257), and what the error correction finds on old bytes
of a block it writes in part (R237). -/
structure WriteFind where
  table : Option Nat := none
  old : Ecc := .ok
  deriving DecidableEq, Repr

/-- What the host's answer to a back-invalidate brings (R374): the line's bytes where it held them dirty, whether they come poisoned, and what the
error correction finds on the unit's old bytes (R237). -/
structure BiData where
  bytes : Option (List (BitVec 8))
  poison : Bool := false
  old : Ecc := .ok
  deriving DecidableEq, Repr

/-- What an EMB finds as a row is read, pooled or combined (R206, R226, R236, R411): physical findings, given with the command. `notBack`: the
new home of a moved row has yet to write it back (R224). -/
inductive RowFinding
  | ok | corrected | uncorrectable | checkBad | storeBad | notBack
  deriving DecidableEq, Repr

/-- What an edge meets: what the power sensors read over the cycle that ended (R493), and, by home and row, what the applies of a step boundary find
(R217, R236). -/
structure EdgeFind where
  watts : Nat
  rows : List (Nat × RowFinding) := []
  deriving DecidableEq, Repr

/-- What the CFE's and the Fixture engine's accesses find (R301-R312): the bytes that host memory returns (by host
address), the addresses whose data come poisoned, the 4 KiB blocks of the module that read uncorrectable or fail their Seal, and a level
whose table entry reads uncorrectable in a walk. -/
structure ReadFind where
  data : List (Nat × List (BitVec 8)) := []
  poison : List Nat := []
  ue : List Nat := []
  sealBad : List Nat := []
  table : Option Nat := none
  deriving DecidableEq, Repr

/-- What a cross-check run shows (R416): the pair agrees or differs; or, in the repeat of a pair that differed on a third core, one of the pair is
suspect, the difference was transient, or no two agree. -/
inductive XcOutcome
  | agree
  | differ
  | suspect (bad third off : Nat)
  | transient (third : Nat)
  | noneAgree (third : Nat)
  deriving DecidableEq, Repr

/-- Device-fatal triggers that no other command brings (R401, R521): an uncorrectable error in MGC memory, in the error aggregator, in the ledger,
in a VC0 router of foundation die `n` (below 8) or I/O die n - 8, or a UNIT error on a position that a repair of the handler's raised. -/
inductive FatalTrigger
  | mgcMemory
  | aggregator
  | repairAction (pos : Nat)
  | ledger
  | router (n : Nat)
  deriving DecidableEq, Repr

/-- Positions K0 to K15 of every die, as a mask. -/
def kfirst16 : Nat := (List.range 8).foldl (fun a d => a + 65535 * 2 ^ (18 * d)) 0

/-- What is fused: the security area (R452), and what manufacture fuses beside it (R22, R442, R519): the maps of in-service and fused-out
positions, the identity. -/
structure Otp where
  sec : Nat := 0
  inService : Nat := kfirst16
  fusedOut : Nat := 0
  pciVid : Nat := 0
  pciDid : Nat := 0
  serial : List Byte := []
  silRev : Nat := 0
  vxeRev : Nat := 0
  uuid : List Byte := []
  i3cPid : Nat := 0
  deriving DecidableEq, Repr

/-- A signature: the public key, the message with its context string, the signature's bytes. -/
abbrev Signature := List Byte × List Byte × List Byte

/-- What the outside has done to a module by the time its reset is released: the fuses of manufacture, which only a module that is blank takes;
the runs of bytes that the board wrote into the flash while FLASH_REL was high (R458, R510); and signatures that the holders of the keys have
made (R453, R455). Log entry 99. -/
structure Board where
  made : Option Otp := none
  flash : List (Nat × List Byte) := []
  signatures : List Signature := []
  deriving DecidableEq, Repr

/-- What start-up meets outside the module's logic (R462, R477, R518): failing rows that the engines' MBIST finds (store, unit, sub-array, row),
whether the sector write of the start-up count fails, and whether the device certificate area fails to parse. -/
structure BootFinds where
  mbist : List (Nat × Nat × Nat × Nat)
  countFails : Bool
  certBad : Bool
  deriving DecidableEq, Repr

/-- A core whose start-up BIST did not pass at once (R478): LBIST, MBIST, failing rows, and whether the repeat after repair passed. -/
structure BistFind where
  core : Nat
  lb : Bool
  mb : Bool
  rows : List (Nat × Nat × Nat)
  again : Bool
  deriving DecidableEq, Repr

/-- How the staging of a firmware package ends (R467): its source unreadable, a flash error, or the package with what was read back. -/
inductive StageOutcome
  | unreadable
  | flashError
  | done (pkg back : List Byte)
  deriving DecidableEq, Repr

/-- The origin of a management request (R422, R441): its route (0 F, 1 H, 2 MCTP over I3C, 3 MCTP over PCIe VDM), endpoint, SPDM session or 0, and
the requester's tag. -/
structure Origin where
  route : Nat
  eid : Nat
  session : Nat
  tag : Nat
  deriving DecidableEq, Repr

/-- The commands of the block, one per row of spec/opcode_table.json in its order. Operands are named alike throughout: `t` the time, `tc` or `tb`
the same instant on the core or the fabric clock where a command needs both, `p` a physical core, `f` an instruction's fields, `ecc` and `e` what the
memory's code found, `ue` the level of a table walk whose entry read uncorrectable, `res` whether the residue check found an error, `ups` upsets of the
adder path, `o` a request's origin, `q` a queue, `r` a ring, `n` a port, `l` a lane, `k` a packet, `st` a stack, `id` a transfer or a store; the rest are named
for what they are. -/
inductive Instr
  /-- INSTRUCTION_FETCH: The dispatcher fetches 128 B of task code into its fetch buffer whenever eight buffer entries are free (R137). -/
  | instructionFetch (t : Nat) (p : Nat) (ecc : Ecc)
  /-- INSTRUCTION_DISPATCH: The dispatcher moves one instruction per CCLK, in program order, into the queue that its class code names (R137). -/
  | instructionDispatch (t : Nat) (p : Nat)
  /-- SY_GATE: Places a gate marker in each queue named in QMASK; the marker opens when TCK reaches TIME (R141). -/
  | syGate (t : Nat) (p : Nat) (f : SyGate)
  /-- GATE_OPEN: A gate marker opens when TCK reaches its TIME, and the instructions behind it may issue (R141). -/
  | gateOpen (t : Nat) (p : Nat) (q : QueueId)
  /-- SY_WAITC: Pauses the core until the named arrival counter reaches TARGET under serial comparison (R146). -/
  | syWaitc (t : Nat) (p : Nat) (f : SyWaitc)
  /-- ARRIVAL_TIMEOUT: BOUND elapsed CCLK pass during an arrival wait, and the task faults with cause arrival timeout (R146). -/
  | arrivalTimeout (t : Nat) (p : Nat)
  /-- MX_LDW: Loads a held weight tile and its group scales into the named weight buffer (R83). -/
  | mxLdw (t : Nat) (p : Nat) (f : MxLdw) (ecc : Ecc)
  /-- MX_MUL: Streams activation rows past a held tile and adds exact truncated products into an ACM tile (R79). -/
  | mxMul (t : Nat) (p : Nat) (f : MxMul) (ecc : Ecc) (ups : List (Nat × Int))
  /-- OPERATION_JUDGEMENT: At the completion of a LAST pass, the engine judges the replay triggers, compares checksums and sets DONE (R65). -/
  | operationJudgement (t : Nat) (p : Nat) (e : MatEngine)
  /-- MX_WO: Converts a completed ACM tile once to its output format and writes it to the SPM (R69). -/
  | mxWo (t : Nat) (p : Nat) (f : MxWo)
  /-- MV_MUL: The matrix-vector path multiplies up to 8 vectors by a packed weight block into ACM rows (R105). -/
  | mvMul (t : Nat) (p : Nat) (f : MvMul) (ecc : Ecc) (ups : List (Nat × Int))
  /-- VX_ALU_ADD: Lane-wise A plus B, in FP32 or saturating INT32 (R125). -/
  | vxAluAdd (t : Nat) (p : Nat) (f : VxOps) (res : Bool)
  /-- VX_ALU_SUB: Lane-wise A minus B, in FP32 or saturating INT32 (R125). -/
  | vxAluSub (t : Nat) (p : Nat) (f : VxOps) (res : Bool)
  /-- VX_ALU_MUL: Lane-wise A times B, in FP32 or saturating INT32 (R125). -/
  | vxAluMul (t : Nat) (p : Nat) (f : VxOps) (res : Bool)
  /-- VX_ALU_MIN: Lane-wise minimum, ignoring a single NaN input (R125). -/
  | vxAluMin (t : Nat) (p : Nat) (f : VxOps) (res : Bool)
  /-- VX_ALU_MAX: Lane-wise maximum, ignoring a single NaN input (R125). -/
  | vxAluMax (t : Nat) (p : Nat) (f : VxOps) (res : Bool)
  /-- VX_ALU_ABS: Lane-wise absolute value (R125). -/
  | vxAluAbs (t : Nat) (p : Nat) (f : VxOps) (res : Bool)
  /-- VX_ALU_NEG: Lane-wise negation (R125). -/
  | vxAluNeg (t : Nat) (p : Nat) (f : VxOps) (res : Bool)
  /-- VX_ALU_DIV: Lane-wise correctly rounded FP32 division A / B (R125). -/
  | vxAluDiv (t : Nat) (p : Nat) (f : VxOps) (res : Bool)
  /-- VX_ALU_SQRT: Lane-wise correctly rounded FP32 square root (R125). -/
  | vxAluSqrt (t : Nat) (p : Nat) (f : VxOps) (res : Bool)
  /-- VX_ALU_RCP: Lane-wise correctly rounded FP32 reciprocal (R125). -/
  | vxAluRcp (t : Nat) (p : Nat) (f : VxOps) (res : Bool)
  /-- VX_ALU_MOV: Copies a register, a broadcast row or column, or an immediate, and copies TAG from a register source (R125). -/
  | vxAluMov (t : Nat) (p : Nat) (f : VxOps) (res : Bool)
  /-- VX_ALU_RELU: Lane-wise MAX(A, +0) (R125). -/
  | vxAluRelu (t : Nat) (p : Nat) (f : VxOps) (res : Bool)
  /-- VX_ALU_SCALE2: Lane-wise A times 2^IMM with one rounding (R125). -/
  | vxAluScale2 (t : Nat) (p : Nat) (f : VxOps) (res : Bool)
  /-- VX_ALU_AND: Lane-wise bitwise AND in INT32 lanes (R125). -/
  | vxAluAnd (t : Nat) (p : Nat) (f : VxOps) (res : Bool)
  /-- VX_ALU_OR: Lane-wise bitwise OR in INT32 lanes (R125). -/
  | vxAluOr (t : Nat) (p : Nat) (f : VxOps) (res : Bool)
  /-- VX_ALU_XOR: Lane-wise bitwise XOR in INT32 lanes (R125). -/
  | vxAluXor (t : Nat) (p : Nat) (f : VxOps) (res : Bool)
  /-- VX_ALU_SHL: Lane-wise left shift by the low 8 bits of B (R118). -/
  | vxAluShl (t : Nat) (p : Nat) (f : VxOps) (res : Bool)
  /-- VX_ALU_SHRA: Lane-wise arithmetic right shift by the low 8 bits of B (R118). -/
  | vxAluShra (t : Nat) (p : Nat) (f : VxOps) (res : Bool)
  /-- VX_ALU_SHRL: Lane-wise logical right shift by the low 8 bits of B (R118). -/
  | vxAluShrl (t : Nat) (p : Nat) (f : VxOps) (res : Bool)
  /-- VX_FMA: Lane-wise A times B plus VC, rounded once (R125). -/
  | vxFma (t : Nat) (p : Nat) (f : VxOps) (res : Bool)
  /-- VX_FMA_NEGATED: Lane-wise minus (A times B) plus VC, rounded once (R125). -/
  | vxFmaNegated (t : Nat) (p : Nat) (f : VxOps) (res : Bool)
  /-- VX_TRN_EXP2: Lane-wise 2^x within 1 ulp (R126). -/
  | vxTrnExp2 (t : Nat) (p : Nat) (f : VxOps) (res : Bool)
  /-- VX_TRN_EXP: Lane-wise e^x within 2 ulp (R126). -/
  | vxTrnExp (t : Nat) (p : Nat) (f : VxOps) (res : Bool)
  /-- VX_TRN_LOG2: Lane-wise base-2 logarithm within 1 ulp (R126). -/
  | vxTrnLog2 (t : Nat) (p : Nat) (f : VxOps) (res : Bool)
  /-- VX_TRN_LN: Lane-wise natural logarithm within 2 ulp (R126). -/
  | vxTrnLn (t : Nat) (p : Nat) (f : VxOps) (res : Bool)
  /-- VX_TRN_RSQRT: Lane-wise reciprocal square root within 1 ulp (R126). -/
  | vxTrnRsqrt (t : Nat) (p : Nat) (f : VxOps) (res : Bool)
  /-- VX_TRN_TANH: Lane-wise hyperbolic tangent within 2 ulp (R126). -/
  | vxTrnTanh (t : Nat) (p : Nat) (f : VxOps) (res : Bool)
  /-- VX_TRN_SIGMOID: Lane-wise logistic function within 2 ulp (R126). -/
  | vxTrnSigmoid (t : Nat) (p : Nat) (f : VxOps) (res : Bool)
  /-- VX_TRN_ERF: Lane-wise error function within 2 ulp (R126). -/
  | vxTrnErf (t : Nat) (p : Nat) (f : VxOps) (res : Bool)
  /-- VX_TRN_SILU: Lane-wise x times SIGMOID(x) within 3 ulp (R126). -/
  | vxTrnSilu (t : Nat) (p : Nat) (f : VxOps) (res : Bool)
  /-- VX_TRN_GELU: Lane-wise GELU within 3 ulp (R126). -/
  | vxTrnGelu (t : Nat) (p : Nat) (f : VxOps) (res : Bool)
  /-- VX_RED_RSUM: Exact sum over the unmasked columns of each row, rounded once into column 0 (R127). -/
  | vxRedRsum (t : Nat) (p : Nat) (f : VxOps) (res : Bool)
  /-- VX_RED_RMAX: Maximum over the unmasked columns of each row into column 0 (R127). -/
  | vxRedRmax (t : Nat) (p : Nat) (f : VxOps) (res : Bool)
  /-- VX_RED_RMIN: Minimum over the unmasked columns of each row into column 0 (R127). -/
  | vxRedRmin (t : Nat) (p : Nat) (f : VxOps) (res : Bool)
  /-- VX_RED_CSUM: Exact sum over the unmasked rows of each column, rounded once into row 0 (R127). -/
  | vxRedCsum (t : Nat) (p : Nat) (f : VxOps) (res : Bool)
  /-- VX_RED_CMAX: Maximum over the unmasked rows of each column into row 0 (R127). -/
  | vxRedCmax (t : Nat) (p : Nat) (f : VxOps) (res : Bool)
  /-- VX_RED_CMIN: Minimum over the unmasked rows of each column into row 0 (R127). -/
  | vxRedCmin (t : Nat) (p : Nat) (f : VxOps) (res : Bool)
  /-- VX_CMP_EQ: Sets mask bits where A equals B (R125). -/
  | vxCmpEq (t : Nat) (p : Nat) (f : VxOps) (res : Bool)
  /-- VX_CMP_NE: Sets mask bits where A differs from B (R125). -/
  | vxCmpNe (t : Nat) (p : Nat) (f : VxOps) (res : Bool)
  /-- VX_CMP_LT: Sets mask bits where A is less than B (R125). -/
  | vxCmpLt (t : Nat) (p : Nat) (f : VxOps) (res : Bool)
  /-- VX_CMP_LE: Sets mask bits where A is at most B (R125). -/
  | vxCmpLe (t : Nat) (p : Nat) (f : VxOps) (res : Bool)
  /-- VX_CMP_GT: Sets mask bits where A is greater than B (R125). -/
  | vxCmpGt (t : Nat) (p : Nat) (f : VxOps) (res : Bool)
  /-- VX_CMP_GE: Sets mask bits where A is at least B (R125). -/
  | vxCmpGe (t : Nat) (p : Nat) (f : VxOps) (res : Bool)
  /-- VX_CMP_UNORD: Sets mask bits where A or B is a NaN (R125). -/
  | vxCmpUnord (t : Nat) (p : Nat) (f : VxOps) (res : Bool)
  /-- VX_CMP_MAND: Mask AND of two mask registers (R125). -/
  | vxCmpMand (t : Nat) (p : Nat) (f : VxOps) (res : Bool)
  /-- VX_CMP_MOR: Mask OR of two mask registers (R125). -/
  | vxCmpMor (t : Nat) (p : Nat) (f : VxOps) (res : Bool)
  /-- VX_CMP_MXOR: Mask XOR of two mask registers (R125). -/
  | vxCmpMxor (t : Nat) (p : Nat) (f : VxOps) (res : Bool)
  /-- VX_CMP_MANDN: Mask AND-NOT of two mask registers (R125). -/
  | vxCmpMandn (t : Nat) (p : Nat) (f : VxOps) (res : Bool)
  /-- VX_CMP_MGEN: Generates a mask of the rows and columns below the immediate bounds (R125). -/
  | vxCmpMgen (t : Nat) (p : Nat) (f : VxOps) (res : Bool)
  /-- VX_SEL: Selects A where the mask bit is 1 and B where it is 0 (R125). -/
  | vxSel (t : Nat) (p : Nat) (f : VxOps) (res : Bool)
  /-- VX_CVT_F2I: Converts FP32 to INT32, rounding to nearest even and saturating (R125). -/
  | vxCvtF2i (t : Nat) (p : Nat) (f : VxOps) (res : Bool)
  /-- VX_CVT_I2F: Converts INT32 times the register's tile scale to FP32 with one rounding (R125). -/
  | vxCvtI2f (t : Nat) (p : Nat) (f : VxOps) (res : Bool)
  /-- VX_CVT_ITAG: Copies a register and sets its TAG from the immediate (R125). -/
  | vxCvtItag (t : Nat) (p : Nat) (f : VxOps) (res : Bool)
  /-- VX_RDA: Reads a 16 by 64 block of an ACM tile into a register as a write-out (R128). -/
  | vxRda (t : Nat) (p : Nat) (f : VxRda) (res : Bool)
  /-- VX_QNT: Quantizes FP32 register rows to narrow elements with group scales and writes them to the SPM (R131). -/
  | vxQnt (t : Nat) (p : Nat) (f : VxQnt) (res : Bool)
  /-- VX_DQT: Dequantizes narrow or INT32 tile elements from the SPM into FP32 lanes (R132). -/
  | vxDqt (t : Nat) (p : Nat) (f : VxDqt) (ecc : Ecc) (res : Bool)
  /-- VX_LD: Loads one tile register from the SPM (R133). -/
  | vxLd (t : Nat) (p : Nat) (f : VxLs) (ecc : Ecc) (res : Bool)
  /-- VX_ST: Stores one tile register to the SPM (R133). -/
  | vxSt (t : Nat) (p : Nat) (f : VxLs) (res : Bool)
  /-- ARITH_FLAG_TRAP: A trapped VXE flag takes effect when the instruction's results become readable, and the command faults (R121). -/
  | arithFlagTrap (t : Nat) (p : Nat)
  /-- DM_XFER_COPY: Starts a descriptor transfer that copies rows between the SPM and a DVA (R159). -/
  | dmXferCopy (t : Nat) (p : Nat) (f : DmXfer) (ecc : Ecc)
  /-- DM_XFER_TRANSPOSE: Starts a descriptor transfer that transposes elements on their way into the SPM (R159). -/
  | dmXferTranspose (t : Nat) (p : Nat) (f : DmXfer) (ecc : Ecc)
  /-- DM_LITE_PUT: Sends up to 256 B from the local SPM to a DVA on the light path (R157). -/
  | dmLitePut (t : Nat) (p : Nat) (f : DmLite)
  /-- DM_LITE_GET: Fetches up to 256 B from a DVA into the local SPM on the light path (R157). -/
  | dmLiteGet (t : Nat) (p : Nat) (f : DmLite)
  /-- DM_RALLY: Sends a closed tile's partial into the rally tree or arms a node or root entry (R357). -/
  | dmRally (t : Nat) (tb : Nat) (p : Nat) (f : DmRally)
  /-- DM_SKIM: Fills an SPM range with a 32-bit pattern (R156). -/
  | dmSkim (t : Nat) (p : Nat) (f : DmLocal)
  /-- DM_COPY: Copies an SPM range, verifying the Seal of whole FRESH blocks (R156). -/
  | dmCopy (t : Nat) (p : Nat) (f : DmLocal) (ecc : Ecc)
  /-- PAGE_WALK: A four-level walk completes and fills a TLB entry covering the largest aligned run (R253). -/
  | pageWalk (t : Nat) (xu : Nat) (dva : Nat) (id : Nat) (ue : Option Nat)
  /-- UNIT_ARRIVAL: The last byte of a 4 KiB unit is written into an SPM and the named arrival counter gains 1 (R144). -/
  | unitArrival (t : Nat) (tc : Nat) (id : Nat) (fnd : UnitFinding) (oldBad : Bool)
  /-- SOURCE_RELEASE: A transfer has read its last source byte and its source-release counter gains 1 (R161). -/
  | sourceRelease (t : Nat) (tc : Nat) (r : SourceRead)
  /-- TRANSFER_ACK: The destination acknowledges a transfer's last unit and the transfer stops being outstanding (R160). -/
  | transferAck (t : Nat) (id : Nat)
  /-- CT_END: Issues the end of the task, which retires once its conditions hold (R164). -/
  | ctEnd (t : Nat) (p : Nat) (f : CtBare)
  /-- CT_END_RETIRE: CT.END retires once all queues are empty, all instructions complete and all logs have verdicts (R170). -/
  | ctEndRetire (t : Nat) (p : Nat)
  /-- ONDECK_RECORD: A task state record arrives in the on-deck registers, starting an idle core or being dropped as an overrun (R168). -/
  | ondeckRecord (t : Nat) (p : Nat) (w : List Nat)
  /-- CT_NOP: Does nothing for one CCLK on the CT queue (R164). -/
  | ctNop (t : Nat) (p : Nat) (f : CtBare)
  /-- CT_WRC: Writes a writable register of the core's control page (R164). -/
  | ctWrc (t : Nat) (p : Nat) (r : WrcRead)
  /-- CACHECTL_APPLY: A CACHECTL write applies once no CACHE = 1 transfer is outstanding, enabling or discarding cache units (R155). -/
  | cachectlApply (t : Nat) (p : Nat)
  /-- CT_RTAG: Changes a granule's region tag and skims it to zero under the new code (R152). -/
  | ctRtag (t : Nat) (p : Nat) (f : CtRtag)
  /-- CT_STS: Stores a tile status word to the SPM (R164). -/
  | ctSts (t : Nat) (p : Nat) (f : CtSts)
  /-- CT_HGDUMP: Writes the histogram counters to OUT_PTR (R76). -/
  | ctHgdump (t : Nat) (p : Nat) (f : CtBare)
  /-- CT_CINV: Invalidates the named cache units once no cached transfer is outstanding (R164). -/
  | ctCinv (t : Nat) (p : Nat) (f : CtCinv)
  /-- TASK_OVERRUN: ETK passes BUDGET, the core sets OVERRUN and reports it to the Fixture engine (R169). -/
  | taskOverrun (t : Nat) (p : Nat)
  /-- HALTED_CORE_RELEASE: A HALTED core is released at the end of its faulted command's placement on the position (R320). -/
  | haltedCoreRelease (t : Nat) (tb : Nat) (p : Nat)
  /-- ATOMIC_ADD: Adds operands modulo the type width into a block of HBM as one whole-block event (R239). -/
  | atomicAdd (t : Nat) (tc : Nat) (x : Nat) (e : Ecc)
  /-- ATOMIC_MIN: Stores the minimum of old and operand per element (R239). -/
  | atomicMin (t : Nat) (tc : Nat) (x : Nat) (e : Ecc)
  /-- ATOMIC_MAX: Stores the maximum of old and operand per element (R239). -/
  | atomicMax (t : Nat) (tc : Nat) (x : Nat) (e : Ecc)
  /-- ATOMIC_AND: Bitwise AND of operand into each element (R239). -/
  | atomicAnd (t : Nat) (tc : Nat) (x : Nat) (e : Ecc)
  /-- ATOMIC_OR: Bitwise OR of operand into each element (R239). -/
  | atomicOr (t : Nat) (tc : Nat) (x : Nat) (e : Ecc)
  /-- ATOMIC_XOR: Bitwise XOR of operand into each element (R239). -/
  | atomicXor (t : Nat) (tc : Nat) (x : Nat) (e : Ecc)
  /-- ATOMIC_SWAP: Writes operand into each element and returns the old values (R239). -/
  | atomicSwap (t : Nat) (tc : Nat) (x : Nat) (e : Ecc)
  /-- ATOMIC_CAS: Writes new where old equals compare and returns the old values (R239). -/
  | atomicCas (t : Nat) (tc : Nat) (x : Nat) (e : Ecc)
  /-- ATOMIC_FIN: Returns ACC128 words converted once to FMTO, optionally clearing them (R239). -/
  | atomicFin (t : Nat) (tc : Nat) (x : Nat) (e : Ecc)
  /-- SLM_CACHE_FILL: A cache fill of a 4 KiB block completes and installs the line unless a write cancelled it (R235). -/
  | slmCacheFill (t : Nat) (k : Nat) (ok : Bool)
  /-- SLM_UNIT_SKIM_DONE: A unit that became SCRATCH finishes its skim and scratch accesses may proceed (R234). -/
  | slmUnitSkimDone (t : Nat) (k : Nat) (u : Nat)
  /-- PATROL_SCRUB: Patrol scrub reads live units on its period, writing back corrected errors (R237). -/
  | patrolScrub (t : Nat) (dpa : Nat) (e : Ecc)
  /-- MAPOUT: A write requests the map-out of a channel, which enters DRAIN (R233). -/
  | mapout (t : Nat) (o : Origin) (st : Nat) (ch : Nat)
  /-- VACATED: The driver acknowledges that the removed range is vacated, letting the map-out copy start (R233). -/
  | vacated (t : Nat) (o : Origin) (st : Nat) (v : Nat)
  /-- MAPOUT_COPY_DONE: The last moved block is copied, and the placement switches at the next edge (R233). -/
  | mapoutCopyDone (t : Nat) (st : Nat) (badBlocks : List Nat)
  /-- LOOKUP_REQUEST: A lookup request arrives whole at its entry EMB, is checked and routed, and its rows are gathered and pooled (R203). -/
  | lookupRequest (t : Nat) (tc : Nat) (x : Nat) (ue : Option Nat)
  /-- ROW_FETCH: A distinct row arrives from the row cache or HBM and is pooled into every bag that uses it (R204). -/
  | rowFetch (t : Nat) (tc : Nat) (src : Nat) (st : Nat) (tag : Nat) (home : Nat) (fnd : RowFinding)
  /-- UPDATE_REQUEST: An update request arrives, is routed, and its partial rows are combined by step (R213). -/
  | updateRequest (t : Nat) (tc : Nat) (x : Nat) (fnd : RowFinding) (ue : Option Nat)
  /-- TBLDESC: A write of a table descriptor, refused with BUSY for fixed fields while the table has a valid home (R195). -/
  | tbldesc (t : Nat) (o : Origin) (table : Nat) (desc : Nat)
  /-- HMAPCOMMIT: Arms the switch of a table's home map generation at a named edge (R197). -/
  | hmapcommit (t : Nat) (o : Origin) (table : Nat) (c : Nat)
  /-- MIGREQ: Requests the move of a stripe, which enters COPY at the next edge (R222). -/
  | migreq (t : Nat) (o : Origin) (table : Nat) (stripe : Nat) (m : Nat) (st : Nat)
  /-- MIGRATION_COPY_DONE: The last block of a stripe is copied and the move enters DUAL (R222). -/
  | migrationCopyDone (t : Nat) (table : Nat) (stripe : Nat) (badBlock : Option Nat)
  /-- MIGRELEASE: Releases the old frames of a move between modules at the next edge (R224). -/
  | migrelease (t : Nat) (o : Origin) (table : Nat) (stripe : Nat)
  /-- CADENCE_PULSE: A cadence pulse is registered at IO0 and is accepted or counted as a stray (R268). -/
  | cadencePulse (t : Nat)
  /-- MADE_EDGE: No pulse is accepted by P + T + W, and the Fixture engine makes the edge itself (R268). -/
  | madeEdge (t : Nat)
  /-- RELOCK_FAILURE: No consistent pulse follows the fourth relock pulse in time, and the edge is made at last edge + 2T (R271). -/
  | relockFailure (t : Nat)
  /-- CYCLE_EDGE: At the named BCLK every unit applies the edge actions in their fixed order (R281). -/
  | cycleEdge (t : Nat) (fnd : EdgeFind)
  /-- CADSRC: Selects internal or external cadence, taking effect at the next edge or at once from FREE (R272). -/
  | cadsrc (t : Nat) (o : Origin) (v : Nat)
  /-- PPS_EDGE: A TIME_PPS rising edge loads EXT_TIME from TODNEXT after a write (R273). -/
  | ppsEdge (t : Nat)
  /-- PPS_LOST: No TIME_PPS edge arrives for 1.1 s and PPSLOST is set (R294). -/
  | ppsLost (t : Nat)
  /-- FIXCOMMIT: Arms the pending Fixture table for a target cycle, or starts DRAINING when geometry changes (R280). -/
  | fixcommit (t : Nat) (o : Origin) (c : Nat)
  /-- PHASE_RELEASE: At a phase's first slot the Fixture sends its first task records and the CFE writes argument blocks (R289). -/
  | phaseRelease (t : Nat) (tc : Nat) (q : Nat) (cseq : Nat) (recs : List (Nat × List (List Nat)))
  /-- SQ_DOORBELL: A write to SQDB offers a new tail, accepted or ignored (R300). -/
  | sqDoorbell (t : Nat) (q : Nat) (tail : Nat)
  /-- CR_DOORBELL: A write to CRDB offers a new ring head, moving parked records into the ring (R316). -/
  | crDoorbell (t : Nat) (r : Nat) (head : Nat)
  /-- FETCH_PASS: The queue's fetcher reads submission entries and whole buffers until FHEAD equals DBTAIL (R301). -/
  | fetchPass (t : Nat) (q : Nat) (f : ReadFind)
  /-- BUFFER_FETCHED: A command buffer is held in the command store, checked, and its commands receive CSEQs (R302). -/
  | bufferFetched (t : Nat) (q : Nat)
  /-- RUN: A RUN command is presented once its predecessors succeed and is decided by admission (R304). -/
  | run (t : Nat) (q : Nat) (cseq : Nat) (f : ReadFind)
  /-- REPEAT: A REPEAT command, a further RUN in short form, is presented and decided by admission (R305). -/
  | repeatRun (t : Nat) (q : Nat) (cseq : Nat) (f : ReadFind)
  /-- NOP: A NOP completes OK once its predecessors succeed (R303). -/
  | nop (t : Nat) (q : Nat) (cseq : Nat)
  /-- SPAWN: After the command's last task retires, the CFE reads its spawn list and accepts or refuses its entries (R312). -/
  | spawn (t : Nat) (q : Nat) (cseq : Nat) (f : ReadFind)
  /-- COMPLETION_ISSUE: The CFE issues a completion record once all earlier records, tasks, transfers and stores are done (R314). -/
  | completionIssue (t : Nat) (q : Nat) (f : ReadFind)
  /-- INTGAP_EXPIRY: The interrupt gap ends and one deferred MSI-X signal covers the records written meanwhile (R317). -/
  | intgapExpiry (t : Nat) (r : Nat)
  /-- CREATE_SQ: Opens a submission queue bound to a completion ring (R323). -/
  | createSq (t : Nat)
  /-- CREATE_CR: Opens a completion ring (R323). -/
  | createCr (t : Nat)
  /-- DESTROY_SQ: Closes a queue, cancels unstarted commands and ends with a DESTROYED record (R326). -/
  | destroySq (t : Nat)
  /-- DESTROY_CR: Closes a completion ring with no bound queue or parked record (R323). -/
  | destroyCr (t : Nat)
  /-- RECOVER_RESUME: Faulted commands return to READY and run again with RERUN (R321). -/
  | recoverResume (t : Nat)
  /-- RECOVER_SKIP: Faulted commands complete with their fault status and the queue reopens (R321). -/
  | recoverSkip (t : Nat)
  /-- RECOVER_ABORT: Faulted commands complete, unstarted ones are cancelled and FHEAD jumps to DBTAIL (R321). -/
  | recoverAbort (t : Nat)
  /-- SETQUOTA: Sets a queue's quotas from the next cycle edge (R318). -/
  | setquota (t : Nat)
  /-- REBIND_SQ: Moves a submission ring to a new base and drops untaken entries (R323). -/
  | rebindSq (t : Nat)
  /-- REBIND_CR: Moves a completion ring to a new base and writes its parked records first (R323). -/
  | rebindCr (t : Nat)
  /-- CFECTL_ATTACH: Restarts Q0 and CR0 at the admin bases and makes the CFE ATTACHING (R328). -/
  | cfectlAttach (t : Nat)
  /-- CFECTL_DETACH: Makes the CFE DETACHED (R327). -/
  | cfectlDetach (t : Nat)
  /-- FARAST_WRITE: A WRITE packet is verified, judged against its inbound window and applied once (R264). -/
  | farastWrite (t : Nat) (tc : Nat) (n : Nat) (k : Packet) (fnd : WriteFind)
  /-- FARAST_READ: A READ packet is verified, judged against its inbound window and answered with READRESP (R264). -/
  | farastRead (t : Nat) (tc : Nat) (n : Nat) (k : Packet) (ue : Option Nat) (e : Ecc)
  /-- READRESP: Read data returns to the requester and is delivered to its destination (R353). -/
  | readresp (t : Nat) (tc : Nat) (n : Nat) (k : Packet)
  /-- EACK: An end-to-end acknowledgement answers a request, or refuses it by CASE (R354). -/
  | eack (t : Nat) (tc : Nat) (n : Nat) (k : Packet)
  /-- EMB_IDX: Forwarded index entries arrive at a remote home (R355). -/
  | embIdx (t : Nat) (tc : Nat) (n : Nat) (k : Packet)
  /-- EMB_PART: Bag partials arrive at the entry EMB from a home (R355). -/
  | embPart (t : Nat) (tc : Nat) (n : Nat) (k : Packet)
  /-- EMB_UPD: Update partials arrive at a remote home for combining (R355). -/
  | embUpd (t : Nat) (tc : Nat) (n : Nat) (k : Packet) (fnd : RowFinding)
  /-- EMB_CTL_SENT: Gives the home its index count, so it starts sorting once all have arrived (R355). -/
  | embCtlSent (t : Nat) (tc : Nat) (n : Nat) (k : Packet)
  /-- EMB_CTL_DONE: A home reports its last partial and its product-trigger report to the root (R355). -/
  | embCtlDone (t : Nat) (tc : Nat) (n : Nat) (k : Packet)
  /-- EMB_CTL_REPLAY: A home learns of a pooling replay and re-runs its share at the next ROUND (R355). -/
  | embCtlReplay (t : Nat) (tc : Nat) (n : Nat) (k : Packet)
  /-- EMB_CTL_COMBINED: A remote home acknowledges combining partial rows, feeding the command's completion (R216). -/
  | embCtlCombined (t : Nat) (tc : Nat) (n : Nat) (k : Packet)
  /-- EMB_CTL_FAULT: A remote home reports a fault and the request faults (R226). -/
  | embCtlFault (t : Nat) (tc : Nat) (n : Nat) (k : Packet)
  /-- EMB_MIG: A migration block or dual-apply write arrives at the destination module (R224). -/
  | embMig (t : Nat) (tc : Nat) (n : Nat) (k : Packet)
  /-- RALLY_PART: A partial arrives at a rally entry and is added exactly, or answered NOT_ARMED (R357). -/
  | rallyPart (t : Nat) (tc : Nat) (n : Nat) (k : Packet)
  /-- RALLY_ACCEPT: An ACCEPT verdict closes each contributor's log, with final sums under BCAST (R359). -/
  | rallyAccept (t : Nat) (tc : Nat) (n : Nat) (k : Packet)
  /-- RALLY_REPLAY: A REPLAY verdict makes each contributor re-run at the raised anchor and ROUND + 1 (R359). -/
  | rallyReplay (t : Nat) (tc : Nat) (n : Nat) (k : Packet)
  /-- RALLY_FAULT: A FAULT verdict faults the operation at every contributor (R359). -/
  | rallyFault (t : Nat) (tc : Nat) (n : Nat) (k : Packet)
  /-- NOT_ARMED_RESEND: 2 µs after a NOT_ARMED answer the sender resends its RALLY_PART (R358). -/
  | notArmedResend (t : Nat) (dst : Nat) (eseq : Nat)
  /-- RALLY_TIMEOUT: A node or root is not complete TOUS after arming and faults the operation (R358). -/
  | rallyTimeout (t : Nat) (tc : Nat) (e : Nat)
  /-- CONTROL_WORD: A frame's control word is decoded for acknowledgements, NAK, credits, link commands and equalizer steps (R343). -/
  | controlWord (t : Nat) (n : Nat) (fields : List (Option Nat))
  /-- CONTROL_WORD_LOSS: No control word of a port decodes for 8 frames and the port is declared DOWN (R343). -/
  | controlWordLoss (t : Nat) (n : Nat)
  /-- LINK_RETRY_TIMEOUT: No acknowledgement advances for 2 µs, so held packets are resent, or the port goes DOWN at LRMAX or LRTIME (R346). -/
  | linkRetryTimeout (t : Nat) (n : Nat)
  /-- FAILOVER_TRIGGER: A lane exceeds FOSYM or FOUCW or loses lock, starting a replacement or narrowing (R338). -/
  | failoverTrigger (t : Nat) (n : Nat) (l : Nat) (csym : Nat) (ucw : Nat) (lockLost : Bool)
  /-- MIRROR_CHECK: After 256 mirrored frames the receiver checks the spare and sends SWITCH (R339). -/
  | mirrorCheck (t : Nat) (n : Nat) (ok : Bool)
  /-- LCMD_MIRROR: The transmitter copies a logical position's codewords onto the spare (R339). -/
  | lcmdMirror (t : Nat) (n : Nat)
  /-- LCMD_SWITCH: Both ends take the position from the spare at the named frame (R339). -/
  | lcmdSwitch (t : Nat) (n : Nat) (rx : Bool)
  /-- LCMD_NARROW: Both ends renumber surviving lanes and the port narrows (R340). -/
  | lcmdNarrow (t : Nat) (n : Nat) (rx : Bool)
  /-- LCMD_WIDEN: A retrained lane rejoins and the port widens (R340). -/
  | lcmdWiden (t : Nat) (n : Nat) (rx : Bool)
  /-- EQ_ADAPT: Every 65,536 codewords adaptation updates each tap by at most one step (R335). -/
  | eqAdapt (t : Nat) (n : Nat) (l : Nat) (d : List Int)
  /-- EQREAD_REFRESH: Every 2^20 codewords a lane's equalizer readout is refreshed (R336). -/
  | eqreadRefresh (t : Nat) (n : Nat) (l : Nat) (snr : Nat) (eyeh : List Nat) (eyew : Nat) (csym : Nat) (ucw : Nat)
  /-- LRETRAIN: Requests the retraining of a FAILED lane in repair slots (R337). -/
  | lretrain (t : Nat) (o : Origin) (n : Nat) (l : Nat) (v : Nat)
  /-- LANE_TRAINED: Training ends and the lane becomes ACTIVE, SPARE or FAILED (R337). -/
  | laneTrained (t : Nat) (n : Nat) (l : Nat) (rx : Bool) (pass : Bool) (rtt : Nat)
  /-- E2E_TIMEOUT: A request unanswered for ETIMEOUT is resent, or its command completes LINK_TIMEOUT at the bound (R350). -/
  | e2eTimeout (t : Nat) (dst : Nat) (eseq : Nat)
  /-- MODID: Sets the module ID while ports are down and lets the ports train (R347). -/
  | modid (t : Nat) (o : Origin) (v : Nat)
  /-- PTROOT: Sets the page table root while quiet and invalidates every TLB and walk cache (R261). -/
  | ptroot (t : Nat) (o : Origin) (root : Nat)
  /-- XLINV: Queues a translation invalidation for the next edge, or is refused at 16 (R259). -/
  | xlinv (t : Nat) (o : Origin) (dva : Nat) (pages : Nat)
  /-- CXL_LINK_DOWN: The host link goes down, a host loss that resets host-facing state (R383). -/
  | cxlLinkDown (t : Nat)
  /-- CXL_HOT_RESET: A hot or secondary bus reset from the switch acts as link down (R383). -/
  | cxlHotReset (t : Nat)
  /-- CXL_PERST_ASSERT: CXL_PERST_N asserted acts as link down (R383). -/
  | cxlPerstAssert (t : Nat)
  /-- CXL_PERST_RELEASE: CXL_PERST_N rises and the CXL port trains (R517). -/
  | cxlPerstRelease (t : Nat)
  /-- FUNCTION_LEVEL_RESET: A function-level reset acts as link down with the link kept up (R383). -/
  | functionLevelReset (t : Nat)
  /-- HOSTTO_EXPIRY: A CXL.cache request is unanswered for HOSTTO, a host loss (R383). -/
  | hosttoExpiry (t : Nat) (id : Nat)
  /-- LINK_B_TAKEOVER: Link A has been down 100 ms, so link B trains and carries the function (R362). -/
  | linkBTakeover (t : Nat)
  /-- CXL_LINK_TRAINED: The host link trains and HOSTCHG follows its width and speed from the next edge (R363). -/
  | cxlLinkTrained (t : Nat) (width : Nat) (speed : Nat)
  /-- HOST_READ_RESPONSE: A RdCurr response returns, faulting its consumer with HOST_POISON if poisoned (R370). -/
  | hostReadResponse (t : Nat) (tc : Nat) (id : Nat) (data : List Byte) (poison : Bool)
  /-- HOST_WRITE_GO: The host returns global observation for a store, acknowledging it (R368). -/
  | hostWriteGo (t : Nat) (tc : Nat) (id : Nat)
  /-- HOST_SNOOP: A host snoop is answered RspIHitI (R368). -/
  | hostSnoop (t : Nat) (addr : Nat)
  /-- HDM_READ: A host CXL.mem read of the window is served, with poison on an uncorrectable error (R376). -/
  | hdmRead (t : Nat) (off : Nat) (hold : Bool) (e : Ecc)
  /-- HDM_WRITE: A host CXL.mem write is applied as a partial write, or not written on poison or error (R376). -/
  | hdmWrite (t : Nat) (off : Nat) (data : List Byte) (hold : Bool) (poison : Bool) (e : Ecc)
  /-- HDM_DECODER_COMMIT: The host commits the HDM decoder, failing for invalid ways or table (R372). -/
  | hdmDecoderCommit (t : Nat) (base : Nat) (ways : Nat) (lock : Bool)
  /-- BI_RESPONSE: A back-invalidate response returns and the waiting engine access proceeds (R374). -/
  | biResponse (t : Nat) (line : Nat) (data : BiData)
  /-- MAILBOX_H2D_WRITE: A 64 B host write to a mailbox slot is delivered into the bound core's SPM or dropped (R379). -/
  | mailboxH2dWrite (t : Nat) (tc : Nat) (n : Nat) (off : Nat) (data : List Byte)
  /-- MAILBOX_D2H_READ: A host read of a mailbox slot returns 64 B read from the bound core's SPM (R380). -/
  | mailboxD2hRead (t : Nat) (n : Nat)
  /-- GET_SUPPORTED_LOGS: Primary mailbox command returning the supported logs (R365). -/
  | getSupportedLogs (t : Nat)
  /-- GET_LOG: Primary mailbox command returning a log (R365). -/
  | getLog (t : Nat)
  /-- GET_EVENT_RECORDS: Primary mailbox command returning event records (R365). -/
  | getEventRecords (t : Nat)
  /-- CLEAR_EVENT_RECORDS: Primary mailbox command clearing event records (R365). -/
  | clearEventRecords (t : Nat)
  /-- MSIX_UNMASK: Enabling or unmasking MSI-X sends one message for each pending vector (R381). -/
  | msixUnmask (t : Nat) (enable : Bool) (funcMask : Bool) (vec : Nat) (addr : Nat) (data : Nat) (mask : Bool)
  /-- BAR_INEFFECTIVE_ACCESS: A wrongly sized or aligned BAR access completes without effect and counts in BARERR (R366). -/
  | barIneffectiveAccess (t : Nat) (bar : Nat) (off : Nat) (size : Nat) (wr : Bool)
  /-- REGISTER_WRITE: A write to a register or object with no behaviour of its own sets its fields (R11). -/
  | registerWrite (t : Nat) (space : Nat) (off : Nat) (size : Nat) (value : Nat)
  /-- ERQHEAD: The owner advances the error queue head, moving the reserved entry in (R394). -/
  | erqhead (t : Nat) (o : Option Origin) (v : Nat)
  /-- SCFREE: Frees a scorecard slot (R399). -/
  | scfree (t : Nat) (o : Option Origin) (k : Nat)
  /-- ERRGAP_EXPIRY: The record interrupt gap ends and a deferred ERRVEC signal is sent (R394). -/
  | errgapExpiry (t : Nat)
  /-- FATALREQ: Firmware requests the safe state (R401). -/
  | fatalreq (t : Nat) (o : Origin) (v : Nat)
  /-- HANDLER_WATCHDOG: The 10 ms handler watchdog expires, a device-fatal trigger (R401). -/
  | handlerWatchdog (t : Nat)
  /-- SAFE_STATE_ENTRY: The fatal line halts every die, final completions are issued and records freeze (R402). -/
  | safeStateEntry (t : Nat) (trig : Option FatalTrigger)
  /-- CROSS_CHECK_RUN: A cross-check run on two positions completes and its verdict is applied (R416). -/
  | crossCheckRun (t : Nat) (a : Nat) (b : Nat) (o : XcOutcome)
  /-- SEAL_REREAD: A block that failed its Seal is re-read in a REPAIR slot (R404). -/
  | sealReread (t : Nat) (dpa : Nat) (bad : Bool)
  /-- MARMAS_READ: Returns an object's value bytes from OFFSET after its checks (R522). -/
  | marmasRead (t : Nat) (o : Origin) (w0 : Nat) (w1 : Nat) (w2 : Nat) (data : List Byte)
  /-- MARMAS_WRITE: Judges a write, journals it if accepted and answers with EFFCYC (R425). -/
  | marmasWrite (t : Nat) (o : Origin) (w0 : Nat) (w1 : Nat) (w2 : Nat) (data : List Byte)
  /-- DESCRIBE: Returns an object's type, apply class, access, size and default (R438). -/
  | describe (t : Nat) (o : Origin) (w0 : Nat) (w1 : Nat) (w2 : Nat) (data : List Byte)
  /-- NEXT: Returns the address of the next existing object (R437). -/
  | next (t : Nat) (o : Origin) (w0 : Nat) (w1 : Nat) (w2 : Nat) (data : List Byte)
  /-- JREAD: Returns journal entries from a JSEQ and offset (R437). -/
  | jread (t : Nat) (o : Origin) (w0 : Nat) (w1 : Nat) (w2 : Nat) (data : List Byte)
  /-- COMMIT: Arms the staging set for a target edge (R430). -/
  | commit (t : Nat) (o : Origin) (c : Nat)
  /-- DISCARD: Empties the staging set at acceptance (R431). -/
  | discard (t : Nat) (o : Origin) (v : Nat)
  /-- MODRESET: Resets the module at the next edge, or 1 ms after acceptance in the safe state (R516). -/
  | modreset (t : Nat) (o : Origin) (v : Nat)
  /-- JCKREQ: Requests a signed CHECKPOINT entry with a nonce at the next edge (R447). -/
  | jckreq (t : Nat) (o : Origin) (nonce : List Byte)
  /-- JOURNAL_SIGNATURE: The signing engine stores the signature of a genesis or checkpoint entry (R447). -/
  | journalSignature (t : Nat)
  /-- SET_ENDPOINT_ID: MCTP control command assigning the binding's endpoint ID (R434). -/
  | setEndpointId (t : Nat) (o : Origin) (eid : Nat)
  /-- GET_ENDPOINT_ID: MCTP control command returning the endpoint ID (R434). -/
  | getEndpointId (t : Nat) (o : Origin)
  /-- GET_ENDPOINT_UUID: MCTP control command returning the endpoint UUID (R434). -/
  | getEndpointUuid (t : Nat) (o : Origin)
  /-- GET_MCTP_VERSION_SUPPORT: MCTP control command returning supported versions (R434). -/
  | getMctpVersionSupport (t : Nat) (o : Origin) (ty : Nat)
  /-- GET_MESSAGE_TYPE_SUPPORT: MCTP control command returning supported message types (R434). -/
  | getMessageTypeSupport (t : Nat) (o : Origin)
  /-- GET_VENDOR_DEFINED_MESSAGE_SUPPORT: MCTP control command returning vendor-defined message support (R434). -/
  | getVendorDefinedMessageSupport (t : Nat) (o : Origin) (sel : Nat)
  /-- GET_VERSION: SPDM request returning supported versions (R464). -/
  | getVersion (t : Nat) (o : Origin)
  /-- GET_CAPABILITIES: SPDM request returning capabilities (R464). -/
  | getCapabilities (t : Nat) (o : Origin)
  /-- NEGOTIATE_ALGORITHMS: SPDM request negotiating algorithms (R464). -/
  | negotiateAlgorithms (t : Nat) (o : Origin) (req : Bool)
  /-- GET_DIGESTS: SPDM request returning certificate chain digests (R464). -/
  | getDigests (t : Nat) (o : Origin)
  /-- GET_CERTIFICATE: SPDM request returning the certificate chain (R464). -/
  | getCertificate (t : Nat) (o : Origin) (slot : Nat) (off : Nat) (len : Nat)
  /-- CHALLENGE: SPDM request answered with a RAK-signed CHALLENGE_AUTH (R464). -/
  | challenge (t : Nat) (o : Origin) (slot : Nat)
  /-- GET_MEASUREMENTS: SPDM request returning signed measurement blocks (R465). -/
  | getMeasurements (t : Nat) (o : Origin) (index : Nat) (sig : Bool)
  /-- KEY_EXCHANGE: SPDM request starting a session with a signed response (R464). -/
  | keyExchange (t : Nat) (o : Origin)
  /-- FINISH: SPDM request completing a session handshake (R464). -/
  | finish (t : Nat) (o : Origin) (ok : Bool) (both : Bool) (owner : List Byte)
  /-- HEARTBEAT: SPDM request keeping a session alive (R464). -/
  | heartbeat (t : Nat) (o : Origin)
  /-- KEY_UPDATE: SPDM request updating session keys (R464). -/
  | keyUpdate (t : Nat) (o : Origin)
  /-- END_SESSION: SPDM request ending a session (R464). -/
  | endSession (t : Nat) (o : Origin)
  /-- CHUNK_SEND: SPDM request carrying a chunk of a large message (R464). -/
  | chunkSend (t : Nat) (o : Origin) (seq : Nat) (size : Nat) (last : Bool)
  /-- CHUNK_GET: SPDM request fetching a chunk of a large response (R464). -/
  | chunkGet (t : Nat) (o : Origin) (seq : Nat)
  /-- RESPOND_IF_READY: SPDM request collecting a response deferred with ResponseNotReady (R464). -/
  | respondIfReady (t : Nat) (o : Origin) (code : Nat)
  /-- SPDM_SIGNATURE_DONE: The engine completes a RAK signature for a waiting SPDM response (R464). -/
  | spdmSignatureDone (t : Nat)
  /-- HEARTBEAT_LOSS: A session's heartbeat period lapses and the session ends (R463). -/
  | heartbeatLoss (t : Nat) (id : Nat)
  /-- RAK_CERTIFICATE_READY: The DIK finishes signing the runtime certificate and requests needing it are served (R457). -/
  | rakCertificateReady (t : Nat)
  /-- TRNG_HEALTH_FAILURE: A TRNG health test fails, reseeding stops and a SECURITY record is posted (R451). -/
  | trngHealthFailure (t : Nat)
  /-- FWACTION_STAGE: Writes a firmware package into the inactive bank and verifies it (R467). -/
  | fwactionStage (t : Nat) (o : Origin)
  /-- FW_STAGING_DONE: Readback verification ends and FWSTATE becomes STAGED or REFUSED (R467). -/
  | fwStagingDone (t : Nat) (o : StageOutcome)
  /-- FWACTION_ACTIVATE: Marks the staged bank TRIAL (R467). -/
  | fwactionActivate (t : Nat) (o : Origin)
  /-- FWACTION_ACCEPT: Accepts the trial bank and raises the SVN fuses (R467). -/
  | fwactionAccept (t : Nat) (o : Origin)
  /-- FWACTION_ABORT: Invalidates the inactive bank (R467). -/
  | fwactionAbort (t : Nat) (o : Origin)
  /-- TOKENSUBMIT: Judges TOKENBUF as a debug or lifecycle token (R484). -/
  | tokensubmit (t : Nat) (o : Origin) (v : Nat)
  /-- SCANREQ: Clears secrets and skims a benched or lost core, then opens its scan chain (R483). -/
  | scanreq (t : Nat) (o : Origin) (c : Nat)
  /-- BENCH: Requests benching of a position, which becomes BENCHING with a substitute chosen (R475). -/
  | bench (t : Nat) (o : Origin) (c : Nat)
  /-- BENCH_CANCEL: Cancels a bench request before its copy starts (R475). -/
  | benchCancel (t : Nat) (o : Origin) (c : Nat)
  /-- RETURN: Returns a repaired reversible core to its own position by benching its substitute (R479). -/
  | returnCore (t : Nat) (o : Origin) (c : Nat)
  /-- BENCH_COPY_DONE: The bench copy ends and every block's CRC is verified, or the bench is abandoned (R475). -/
  | benchCopyDone (t : Nat) (ok : Bool)
  /-- HARD_LOSS: A core fails to answer within 1 ms or its port fails, and its substitute stands for it without a copy (R476). -/
  | hardLoss (t : Nat) (c : Nat)
  /-- BISTRUN: Starts a full BIST of a spare, benched or lost core (R477). -/
  | bistrun (t : Nat) (o : Origin) (c : Nat)
  /-- BIST_DONE: A full core BIST ends and the core becomes SPARE or RETIRED (R478). -/
  | bistDone (t : Nat) (c : Nat) (lb : Bool) (mb : Bool) (rows : List (Nat × Nat × Nat)) (again : Bool)
  /-- UNIT_TEST: An in-service SRAM unit is saved, march-tested and restored in an RSV slot (R480). -/
  | unitTest (t : Nat) (c : Nat) (u : Nat) (fail : Bool)
  /-- FUSEREPAIR: Blows every pending repair entry into the repair fuse area (R482). -/
  | fuserepair (t : Nat) (o : Origin) (v : Nat)
  /-- AVS_STEP: Every 100 µs the MGC adjusts each compute-die rail from its timing margin (R489). -/
  | avsStep (t : Nat) (l : List (Nat × Nat × Nat)) (fails : List Nat)
  /-- THERMAL_SAMPLE: Every 100 µs the sensors are sampled, judged faulty, warned or shut down (R495). -/
  | thermalSample (t : Nat) (vals : List Int)
  /-- THERMTRIP: An analog comparator at 108 °C drives THERMTRIP_N low (R496). -/
  | thermtrip (t : Nat) (die : Nat)
  /-- PWRBRAKE_CHANGE: PWRBRAKE_N changes, capping ECAPTHW at BRAKEW from the next edge (R493). -/
  | pwrbrakeChange (t : Nat) (low : Bool)
  /-- RAIL_OUT_OF_TOLERANCE: A rail leaves its tolerance, posting a record or entering the safe state (R487). -/
  | railOutOfTolerance (t : Nat) (r : Nat) (mv : Nat) (ns : Nat)
  /-- PLL_LOCK_LOSS: A PLL loses lock, entering the safe state or taking ports down (R497). -/
  | pllLockLoss (t : Nat) (pll : Nat) (die : Nat)
  /-- MOD_RESET_ASSERT: MOD_RESET_N goes low and every unit is held in reset (R516). -/
  | modResetAssert (t : Nat)
  /-- MOD_RESET_RELEASE: MOD_RESET_N rises and start-up runs: straps, PLLs, boot ROM, MBIST and firmware (R517). -/
  | modResetRelease (t : Nat) (straps : List Nat) (b : Board) (f : BootFinds)
  /-- STRAP_RESAMPLE: Every 1 ms while straps disagree, the ROM samples them again (R517). -/
  | strapResample (t : Nat) (strap : Nat) (f : BootFinds)
  /-- PLL_LOCK_TIMEOUT: A PLL has not locked by 1 ms and start-up stops with ALERT_N low (R517). -/
  | pllLockTimeout (t : Nat)
  /-- HBM_TRAINING_DONE: HBM training ends, failed channels are mapped out and units are initialized (R517). -/
  | hbmTrainingDone (t : Nat) (failed : List (Nat × Nat))
  /-- STARTUP_COMPLETE: Core BIST ends and positions are assigned from its results (R519). -/
  | startupComplete (t : Nat) (finds : List BistFind)
  /-- ENCAPSULATED_REQUEST: The SPDM requester sends one of the encapsulated requests that mutual authentication uses, and the responder answers it within the session handshake (R464). -/
  | encapsulatedRequest (t : Nat) (o : Origin) (code : Nat)
  /-- DATA_OBJECT_EXCHANGE: The host makes a data object exchange request for the Discovery or CDAT protocol, and the function returns the requested object (R361). -/
  | dataObjectExchange (t : Nat) (proto : Nat)
  /-- DYNAMIC_ADDRESS_ASSIGNMENT: The I3C bus controller assigns the module its dynamic address, by SETDASA to the static address or by dynamic address assignment, and I3CDYN takes that address (R434). -/
  | dynamicAddressAssignment (t : Nat) (addr : Nat) (dasa : Bool)
  /-- FUSE_BLOW_DONE: The blowing of pending repair or SVN fuse entries ends 640 µs per entry after it began: entries come into force, the BUSY state ends, and a fuse write error or shortfall posts a record (R482). -/
  | fuseBlowDone (t : Nat) (errs : List Nat)
  /-- TEST_ACCESS_PORT: An IEEE 1149.1 operation on the JTAG pins drives boundary scan, or in test mode the internal scan chains (R512). -/
  | testAccessPort (t : Nat) (inner : Bool)
  deriving DecidableEq, Repr

end Sys2Proof
end

