-- ==== Sys2Proof/Decode.lean ====
section
/-!
DEFINITION. The commands that the table spells in bits. spec/opcode_table.json gives no row any bits: the block takes commands, not words.
-/
namespace Sys2Proof

/-- The command a word spells: none, for no row of the table has a field. -/
def decodeTableWord (_nbits _w : Nat) : Option Instr := none

end Sys2Proof
end

