-- ==== Sys2Proof/Machine/Sparse.lean ====
section
/-!
DEFINITION. Sparse data by key: a list of (key, value) pairs in one canonical form, keys strictly rising and no
entry equal to the default, so that equal contents are equal data. Memory is such a list of (address, byte) pairs.
Also the byte-list helpers that decide the byte order once (00_scope.md R9).
-/
namespace Sys2Proof.Machine

/-- A sparse table: what an unlisted key reads as is given to each operation. -/
abbrev Table (α : Type) := List (Nat × α)

/-- The value at key `i`, `d` where nothing is listed. -/
def Table.get {α : Type} (d : α) : Table α → Nat → α
  | [], _ => d
  | (k, v) :: m, i => if i = k then v else Table.get d m i

/-- List `v` at key `i`. -/
def Table.put {α : Type} : Table α → Nat → α → Table α
  | [], i, v => [(i, v)]
  | (k, w) :: m, i, v =>
    if i < k then (i, v) :: (k, w) :: m
    else if i = k then (i, v) :: m
    else (k, w) :: Table.put m i v

/-- Put `v` at key `i`; a value equal to the default is not listed. -/
def Table.set {α : Type} [DecidableEq α] (d : α) (m : Table α) (i : Nat) (v : α) : Table α :=
  if v = d then m.filter (fun e => e.1 != i) else Table.put m i v

/-- Every listed key is above `lo` and the keys rise; no entry equals the default. -/
def Table.wfFrom {α : Type} [DecidableEq α] (d : α) : Option Nat → Table α → Bool
  | _, [] => true
  | lo, (k, v) :: m =>
    (match lo with | none => true | some l => decide (l < k)) && decide (v ≠ d) && Table.wfFrom d (some k) m

/-- The canonical form. -/
def Table.wf {α : Type} [DecidableEq α] (d : α) (m : Table α) : Bool := Table.wfFrom d none m

/-- Change the value at one key. -/
def Table.modify {α : Type} [DecidableEq α] (d : α) (m : Table α) (i : Nat) (f : α → α) : Table α :=
  Table.set d m i (f (Table.get d m i))

/-- Drop every listed key in `[lo, lo + n)`: those keys read as the default again. -/
def Table.clearRange {α : Type} (m : Table α) (lo n : Nat) : Table α :=
  m.filter (fun e => decide (e.1 < lo) || decide (lo + n ≤ e.1))

/-- The listed entries in `[lo, lo + n)`. -/
def Table.slice {α : Type} (m : Table α) (lo n : Nat) : Table α :=
  m.filter (fun e => decide (lo ≤ e.1) && decide (e.1 < lo + n))

/-- Memory: bytes by address; an unlisted address reads as zero. -/
abbrev Memory := Table Byte

/-- One byte. -/
def Memory.read (m : Memory) (a : Nat) : Byte := Table.get 0 m a

/-- Store one byte. -/
def Memory.write (m : Memory) (a : Nat) (v : Byte) : Memory := Table.set 0 m a v

/-- The canonical form of a memory. -/
def Memory.wf (m : Memory) : Bool := Table.wf 0 m

/-- `n` bytes from `a` up. -/
def Memory.readBytes (m : Memory) (a : Nat) : Nat → List Byte
  | 0 => []
  | n + 1 => m.read a :: Memory.readBytes m (a + 1) n

/-- Store a run of bytes from `a` up. -/
def Memory.writeBytes (m : Memory) (a : Nat) : List Byte → Memory
  | [] => m
  | b :: bs => Memory.writeBytes (m.write a b) (a + 1) bs

/-- A byte list as a number, least significant byte first (R9). -/
def leNat : List Byte → Nat
  | [] => 0
  | b :: bs => b.toNat + 256 * leNat bs

/-- The low `n` bytes of a number, least significant byte first (R9). -/
def leBytes : Nat → Nat → List Byte
  | 0, _ => []
  | n + 1, v => BitVec.ofNat 8 v :: leBytes n (v / 256)

/-- `n` bytes from `a` as a number (R9). -/
def Memory.readNat (m : Memory) (a n : Nat) : Nat := leNat (m.readBytes a n)

/-- Store the low `n` bytes of `v` at `a` (R9). -/
def Memory.writeNat (m : Memory) (a n v : Nat) : Memory := m.writeBytes a (leBytes n v)

/-- Bits [hi:lo] of a number (R9). -/
def bits (v hi lo : Nat) : Nat := (v / 2 ^ lo) % 2 ^ (hi + 1 - lo)

/-- Bit `i` of a number. -/
def bitAt (v i : Nat) : Bool := (v / 2 ^ i) % 2 == 1

/-- A number with bits [hi:lo] replaced by the low bits of `x`. -/
def setBits (v hi lo x : Nat) : Nat :=
  v - bits v hi lo * 2 ^ lo + (x % 2 ^ (hi + 1 - lo)) * 2 ^ lo

/-- Nat of a truth value. -/
def b2n (b : Bool) : Nat := if b then 1 else 0

/-- Ceiling division. -/
def cdiv (a b : Nat) : Nat := (a + b - 1) / b

/-- The serial-number comparison over `n` bits (00_scope.md R18): `a` precedes `b`. -/
def serialLt (a b n : Nat) : Bool :=
  let d := (b + 2 ^ n - a % 2 ^ n) % 2 ^ n
  d ≠ 0 && decide (d < 2 ^ (n - 1))

/-- Stops at the largest value of `n` bits instead of wrapping. -/
def satInc (v n : Nat) : Nat := if v + 1 < 2 ^ n then v + 1 else 2 ^ n - 1

/-- Replace the `i`-th element; a list too short is unchanged. -/
def listSet {α : Type} : List α → Nat → α → List α
  | [], _, _ => []
  | _ :: l, 0, v => v :: l
  | x :: l, n + 1, v => x :: listSet l n v

/-- Put a row of zero bytes after a list up to `n` bytes. -/
def padTo (n : Nat) (l : List Byte) : List Byte := l ++ List.replicate (n - l.length) 0

end Sys2Proof.Machine
end

