-- ==== Sys2Proof/Machine/CoreDecode.lean ====
section
/-!
DEFINITION. The decoder of a core's 128-bit instructions (05_core_programs.md R136, and the encodings of 03, 04, 05). A
word whose class, opcode, DM opcode or VX function is undefined gives none: an illegal encoding at dispatch (R137).
-/
namespace Sys2Proof.Machine

/-- A field of an instruction word, bits [hi:lo]. -/
def fld (n w hi lo : Nat) : BitVec n := BitVec.ofNat n (bits w hi lo)

/-- The VX function of an opcode, FN and IT (R124, R125, R126). -/
def vxFnOf (op fn : Nat) (it : Bool) : Option VxFn :=
  match op, fn with
  | 0, 0x00 => some .add | 0, 0x01 => some .sub | 0, 0x02 => some .mul | 0, 0x03 => some .min | 0, 0x04 => some .max
  | 0, 0x05 => some .abs | 0, 0x06 => some .neg
  | 0, 0x07 => if it then none else some .div
  | 0, 0x08 => if it then none else some .sqrt
  | 0, 0x09 => if it then none else some .rcp
  | 0, 0x0A => some .mov
  | 0, 0x0B => if it then none else some .relu
  | 0, 0x0C => if it then none else some .scale2
  | 0, 0x10 => if it then some .and else none
  | 0, 0x11 => if it then some .or else none
  | 0, 0x12 => if it then some .xor else none
  | 0, 0x13 => if it then some .shl else none
  | 0, 0x14 => if it then some .shra else none
  | 0, 0x15 => if it then some .shrl else none
  | 1, 0x00 => if it then none else some .fma
  | 1, 0x01 => if it then none else some .fnma
  | 2, 0x00 => if it then none else some .exp2
  | 2, 0x01 => if it then none else some .exp
  | 2, 0x02 => if it then none else some .log2
  | 2, 0x03 => if it then none else some .ln
  | 2, 0x04 => if it then none else some .rsqrt
  | 2, 0x05 => if it then none else some .tanh
  | 2, 0x06 => if it then none else some .sigmoid
  | 2, 0x07 => if it then none else some .erf
  | 2, 0x08 => if it then none else some .silu
  | 2, 0x09 => if it then none else some .gelu
  | 3, 0x00 => some .rsum | 3, 0x01 => some .rmax | 3, 0x02 => some .rmin
  | 3, 0x03 => some .csum | 3, 0x04 => some .cmax | 3, 0x05 => some .cmin
  | 4, 0x00 => some .eq | 4, 0x01 => some .ne | 4, 0x02 => some .lt | 4, 0x03 => some .le | 4, 0x04 => some .gt
  | 4, 0x05 => some .ge
  | 4, 0x06 => if it then none else some .unord
  | 4, 0x08 => some .mand | 4, 0x09 => some .mor | 4, 0x0A => some .mxor | 4, 0x0B => some .mandn | 4, 0x0C => some .mgen
  | 5, 0x00 => some .sel
  | 6, 0x00 => if it then none else some .f2i
  | 6, 0x01 => if it then some .i2f else none
  | 6, 0x02 => some .itag
  | _, _ => none

/-- The common layout (R125). -/
def decodeVxOps (w : Nat) : VxOps :=
  { it := bitAt w 113, vd := fld 5 w 112 108, va := fld 5 w 107 103, vb := fld 5 w 102 98, vc := fld 5 w 97 93,
    bm := fld 2 w 92 91, bidx := fld 6 w 90 85, msk := fld 3 w 84 82, mz := bitAt w 81, imm := fld 32 w 79 48,
    rsv := bits w 80 80 * 2 ^ 48 + bits w 47 0 }

/-- MX.LDW. -/
def decodeLdw (w : Nat) : MxLdw :=
  { fmt := fld 4 w 119 116, wb := bitAt w 115, scl := fld 2 w 114 113, gsz := fld 2 w 112 111, tsc := fld 8 w 110 103,
    kvm1 := fld 8 w 102 95, nvm1 := fld 7 w 94 88, waddr := fld 18 w 87 70, wstr := fld 12 w 69 58,
    wsaddr := fld 25 w 57 33, sstr := fld 12 w 32 21, rsv := bits w 20 0 }

/-- MX.MUL. -/
def decodeMul (w : Nat) : MxMul :=
  { fmta := fld 4 w 119 116, wb := bitAt w 115, acc := fld 4 w 114 111, accum := bitAt w 110, last := bitAt w 109,
    tr := bitAt w 108, conv := bitAt w 107, cw := bitAt w 106, halo := bitAt w 105, anchor := fld 10 w 104 95,
    astep := fld 6 w 94 89, rmax := fld 4 w 88 85, mm1 := fld 7 w 84 78, scla := fld 2 w 77 76, gsza := fld 2 w 75 74,
    tsca := fld 8 w 73 66, aaddr := fld 18 w 65 48, astr := fld 12 w 47 36, asaddr := fld 25 w 35 11,
    noff := bitAt w 10, asstr := fld 10 w 9 0 }

/-- MX.WO. -/
def decodeWo (w : Nat) : MxWo :=
  { fmto := fld 4 w 119 116, acc := fld 4 w 115 112, osh := fld 7 w 111 105, ostep := fld 4 w 104 101,
    vrows := fld 8 w 100 93, nvm1 := fld 7 w 92 86, oaddr := fld 18 w 85 68, ostr := fld 12 w 67 56,
    tsaddr := fld 25 w 55 31, rsv := bits w 30 0 }

/-- MV.MUL. -/
def decodeMv (w : Nat) : MvMul :=
  { fmta := fld 4 w 119 116, fmtw := fld 4 w 115 112, acc := fld 4 w 111 108, vm1 := fld 3 w 107 105,
    accum := bitAt w 104, last := bitAt w 103, anchor := fld 10 w 102 93, astep := fld 6 w 92 87, rmax := fld 4 w 86 83,
    kvm1 := fld 7 w 82 76, nvm1 := fld 7 w 75 69, scla := fld 2 w 68 67, gsza := fld 2 w 66 65, sclw := fld 2 w 64 63,
    gszw := fld 2 w 62 61, tsca := fld 8 w 60 53, tscw := fld 8 w 52 45, aaddr := fld 18 w 44 27,
    waddr := fld 18 w 26 9, row0 := fld 4 w 8 5, rsv := bits w 4 0 }

/-- VX.RDA. -/
def decodeRda (w : Nat) : VxRda :=
  { fmto := fld 4 w 119 116, acc := fld 4 w 115 112, rb := fld 3 w 111 109, ch := bitAt w 108, vd := fld 5 w 107 103,
    osh := fld 7 w 102 96, ostep := fld 4 w 95 92, msk := fld 3 w 91 89, mz := bitAt w 88, rsv := bits w 87 0 }

/-- VX.QNT. -/
def decodeQnt (w : Nat) : VxQnt :=
  { fmtq := fld 4 w 119 116, scl := fld 2 w 115 114, gsz := fld 2 w 113 112, va := fld 5 w 111 107,
    tsc := fld 8 w 106 99, floor := fld 8 w 98 91, daddr := fld 18 w 90 73, dstr := fld 12 w 72 61,
    saddr := fld 25 w 60 36, sstr := fld 12 w 35 24, msk := fld 3 w 23 21, rsv := bits w 20 0 }

/-- VX.DQT. -/
def decodeDqt (w : Nat) : VxDqt :=
  { fmtq := fld 4 w 119 116, scl := fld 2 w 115 114, gsz := fld 2 w 113 112, vd := fld 5 w 111 107,
    tsc := fld 8 w 106 99, goff := bitAt w 98, aaddr := fld 18 w 97 80, astr := fld 12 w 79 68,
    saddr := fld 25 w 67 43, sstr := fld 12 w 42 31, msk := fld 3 w 30 28, mz := bitAt w 27, rsv := bits w 26 0 }

/-- VX.LD and VX.ST. -/
def decodeLs (w : Nat) : VxLs :=
  { fmt := fld 4 w 119 116, vr := fld 5 w 115 111, addr := fld 18 w 110 93, str := fld 12 w 92 81,
    msk := fld 3 w 80 78, mz := bitAt w 77, rsv := bits w 76 0 }

/-- DM.LITE. -/
def decodeLite (w : Nat) : DmLite :=
  { laddr := fld 25 w 118 94, raddr := fld 52 w 93 42, lenm1 := fld 8 w 41 34, cnt := fld 6 w 33 28, cen := bitAt w 27,
    sclass := fld 3 w 26 24, scnt := fld 6 w 23 18, scen := bitAt w 17, rsv := bits w 16 0 }

/-- DM.SKIM and DM.COPY. -/
def decodeLocal (w : Nat) : DmLocal :=
  { daddr := fld 18 w 119 102, lenm1 := fld 18 w 101 84, saddr := fld 18 w 83 66, pat := fld 32 w 65 34, rsv := bits w 33 0 }

/-- SY.GATE. -/
def decodeGate (w : Nat) : SyGate :=
  { qmask := fld 6 w 119 114, time := fld 32 w 113 82, bound := fld 32 w 81 50, rsv := bits w 49 0 }

/-- SY.WAITC. -/
def decodeWaitc (w : Nat) : SyWaitc :=
  { cnt := fld 6 w 119 114, target := fld 32 w 113 82, bound := fld 32 w 81 50, rsv := bits w 49 0 }

/-- Decode an instruction word (R136). -/
def decodeCore (w : Nat) : Option CoreInstr :=
  let op := bits w 123 120
  match bits w 127 124 with
  | 1 => match op with
    | 0 => some (.mxLdw (decodeLdw w))
    | 1 => some (.mxMul (decodeMul w))
    | 2 => some (.mxWo (decodeWo w))
    | _ => none
  | 2 => if op = 0 then some (.mvMul (decodeMv w)) else none
  | 3 =>
    if op ≤ 6 then (vxFnOf op (bits w 119 114) (bitAt w 113)).map (fun fn => .vx fn (decodeVxOps w))
    else match op with
      | 7 => some (.vxRda (decodeRda w))
      | 8 => some (.vxQnt (decodeQnt w))
      | 9 => some (.vxDqt (decodeDqt w))
      | 10 => some (.vxLd (decodeLs w))
      | 11 => some (.vxSt (decodeLs w))
      | _ => none
  | 4 => match op with
    | 0 => some (.dmXfer { desc := fld 25 w 119 95, rsv := bits w 94 0 })
    | 1 => if bitAt w 119 then some (.dmLiteGet (decodeLite w)) else some (.dmLitePut (decodeLite w))
    | 2 => some (.dmRally { acc := fld 4 w 119 116, entry := fld 12 w 115 104, rsv := bits w 103 0 })
    | 8 => some (.dmSkim (decodeLocal w))
    | 9 => some (.dmCopy (decodeLocal w))
    | _ => none
  | 5 => match op with
    | 0 => some (.syGate (decodeGate w))
    | 1 => some (.syWaitc (decodeWaitc w))
    | _ => none
  | 6 => match op with
    | 0 => some (.ctEnd { rsv := bits w 119 0 })
    | 1 => some (.ctNop { rsv := bits w 119 0 })
    | 2 => some (.ctWrc { offset := fld 12 w 119 108, value := fld 64 w 107 44, rsv := bits w 43 0 })
    | 3 => some (.ctRtag { gran := fld 7 w 119 113, tag := fld 2 w 112 111, rsv := bits w 110 0 })
    | 4 => some (.ctSts { acc := fld 4 w 119 116, addr := fld 25 w 115 91, rsv := bits w 90 0 })
    | 5 => some (.ctHgdump { rsv := bits w 119 0 })
    | 6 => some (.ctCinv { units := fld 6 w 119 114, rsv := bits w 113 0 })
    | _ => none
  | _ => none

/-- The queue an instruction goes to (R136); SY instructions go to none. -/
def coreQueue : CoreInstr → Option QueueId
  | .mxLdw _ | .mxMul _ | .mxWo _ => some .mx
  | .mvMul _ => some .mv
  | .vx _ _ | .vxRda _ | .vxQnt _ | .vxDqt _ | .vxLd _ | .vxSt _ => some .vx
  | .dmXfer _ | .dmLitePut _ | .dmLiteGet _ | .dmRally _ => some .dt
  | .dmSkim _ | .dmCopy _ => some .dl
  | .syGate _ | .syWaitc _ => none
  | .ctEnd _ | .ctNop _ | .ctWrc _ | .ctRtag _ | .ctSts _ | .ctHgdump _ | .ctCinv _ => some .ct

end Sys2Proof.Machine
end

