-- ==== Sys2Proof/Machine/Hash.lean ====
section
/-!
DEFINITION. The two digests the spec uses: CRC-32C, with its parameters and the Seal update of R407 (14_errors_integrity.md R406,
R407), and SHA-256 (FIPS 180-4; PRESUMED, log entry 15).
-/
namespace Sys2Proof.Machine

/-- One bit of the reflected CRC-32C (R406): the polynomial 0x1EDC_6F41 processed bit-reflected is 0x82F6_3B78. -/
def crcBit (c : W32) : W32 := if c.getLsbD 0 then (c >>> 1) ^^^ 0x82F63B78#32 else c >>> 1
/-- One byte of the CRC. -/
def crcByte (c : W32) (b : Byte) : W32 :=
  let x := c ^^^ b.setWidth 32
  crcBit (crcBit (crcBit (crcBit (crcBit (crcBit (crcBit (crcBit x)))))))
/-- The CRC-32C of a byte list (R406). -/
def crc32c (l : List Byte) : W32 := (l.foldl crcByte 0xFFFFFFFF#32) ^^^ 0xFFFFFFFF#32
/-- The CRC-32C of 4,096 zero bytes. -/
def crcZeroBlock : W32 := crc32c (List.replicate 4096 0)
/-- The Seal of a block after a partial update (R407). -/
def sealUpdate (old : W32) (delta : List Byte) : W32 := old ^^^ crc32c delta ^^^ crcZeroBlock

/-- SHA-256's initial hash value. -/
def shaInit : List W32 := ([0x6a09e667, 0xbb67ae85, 0x3c6ef372, 0xa54ff53a, 0x510e527f, 0x9b05688c, 0x1f83d9ab, 0x5be0cd19]).map (BitVec.ofNat 32)
/-- SHA-256's round constants. -/
def shaK : List W32 :=
  ([0x428a2f98, 0x71374491, 0xb5c0fbcf, 0xe9b5dba5, 0x3956c25b, 0x59f111f1, 0x923f82a4, 0xab1c5ed5] ++
   [0xd807aa98, 0x12835b01, 0x243185be, 0x550c7dc3, 0x72be5d74, 0x80deb1fe, 0x9bdc06a7, 0xc19bf174] ++
   [0xe49b69c1, 0xefbe4786, 0x0fc19dc6, 0x240ca1cc, 0x2de92c6f, 0x4a7484aa, 0x5cb0a9dc, 0x76f988da] ++
   [0x983e5152, 0xa831c66d, 0xb00327c8, 0xbf597fc7, 0xc6e00bf3, 0xd5a79147, 0x06ca6351, 0x14292967] ++
   [0x27b70a85, 0x2e1b2138, 0x4d2c6dfc, 0x53380d13, 0x650a7354, 0x766a0abb, 0x81c2c92e, 0x92722c85] ++
   [0xa2bfe8a1, 0xa81a664b, 0xc24b8b70, 0xc76c51a3, 0xd192e819, 0xd6990624, 0xf40e3585, 0x106aa070] ++
   [0x19a4c116, 0x1e376c08, 0x2748774c, 0x34b0bcb5, 0x391c0cb3, 0x4ed8aa4a, 0x5b9cca4f, 0x682e6ff3] ++
   [0x748f82ee, 0x78a5636f, 0x84c87814, 0x8cc70208, 0x90befffa, 0xa4506ceb, 0xbef9a3f7, 0xc67178f2]).map (BitVec.ofNat 32)

/-- Big-endian words of a byte list. -/
def beWords : List Byte → List W32
  | a :: b :: c :: d :: l =>
    BitVec.ofNat 32 (a.toNat * 2 ^ 24 + b.toNat * 2 ^ 16 + c.toNat * 2 ^ 8 + d.toNat) :: beWords l
  | _ => []
/-- The bytes of a word, most significant first. -/
def beBytes (w : W32) : List Byte := (leBytes 4 w.toNat).reverse

/-- The padded message. -/
def shaPad (l : List Byte) : List Byte :=
  let n := l.length
  l ++ [0x80] ++ List.replicate ((119 - n % 64) % 64) 0 ++ (leBytes 8 (8 * n)).reverse

/-- The message schedule, newest word first. -/
def shaSchedule : Nat → List W32 → List W32
  | 0, w => w
  | k + 1, w =>
    let x15 := w.getD 14 0
    let x2 := w.getD 1 0
    let s0 := x15.rotateRight 7 ^^^ x15.rotateRight 18 ^^^ (x15 >>> 3)
    let s1 := x2.rotateRight 17 ^^^ x2.rotateRight 19 ^^^ (x2 >>> 10)
    shaSchedule k ((w.getD 15 0 + s0 + w.getD 6 0 + s1) :: w)

/-- The rounds over the eight working variables. -/
def shaRounds : List (W32 × W32) → List W32 → List W32
  | (k, w) :: l, [a, b, c, d, e, f, g, h] =>
    let s1 := e.rotateRight 6 ^^^ e.rotateRight 11 ^^^ e.rotateRight 25
    let ch := (e &&& f) ^^^ (~~~e &&& g)
    let t1 := h + s1 + ch + k + w
    let s0 := a.rotateRight 2 ^^^ a.rotateRight 13 ^^^ a.rotateRight 22
    let mj := (a &&& b) ^^^ (a &&& c) ^^^ (b &&& c)
    shaRounds l [t1 + (s0 + mj), a, b, c, d + t1, e, f, g]
  | _, v => v

/-- One block. -/
def shaBlock (h : List W32) (block : List Byte) : List W32 :=
  let w := (shaSchedule 48 (beWords block).reverse).reverse
  let v := shaRounds (shaK.zip w) h
  (h.zip v).map (fun x => x.1 + x.2)

/-- Blocks of 64 bytes. -/
def shaBlocks : Nat → List Byte → List W32 → List W32
  | 0, _, h => h
  | n + 1, l, h => shaBlocks n (l.drop 64) (shaBlock h (l.take 64))

/-- SHA-256 of a byte list. -/
def sha256 (l : List Byte) : List Byte :=
  let p := shaPad l
  (shaBlocks (p.length / 64) p shaInit).flatMap beBytes

end Sys2Proof.Machine
end

