-- ==== Sys2Proof/Machine/Dict.lean ====
section
/-!
DEFINITION. The dictionary's object table: index, subindices, type, access, default and apply class of every object
(00_scope.md R14, R15, and the "Dictionary objects" table of each chapter). A key is index × 256 + subindex.
-/
namespace Sys2Proof.Machine

/-- Types of objects (R14); BLOB and STR carry their length in bytes. -/
inductive OTy
  | u8 | u16 | u32 | u64 | i8 | i16 | i32 | i64 | bool | time64 | str (n : Nat) | blob (n : Nat)
  deriving DecidableEq, Repr

/-- Size in bytes of a type. -/
def OTy.size : OTy → Nat
  | .u8 | .i8 | .bool => 1
  | .u16 | .i16 => 2
  | .u32 | .i32 => 4
  | .u64 | .i64 | .time64 => 8
  | .str n | .blob n => n

/-- Access of one origin (R14). -/
inductive OAcc
  | rw | ro | no
  deriving DecidableEq, Repr

/-- Apply classes (R15). -/
inductive OApp
  | live | staged | quiesced | const
  deriving DecidableEq, Repr

/-- An object, or a run of objects of one kind with keys from `lo` to `hi`; `rep` further runs of the same kind follow, one at each
next index. -/
structure ObjDef where
  lo : Nat
  hi : Nat
  name : String
  ty : OTy
  h : OAcc
  m : OAcc
  f : OAcc
  dflt : Nat
  app : OApp
  rep : Nat := 0
  deriving DecidableEq, Repr

/-- The key of index.subindex (R7). -/
def okey (idx sub : Nat) : Nat := idx * 256 + sub

/-- One object at index.sub. -/
def obj (idx sub : Nat) (name : String) (ty : OTy) (h m f : OAcc) (dflt : Nat) (app : OApp) : ObjDef :=
  ⟨okey idx sub, okey idx sub, name, ty, h, m, f, dflt, app, 0⟩

/-- A run of objects from index.sub to index.sub. -/
def objs (idx sub idx2 sub2 : Nat) (name : String) (ty : OTy) (h m f : OAcc) (dflt : Nat) (app : OApp) : ObjDef :=
  ⟨okey idx sub, okey idx2 sub2, name, ty, h, m, f, dflt, app, 0⟩

/-- The same objects at `n` consecutive indices. -/
def objRep (n : Nat) (l : List ObjDef) : List ObjDef := l.map (fun o => { o with rep := n - 1 })

/-- Whether an object's definition covers a key. -/
def ObjDef.has (o : ObjDef) (k : Nat) : Bool :=
  decide (o.lo ≤ k) &&
    (if o.rep = 0 then decide (k ≤ o.hi) else decide ((k - o.lo) / 256 ≤ o.rep) && decide ((k - o.lo) % 256 ≤ o.hi - o.lo))

/-- Chapter 10 (R294). -/
def dictFixture : List ObjDef := [
  obj 0x4000 1 "CYCNS" .u32 .rw .rw .rw 1000000 .staged,
  obj 0x4000 2 "CADWIN" .u32 .rw .rw .rw 1000 .staged,
  obj 0x4000 3 "NSLOTS" .u16 .rw .rw .rw 250 .staged,
  obj 0x4000 4 "SLOTNS" .u32 .rw .rw .rw 3996 .staged,
  obj 0x4000 5 "APPLYSLOTS" .u8 .rw .rw .rw 3 .staged,
  obj 0x4000 6 "EMBREMOTE" .u8 .rw .rw .rw 96 .staged,
  obj 0x4000 7 "RSVEMB" .u32 .rw .rw .rw 0 .staged,
  obj 0x4001 1 "CYCNS" .u32 .ro .ro .ro 1000000 .const,
  obj 0x4001 2 "CADWIN" .u32 .ro .ro .ro 1000 .const,
  obj 0x4001 3 "NSLOTS" .u16 .ro .ro .ro 250 .const,
  obj 0x4001 4 "SLOTNS" .u32 .ro .ro .ro 3996 .const,
  obj 0x4001 5 "APPLYSLOTS" .u8 .ro .ro .ro 3 .const,
  obj 0x4001 6 "EMBREMOTE" .u8 .ro .ro .ro 96 .const,
  obj 0x4001 7 "RSVEMB" .u32 .ro .ro .ro 0 .const,
  objs 0x4100 0 0x4100 0xFF "PSLOT" (.blob 160) .rw .rw .rw (2 ^ 1152) .staged,
  objs 0x4200 0 0x4200 0xFF "ASLOT" (.blob 160) .ro .ro .ro (2 ^ 1152) .const,
  obj 0x4300 1 "FIXCOMMIT" .u32 .rw .rw .rw 0 .live,
  obj 0x4300 2 "FIXGEN" .u16 .ro .ro .ro 0 .const,
  obj 0x4300 3 "FIXSTATE" .u8 .ro .ro .ro 0 .const,
  objs 0x4400 1 0x4400 4 "CLASSCAP" .u32 .rw .rw .rw 0xFFFFFFFF .live,
  obj 0x4400 5 "ECAPW" .u16 .rw .rw .rw 1950 .live,
  obj 0x4400 6 "ECAPTHW" .u16 .ro .ro .rw 1950 .live,
  objs 0x4410 0 0x4410 0xFF "PEERQUOTA" .u32 .rw .rw .rw 0 .live,
  obj 0x4500 1 "CADSRC" .u8 .rw .rw .rw 0 .live,
  obj 0x4500 2 "TODNEXT" .time64 .ro .rw .rw 0 .live,
  obj 0x6000 1 "CYC" .u32 .ro .ro .ro 0 .const,
  obj 0x6000 2 "SLOT" .u8 .ro .ro .ro 0 .const,
  obj 0x6000 3 "EXT_TIME" .time64 .ro .ro .ro 0 .const,
  obj 0x6000 4 "EDGETIME" .time64 .ro .ro .ro 0 .const,
  obj 0x6000 5 "CADSTATE" .u8 .ro .ro .ro 0 .const,
  obj 0x6000 6 "HOLDCNT" .u8 .ro .ro .ro 0 .const,
  obj 0x6000 7 "LASTPERIOD" .u32 .ro .ro .ro 0 .const,
  obj 0x6000 8 "PPSLOST" .bool .ro .ro .ro 1 .const,
  obj 0x6100 1 "STRAYS" .u64 .ro .ro .ro 0 .const,
  objs 0x6100 2 0x6100 5 "ADMITTED" .u64 .ro .ro .ro 0 .const,
  objs 0x6100 6 0x6100 9 "REFUSED" .u64 .ro .ro .ro 0 .const,
  objs 0x6100 0xA 0x6100 0xD "LATECNT" .u64 .ro .ro .ro 0 .const,
  obj 0x6100 0xE "OVERRUNS" .u64 .ro .ro .ro 0 .const]

/-- Chapter 8 (R244); stack `s` at 0x3100 + s, foundation die `k` at 0x3180 + k. -/
def dictMemory : List ObjDef := [
  obj 0x2400 1 "SPREADSEGS" .u8 .ro .ro .rw 2 .quiesced,
  obj 0x2400 2 "EMBSEGLO" .u8 .ro .rw .rw 34 .quiesced,
  obj 0x2400 3 "EMBSEGHI" .u8 .ro .rw .rw 63 .quiesced,
  obj 0x2400 4 "AUTOMAPOUT" .bool .rw .rw .rw 1 .live,
  obj 0x2400 5 "CETHRESH" .u32 .rw .rw .rw 4096 .live,
  obj 0x2400 6 "SCRUBHOURS" .u8 .rw .rw .rw 24 .live,
  obj 0x2410 1 "HBMSHARE" .u8 .rw .rw .rw 8 .staged,
  obj 0x2410 2 "HBMSHARE" .u8 .rw .rw .rw 120 .staged,
  obj 0x2410 3 "HBMSHARE" .u8 .rw .rw .rw 32 .staged,
  obj 0x2410 4 "HBMSHARE" .u8 .rw .rw .rw 64 .staged,
  objs 0x2410 5 0x2410 8 "HBMSHARE" .u8 .rw .rw .rw 8 .staged,
  objs 0x2411 1 0x2411 8 "SLMSHARE" .u8 .rw .rw .rw 32 .staged,
  objs 0x2412 1 0x2412 8 "DEPTH" .u16 .rw .rw .rw 64 .staged,
  obj 0x2413 1 "BORROW" .u8 .rw .rw .rw 0xFF .staged,
  objs 0x2414 1 0x2414 8 "DMVRATE" .u16 .rw .rw .rw 256 .staged] ++
  objRep 16 [
    obj 0x3100 1 "CHMAP" .u32 .ro .ro .ro 0 .const,
    obj 0x3100 2 "MAPOUT" .u8 .rw .rw .rw 0xFF .live,
    obj 0x3100 3 "MOSTATE" .u8 .ro .ro .ro 0 .const,
    obj 0x3100 4 "VACATED" .bool .rw .rw .rw 0 .live,
    obj 0x3100 5 "CECOUNT" .u64 .ro .ro .ro 0 .const,
    obj 0x3100 6 "UECOUNT" .u64 .ro .ro .ro 0 .const,
    obj 0x3100 7 "CAPMIB" .u32 .ro .ro .ro 65536 .const,
    obj 0x3100 8 "BADBLOCKS" (.blob 8192) .ro .ro .ro 0 .const] ++
  objRep 8 [
    objs 0x3180 1 0x3180 6 "UNITMODE" .u8 .rw .rw .rw 2 .staged,
    objs 0x3180 7 0x3180 0xC "UNITMODE" .u8 .rw .rw .rw 0 .staged,
    obj 0x3180 0xD "ALLOCMASK" .u8 .rw .rw .rw 0x0C .live]

/-- Chapter 9 (R266). -/
def dictXlate : List ObjDef := [
  obj 0x2500 1 "PTROOT" .u64 .rw .rw .rw 0 .quiesced,
  obj 0x2500 2 "XLINV" (.blob 16) .rw .rw .rw 0 .live,
  obj 0x2500 3 "XLINVDONE" .u32 .ro .ro .ro 0 .const,
  obj 0x2500 4 "XLFAULTS" .u64 .ro .ro .ro 0 .const,
  obj 0x2500 5 "XLWALKS" .u64 .ro .ro .ro 0 .const,
  objs 0x2600 0 0x260F 0xFF "OUTWIN" .u64 .rw .rw .rw 0 .staged,
  objs 0x2610 0 0x261F 0xFF "INWIN" (.blob 32) .rw .rw .rw 0 .staged]

/-- Chapter 12 (R360); port `n` at 0x3200 + n and 0x6200 + n. -/
def dictLinks : List ObjDef := [
  obj 0x2700 1 "MODID" .u8 .ro .rw .rw 0 .quiesced,
  obj 0x2700 2 "ETIMEOUT" .u32 .rw .rw .rw 100000 .live,
  obj 0x2700 3 "EMAX" .u8 .rw .rw .rw 3 .live,
  obj 0x2700 4 "LRMAX" .u8 .rw .rw .rw 8 .live,
  obj 0x2700 5 "LRTIME" .u32 .rw .rw .rw 20000 .live,
  obj 0x2700 6 "FOSYM" .u32 .rw .rw .rw 65536 .live,
  obj 0x2700 7 "FOUCW" .u8 .rw .rw .rw 4 .live,
  obj 0x2700 8 "EPOCH" .u8 .ro .ro .ro 0 .const,
  objs 0x2710 0 0x2710 0xFF "ROUTE" .u16 .rw .rw .rw 0 .staged,
  objs 0x2800 0 0x280F 0xFF "RALLY" (.blob 32) .rw .rw .rw 0 .staged] ++
  objRep 12 [
    obj 0x3200 1 "PENABLE" .bool .rw .rw .rw 1 .live,
    obj 0x3200 2 "PSTATE" .u8 .ro .ro .ro 0 .const,
    obj 0x3200 3 "LIVELANES" .u8 .ro .ro .ro 0 .const,
    obj 0x3200 4 "RTTNS" .u32 .ro .ro .ro 0 .const,
    objs 0x3200 0x10 0x3200 0x18 "LSTATE" .u8 .ro .ro .ro 0 .const,
    objs 0x3200 0x20 0x3200 0x28 "EQREAD" (.blob 64) .ro .ro .ro 0 .const,
    objs 0x3200 0x30 0x3200 0x38 "EQPIN" .u8 .rw .rw .rw 0 .live,
    objs 0x3200 0x40 0x3200 0x48 "EQSET" (.blob 64) .rw .rw .rw 0 .live,
    objs 0x3200 0x50 0x3200 0x58 "LRETRAIN" .bool .rw .rw .rw 0 .live,
    obj 0x6200 1 "CSYMTOT" .u64 .ro .ro .ro 0 .const,
    obj 0x6200 2 "UCWTOT" .u64 .ro .ro .ro 0 .const,
    obj 0x6200 3 "LRESENDS" .u64 .ro .ro .ro 0 .const,
    obj 0x6200 4 "ERESENDS" .u64 .ro .ro .ro 0 .const,
    obj 0x6200 5 "FAILOVERS" .u64 .ro .ro .ro 0 .const,
    obj 0x6200 6 "DROPS" .u64 .ro .ro .ro 0 .const]

/-- The default window table (R373): entry `i` is stack i mod 16, segment 2 + i div 16. -/
def hdmDefault : Nat := (List.range 64).foldl (fun a i => a + (i % 16 * 4096 + (2 + i / 16)) * 2 ^ (16 * i)) 0

/-- Chapter 13 (R386). -/
def dictHost : List ObjDef := [
  obj 0x2900 1 "BIFUR" .u8 .ro .ro .ro 0 .const,
  obj 0x2900 2 "HOSTTO" .u32 .rw .rw .rw 50000 .live,
  obj 0x2900 3 "HOSTLAT" .u32 .rw .rw .rw 2000 .live,
  obj 0x2900 4 "BIBOUND" .u32 .ro .rw .rw 1500 .live,
  obj 0x2900 5 "HDMSEG" (.blob 128) .rw .rw .rw hdmDefault .quiesced,
  obj 0x2900 6 "HOSTCHG" .u32 .ro .ro .ro 100000 .const,
  objs 0x2901 0 0x2901 0x3F "MBXBIND" (.blob 16) .rw .rw .rw 0 .live,
  obj 0x6900 1 "LINKSTATE" .u32 .ro .ro .ro 0 .const,
  obj 0x6900 2 "HOSTLOSSES" .u64 .ro .ro .ro 0 .const,
  obj 0x6900 3 "POISONRX" .u64 .ro .ro .ro 0 .const,
  obj 0x6900 4 "POISONTX" .u64 .ro .ro .ro 0 .const,
  obj 0x6900 5 "MBXDROPS" .u64 .ro .ro .ro 0 .const,
  obj 0x6900 6 "BARERR" .u64 .ro .ro .ro 0 .const]

/-- Chapter 7 (R227); table `t` at 0x5000 + t. -/
def dictEmb : List ObjDef := objRep 3840 [
    obj 0x5000 1 "TBLDESC" (.blob 64) .rw .rw .rw 0 .staged,
    obj 0x5000 2 "HMAPGEN" .u16 .ro .ro .ro 0 .const,
    obj 0x5000 3 "HMAPCOMMIT" .u32 .rw .rw .rw 0 .live] ++ [
  obj 0x5F00 1 "STEP" .u32 .ro .ro .rw 0 .quiesced,
  obj 0x5F00 2 "STEPEVERY" .u16 .rw .rw .rw 1 .live,
  obj 0x5F01 1 "SPILLMIB" .u16 .rw .rw .rw 0 .quiesced,
  obj 0x5F01 2 "REPLMIB" .u8 .rw .rw .rw 8 .quiesced,
  obj 0x5F02 1 "HEATSHIFT" .u8 .rw .rw .rw 4 .live,
  obj 0x5F02 2 "HEATPERIOD" .u16 .rw .rw .rw 1000 .live,
  obj 0x5F03 1 "REPLTHRESH" .u32 .rw .rw .rw 65536 .live,
  obj 0x5F03 2 "REPLRUN" .u16 .rw .rw .rw 64 .live,
  obj 0x5F04 1 "MIGREQ" (.blob 16) .rw .rw .rw 0 .staged,
  obj 0x5F04 2 "MIGRELEASE" (.blob 8) .rw .rw .rw 0 .staged,
  obj 0x5F04 3 "MIGSTATUS" .u32 .ro .ro .ro 0 .const]

/-- Chapter 14 (R420). -/
def dictErrors : List ObjDef := [
  obj 0x2A00 1 "ERQOWNER" .u8 .ro .rw .rw 0 .live,
  obj 0x2A00 2 "ERRVEC" .u16 .rw .rw .rw 0 .live,
  obj 0x2A00 3 "FATALVEC" .u16 .rw .rw .rw 1 .live,
  obj 0x2A00 4 "ERRGAP" .u32 .rw .rw .rw 10000 .live,
  obj 0x2A00 5 "CEREPORT" .u16 .rw .rw .rw 1000 .live,
  obj 0x2A00 6 "FATALREQ" .bool .no .no .rw 0 .live,
  obj 0x2A01 1 "XCENABLE" .bool .ro .rw .rw 1 .live,
  obj 0x2A01 2 "XCPERIOD" .u8 .ro .rw .rw 10 .live,
  obj 0x6A00 1 "ERQTAIL" .u32 .ro .ro .ro 0 .const,
  obj 0x6A00 2 "ERQHEAD" .u32 .rw .rw .rw 0 .live,
  obj 0x6A00 3 "ERQOVF" .u64 .ro .ro .ro 0 .const,
  obj 0x6A00 4 "ERRSTAT" .u32 .ro .ro .ro 0 .const,
  obj 0x6A00 5 "CHKMISMATCH" .u64 .ro .ro .ro 0 .const,
  obj 0x6A00 6 "RESIDUEFAULTS" .u64 .ro .ro .ro 0 .const,
  obj 0x6A00 7 "SEALFAULTS" .u64 .ro .ro .ro 0 .const,
  obj 0x6A00 8 "APPLYCHECK" .u64 .ro .ro .ro 0 .const,
  obj 0x6A00 9 "XCRUNS" .u64 .ro .ro .ro 0 .const,
  obj 0x6A00 0xA "XCFAILS" .u64 .ro .ro .ro 0 .const,
  obj 0x6A00 0xB "SCLOST" .u64 .ro .ro .ro 0 .const,
  objs 0x6A01 0 0x6A01 0x3F "ERQREC" (.blob 64) .ro .ro .ro 0 .const,
  obj 0x6A01 0x40 "RSVREC" (.blob 64) .ro .ro .ro 0 .const,
  obj 0x6A02 1 "SCFREE" .u16 .rw .rw .rw 0 .live,
  objs 0x6A10 0 0x6A11 0xEF "SCORECARD" (.blob 4096) .ro .ro .ro 0 .const,
  objs 0x6A20 0 0x6A20 0x8F "XCLAST" .u32 .ro .ro .ro 0 .const,
  obj 0x6A30 1 "PLACELOG" (.blob 2097152) .ro .ro .ro 0 .const]

/-- Chapter 15 (R432, R442, R449). Defaults that are OTP values, straps or counts are computed where the object is read. -/
def dictMarmas : List ObjDef := [
  obj 0x1000 1 "VENDOR" (.str 16) .ro .ro .ro 0 .const,
  obj 0x1000 2 "PCIVID" .u16 .ro .ro .ro 0 .const,
  obj 0x1000 3 "PCIDID" .u16 .ro .ro .ro 0 .const,
  obj 0x1000 4 "ORDERCODE" (.str 16) .ro .ro .ro 0 .const,
  obj 0x1000 5 "SERIAL" (.str 32) .ro .ro .ro 0 .const,
  obj 0x1000 6 "SILREV" .u8 .ro .ro .ro 0 .const,
  obj 0x1000 7 "FWVER" .u32 .ro .ro .ro 0 .const,
  obj 0x1000 8 "MARMASVER" .u8 .ro .ro .ro 1 .const,
  obj 0x1000 9 "VXEREV" .u16 .ro .ro .ro 0 .const,
  obj 0x1000 0xA "SEBOUND" .u8 .ro .ro .ro 1 .const,
  obj 0x1000 0xB "POSINSVC" .u8 .ro .ro .ro 128 .const,
  obj 0x1000 0xC "REVINSVC" .u8 .ro .ro .ro 16 .const,
  obj 0x1000 0xD "UUID" (.blob 16) .ro .ro .ro 0 .const,
  obj 0x1100 1 "I3CSTATIC" .u8 .ro .ro .ro 0 .const,
  obj 0x1100 2 "I3CDYN" .u8 .ro .ro .ro 0 .const,
  obj 0x1100 3 "I3CPID" .u64 .ro .ro .ro 0 .const,
  obj 0x1100 4 "EIDI3C" .u8 .ro .ro .ro 0 .const,
  obj 0x1100 5 "EIDVDM" .u8 .ro .ro .ro 0 .const,
  obj 0x1101 1 "EVTDEST" .u16 .ro .rw .rw 0 .live,
  obj 0x1101 2 "EVTMIN" .u8 .ro .rw .rw 2 .live,
  obj 0x2000 1 "COMMIT" .u32 .rw .rw .rw 0 .live,
  obj 0x2000 2 "COMMITSTATE" .u8 .ro .ro .ro 0 .const,
  obj 0x2000 3 "COMMITERR" .u32 .ro .ro .ro 0 .const,
  obj 0x2000 4 "STAGECOUNT" .u16 .ro .ro .ro 0 .const,
  obj 0x2000 5 "DISCARD" .bool .rw .rw .rw 0 .live,
  obj 0x2000 0x10 "MODRESET" .u32 .no .rw .rw 0 .live,
  objs 0x6F00 1 0x6F00 4 "MREQS" .u64 .ro .ro .ro 0 .const,
  obj 0x6F00 5 "MREFUSED" .u64 .ro .ro .ro 0 .const,
  obj 0x7000 1 "JSEQNEXT" .u64 .ro .ro .ro 1 .const,
  obj 0x7000 2 "JFIRST" .u64 .ro .ro .ro 0 .const,
  obj 0x7000 3 "JHEAD" (.blob 32) .ro .ro .ro 0 .const,
  obj 0x7000 4 "JCKREQ" (.blob 32) .rw .rw .rw 0 .live,
  obj 0x7000 5 "JCKCOUNT" .u32 .ro .ro .ro 1 .const,
  obj 0x7000 6 "JCKSIGNED" .u64 .ro .ro .ro 0 .const,
  obj 0x7000 7 "JBYTES" .u32 .ro .ro .ro 128 .const,
  objs 0x7001 0 0x7001 0xF "JSIG" (.blob 17096) .ro .ro .ro 0 .const]

/-- Chapter 16 (R471). -/
def dictSecurity : List ObjDef := [
  obj 0x7100 1 "LIFECYCLE" .u8 .ro .ro .ro 0 .const,
  obj 0x7100 2 "FUSEDSVN" .u8 .ro .ro .ro 0 .const,
  obj 0x7100 3 "ROOTSLOT" .u8 .ro .ro .ro 0 .const,
  obj 0x7100 4 "ROOTREV" .u8 .ro .ro .ro 0 .const,
  obj 0x7100 5 "BOOTBANK" .u8 .ro .ro .ro 0 .const,
  obj 0x7100 6 "BOOTSTATE" .u8 .ro .ro .ro 0 .const,
  obj 0x7100 7 "DIKPUB" (.blob 32) .ro .ro .ro 0 .const,
  obj 0x7100 8 "RAKPUB" (.blob 32) .ro .ro .ro 0 .const,
  obj 0x7101 1 "SECWRITE" .bool .ro .rw .rw 0 .live,
  obj 0x7101 2 "OWNERROOT" (.blob 32) .ro .rw .rw 0 .live,
  objs 0x7102 0 0x7102 3 "SESSION" (.blob 16) .ro .ro .ro 0 .const,
  objs 0x7103 1 0x7103 9 "MEAS" (.blob 64) .ro .ro .ro 0 .const,
  obj 0x7104 1 "SPDMREQS" .u64 .ro .ro .ro 0 .const,
  obj 0x7104 2 "SPDMERRS" .u64 .ro .ro .ro 0 .const,
  obj 0x7200 1 "FWSRC" (.blob 16) .ro .rw .rw 0 .live,
  obj 0x7200 2 "FWACTION" .u8 .ro .rw .rw 0 .quiesced,
  obj 0x7200 3 "FWSTATE" .u8 .ro .ro .ro 0 .const,
  obj 0x7200 4 "FWERR" .u8 .ro .ro .ro 0 .const]

/-- Chapter 17 (R485); position `p` at 0x3000 + p. -/
def dictRepair : List ObjDef := objRep 144 [
    obj 0x3000 1 "PSTATE" .u8 .ro .ro .ro 4 .const,
    obj 0x3000 2 "STANDSFOR" .u8 .ro .ro .ro 0xFF .const,
    obj 0x3000 3 "BENCHREQ" .u8 .rw .rw .rw 0 .live,
    obj 0x3000 4 "BISTRES" .u32 .ro .ro .ro 0 .const,
    obj 0x3000 5 "MBLAST" .u32 .ro .ro .ro 0 .const] ++ [
  obj 0x8000 1 "MBENABLE" .bool .ro .rw .rw 1 .live,
  obj 0x8000 2 "MBPERIOD" .u16 .ro .rw .rw 1 .live,
  obj 0x8000 3 "BISTRUN" .u8 .ro .rw .rw 0xFF .quiesced,
  obj 0x8100 1 "FUSEREPAIR" .bool .ro .rw .rw 0 .quiesced,
  obj 0x8100 2 "REPPEND" .u16 .ro .ro .ro 0 .const,
  obj 0x8100 3 "FUSEFREE" .u16 .ro .ro .ro 2048 .const,
  objs 0x8101 0 0x8108 0xFF "REPFUSE" .u64 .ro .ro .ro 0 .const,
  obj 0x8200 1 "SCANREQ" .u8 .no .rw .rw 0xFF .quiesced,
  obj 0x8200 2 "TOKNONCE" (.blob 32) .ro .ro .ro 0 .const,
  objs 0x8201 0 0x8201 7 "TOKENBUF" (.blob 1024) .no .rw .rw 0 .quiesced,
  obj 0x8202 1 "TOKENSUBMIT" .u8 .no .rw .rw 0 .quiesced]

/-- Chapter 18 (R503). -/
def dictPower : List ObjDef := [
  obj 0x2B00 1 "SSCNEXT" .u8 .ro .rw .rw 0 .live,
  obj 0x2B00 2 "SSCDEPTH" .u8 .ro .ro .ro 0 .const,
  obj 0x2B01 1 "AVSEN" .bool .ro .rw .rw 1 .live,
  obj 0x2B01 2 "MLO" .u8 .ro .rw .rw 6 .live,
  obj 0x2B01 3 "MHI" .u8 .ro .rw .rw 9 .live,
  obj 0x2B01 4 "MEMERG" .u8 .ro .rw .rw 3 .live,
  obj 0x2B02 1 "BRAKEW" .u16 .ro .rw .rw 975 .live,
  objs 0x2B03 1 0x2B03 3 "TCAPLO" .i16 .ro .rw .rw 95 .live,
  obj 0x2B03 4 "TCAPLO" .i16 .ro .rw .rw 88 .live,
  obj 0x2B03 5 "TCAPLO" .i16 .ro .rw .rw 95 .live,
  objs 0x2B03 0x11 0x2B03 0x13 "TCAPHI" .i16 .ro .rw .rw 102 .live,
  obj 0x2B03 0x14 "TCAPHI" .i16 .ro .rw .rw 94 .live,
  obj 0x2B03 0x15 "TCAPHI" .i16 .ro .rw .rw 102 .live,
  obj 0x2B04 1 "SLEW" .u8 .ro .rw .rw 1 .live,
  obj 0x2B04 2 "SLEW" .u8 .ro .rw .rw 0 .live,
  obj 0x2B04 3 "SLEW" .u8 .ro .rw .rw 3 .live,
  obj 0x6B00 1 "TMAX" .i16 .ro .ro .ro 0 .const,
  obj 0x6B00 2 "PWRMEAS" .u32 .ro .ro .ro 0 .const,
  obj 0x6B00 3 "THERMF" .u16 .ro .ro .ro 1024 .const,
  obj 0x6B00 4 "BRAKED" .bool .ro .ro .ro 0 .const,
  objs 0x6B01 0 0x6B01 0x63 "TSENS" .i16 .ro .ro .ro 0 .const,
  objs 0x6B02 0 0x6B02 7 "AVSRAIL" (.blob 8) .ro .ro .ro 0 .const]

end Sys2Proof.Machine
end

