-- ==== Sys2Proof/Machine/TypesErrors.lean ====
section
/-!
DEFINITION. What the error block holds (14_errors_integrity.md): causes, error records, scorecards, the record
queue with its reserved entry, and the counters of R420.
-/
namespace Sys2Proof.Machine

/-- The cause codes of R397. -/
inductive Cause
  | illegalEncoding | hazard | mxHazard | absentFeature | invalidOperand | replayExhausted | satExhausted | arithFlag
  | arrivalTimeout | cacheUnitAccess | vxeResidue | bankConflict | seal | checksum | xlate | linkTimeout | hostPoison
  | uncorrectable | hostUnreachable | requestFormat | stepAhead | stripeLost | atomicTarget | combineOverflow
  | rallyMismatch | rallyTimeout | embStore | bufferFormat
  deriving DecidableEq, Repr

/-- The code of a cause (R397). -/
def Cause.code : Cause → Nat
  | .illegalEncoding => 0x01 | .hazard => 0x02 | .mxHazard => 0x03 | .absentFeature => 0x04 | .invalidOperand => 0x05
  | .replayExhausted => 0x06 | .satExhausted => 0x07 | .arithFlag => 0x08 | .arrivalTimeout => 0x09
  | .cacheUnitAccess => 0x0A | .vxeResidue => 0x0B | .bankConflict => 0x10 | .seal => 0x11 | .checksum => 0x12
  | .xlate => 0x13 | .linkTimeout => 0x14 | .hostPoison => 0x15 | .uncorrectable => 0x16 | .hostUnreachable => 0x17
  | .requestFormat => 0x20 | .stepAhead => 0x21 | .stripeLost => 0x22 | .atomicTarget => 0x23
  | .combineOverflow => 0x24 | .rallyMismatch => 0x25 | .rallyTimeout => 0x26 | .embStore => 0x27
  | .bufferFormat => 0x30

/-- Every cause. -/
def Cause.list : List Cause :=
  [.illegalEncoding, .hazard, .mxHazard, .absentFeature, .invalidOperand, .replayExhausted, .satExhausted, .arithFlag, .arrivalTimeout,
   .cacheUnitAccess, .vxeResidue, .bankConflict, .seal, .checksum, .xlate, .linkTimeout, .hostPoison, .uncorrectable, .hostUnreachable,
   .requestFormat, .stepAhead, .stripeLost, .atomicTarget, .combineOverflow, .rallyMismatch, .rallyTimeout, .embStore, .bufferFormat]

/-- The cause of a code (R397). -/
def Cause.ofCode (n : Nat) : Option Cause := Cause.list.find? (fun c => c.code == n)

/-- The status names of R19. -/
inductive Status
  | ok | empty | replayed | late | cancelled | destroyed | busy | overBudget | shapeExceedsPlan | sealMismatch
  | checksumMismatch | bankConflict | xlateFault | linkTimeout | hostPoison | deviceFatal
  deriving DecidableEq, Repr

/-- The code of a status name (R387). -/
def Status.code : Status → Nat
  | .ok => 0x00 | .empty => 0x01 | .replayed => 0x02 | .late => 0x03 | .cancelled => 0x10 | .destroyed => 0x11
  | .busy => 0x20 | .overBudget => 0x21 | .shapeExceedsPlan => 0x22 | .sealMismatch => 0x30
  | .checksumMismatch => 0x31 | .bankConflict => 0x32 | .xlateFault => 0x33 | .linkTimeout => 0x34
  | .hostPoison => 0x35 | .deviceFatal => 0x3F

/-- The statuses that count as success of a predecessor (R309, R387). -/
def Status.success : Status → Bool
  | .ok | .empty | .replayed | .late => true
  | _ => false

/-- The fault status of a cause (R321, R397). -/
def Cause.status : Cause → Status
  | .seal => .sealMismatch
  | .checksum => .checksumMismatch
  | .bankConflict => .bankConflict
  | .xlate => .xlateFault
  | .linkTimeout => .linkTimeout
  | .rallyTimeout => .linkTimeout
  | .hostPoison => .hostPoison
  | _ => .cancelled

/-- The error classes of R388. -/
inductive ErrClass
  | command | memory | link | host | cadence | schedule | integrity | config | repair | power | security | fatal
  deriving DecidableEq, Repr

/-- The code of an error class (R388). -/
def ErrClass.code : ErrClass → Nat
  | .command => 0 | .memory => 1 | .link => 2 | .host => 3 | .cadence => 4 | .schedule => 5 | .integrity => 6
  | .config => 7 | .repair => 8 | .power => 9 | .security => 0xA | .fatal => 0xF

/-- The severities of R388. -/
inductive Sev
  | info | corrected | degraded | command | unit | fatal
  deriving DecidableEq, Repr

/-- The code of a severity (R388). -/
def Sev.code : Sev → Nat
  | .info => 0 | .corrected => 1 | .degraded => 2 | .command => 3 | .unit => 4 | .fatal => 5

/-- The kinds of unit an error record names (UKIND of R389). -/
inductive UKind
  | none | position | hbmStack | foundationDie | farastPort | lane | queue | ring | cfe | fixtureEngine | mgc | hostLink | ioDie
  deriving DecidableEq, Repr

/-- The code of a unit kind (R389). -/
def UKind.code : UKind → Nat
  | .none => 0 | .position => 1 | .hbmStack => 2 | .foundationDie => 3 | .farastPort => 4 | .lane => 5 | .queue => 6
  | .ring => 7 | .cfe => 8 | .fixtureEngine => 9 | .mgc => 10 | .hostLink => 11 | .ioDie => 12

/-- The engines a scorecard names (ENGINE of R398). -/
inductive Engine
  | mx | mv | vx | dt | dl | ct | emb | cfe | fixture | farast | hostPath
  deriving DecidableEq, Repr

/-- The code of an engine (R398). -/
def Engine.code : Engine → Nat
  | .mx => 0 | .mv => 1 | .vx => 2 | .dt => 3 | .dl => 4 | .ct => 5 | .emb => 6 | .cfe => 7 | .fixture => 8
  | .farast => 9 | .hostPath => 10

/-- An error record (R389). -/
structure ErrRec where
  rseq : Nat := 0
  etime : Nat := 0
  cls : ErrClass := .command
  sev : Sev := .info
  secondary : Bool := false
  ovf : Bool := false
  scard : Bool := false
  cause : Nat := 0
  ukind : UKind := .none
  unit : Nat := 0
  scidx : Nat := 0xFFFF
  cmdref : Nat := 0
  primary : Nat := 0
  cyc : Nat := 0
  slot : Nat := 0
  count : Nat := 0
  info6 : Nat := 0
  info7 : Nat := 0
  deriving DecidableEq, Repr

/-- The eight 64-bit words of a record (R389). -/
def ErrRec.words (r : ErrRec) : List Nat :=
  [r.rseq, r.etime,
   r.cls.code * 2 ^ 60 + r.sev.code * 2 ^ 57 + b2n r.secondary * 2 ^ 56 + b2n r.ovf * 2 ^ 55 + b2n r.scard * 2 ^ 54
     + r.cause * 2 ^ 40 + r.ukind.code * 2 ^ 32 + r.unit * 2 ^ 16 + r.scidx,
   r.cmdref, r.primary, r.cyc * 2 ^ 32 + r.slot * 2 ^ 24 + r.count, r.info6, r.info7]

/-- One further cause of a command (MORE of R398). -/
structure MoreCause where
  cause : Cause
  engine : Engine
  bclk : Nat
  deriving DecidableEq, Repr

/-- A scorecard (R398); sections that do not apply are empty and read 0. `bclk` is the BCLK of its fault (R400). -/
structure Scorecard where
  cmdref : Nat := 0
  rseq : Nat := 0
  cause : Cause
  status : Status
  engine : Engine
  pos : Nat := 0xFF
  unit : Nat := 0
  effects : Bool := false
  secondary : Bool := false
  bclk : Nat := 0
  etime : Nat := 0
  cyc : Nat := 0
  slot : Nat := 0
  etk : Nat := 0
  tck : Nat := 0
  pc : Nat := 0
  passidx : Nat := 0
  planid : Nat := 0
  instr : Nat := 0
  dva : Nat := 0
  dpa : Nat := 0
  detail : List Nat := []
  more : List MoreCause := []
  qheads : List Nat := []
  cregs : List Nat := []
  tstat : List Nat := []
  arrcnt : List Nat := []
  xfer : List Byte := []
  lite : List Nat := []
  homes : List Nat := []
  deriving DecidableEq, Repr

/-- The corrected-error reporting of one unit (R393): the cycle of its last record and the errors since. -/
structure CeUnit where
  last : Option Nat := none
  since : Nat := 0
  deriving DecidableEq, Repr

/-- One entry of the placement log (R417). -/
structure PlaceEntry where
  cmdref : Nat
  cyc : Nat
  slot : Nat
  count : Nat
  mask : Nat
  deriving DecidableEq, Repr

/-- The subject of a record (R391): a queue or a unit. -/
structure Subject where
  kind : UKind
  unit : Nat
  deriving DecidableEq, Repr

/-- A cross-check run whose pair differed and awaits its repeat (R414, R416): the cores, the seed of the operands, the slot it ran in. -/
structure XcRun where
  a : Nat
  b : Nat
  seed : BitVec 64
  slot : Nat
  deriving DecidableEq, Repr

/-- The error block: record queue, reserved entry, scorecards, counters (R391-R420). -/
structure Errors where
  slots : Table ErrRec := []
  erqtail : W32 := 0
  erqhead : W32 := 0
  erqovf : Nat := 0
  rsv : Option ErrRec := none
  rseq : Nat := 0
  primaries : List (Subject × Nat) := []
  fatal : Bool := false
  fatalAt : Option Nat := none
  fatalSrc : UKind × Nat := (.none, 0)
  frozen : Bool := false
  scorecards : Table (Option Scorecard) := []
  sclost : Nat := 0
  lastSignal : Option Nat := none
  signalDue : Option Nat := none
  ceUnits : Table CeUnit := []
  chkMismatch : Nat := 0
  residueFaults : Nat := 0
  sealFaults : Nat := 0
  applyCheck : Nat := 0
  xcRuns : Nat := 0
  xcFails : Nat := 0
  xcLast : Table Nat := []
  xcDue : List Nat := []
  xcFault : Table (Option Nat) := []
  xcAt : Table Nat := []
  xcSlot : Table (Option Nat) := []
  xcPend : List XcRun := []
  xcSeed : BitVec 64 := 0
  xcBist : List Nat := []
  reread : List Nat := []
  placeLog : List PlaceEntry := []
  deriving DecidableEq, Repr

end Sys2Proof.Machine
end

