-- ==== Sys2Proof/Machine/TypesFixture.lean ====
section
/-!
DEFINITION. What the Fixture engine holds (10_fixture_cadence.md): the time base, the ledger of placements, the cost
tables of admitted commands, and its counters.
-/
namespace Sys2Proof.Machine

/-- The budget classes of R278. -/
inductive Class
  | idle | rank | train | reader | bulk | test | repair
  deriving DecidableEq, Repr

/-- The code of a class (R278). -/
def Class.code : Class → Nat
  | .idle => 0 | .rank => 1 | .train => 2 | .reader => 3 | .bulk => 4 | .test => 5 | .repair => 6

/-- The class of a cost table's CLASS field (R282): 0x1 to 0x4. -/
def Class.ofCost (n : Nat) : Option Class :=
  if n = 1 then some .rank else if n = 2 then some .train else if n = 3 then some .reader
  else if n = 4 then some .bulk else none

/-- A phase record of a cost table (R283). -/
structure Phase where
  rev : Bool
  alt : Nat
  k : Nat
  cclk : Nat
  ns : Nat
  gap : Nat
  emb : List Nat
  hcls : Nat
  hbm4k : Nat
  euj : Nat
  ports : Nat
  fb256 : Nat
  deriving DecidableEq, Repr

/-- A cost table (R282, R283). -/
structure CostTable where
  cls : Class
  plan : Nat
  planid : Nat
  seq : Bool
  pklenm1 : Nat
  pqm1 : Nat
  combine : List Nat
  phases : List Phase
  peers : List (Nat × Nat)
  deriving DecidableEq, Repr

/-- A placement: one phase (or one MGC run) in the ledger (R287, R288). `first` counts slots from cycle 0. -/
structure Placement where
  q : Nat := 0
  cseq : Nat := 0
  cls : Class
  phase : Nat := 0
  first : Nat
  slots : Nat
  positions : List Nat := []
  emb : List Nat := []
  hcls : Nat := 0
  hbm : Nat := 0
  ports : Nat := 0
  farast : Nat := 0
  energy : Nat := 0
  peers : List (Nat × Nat) := []
  combine : List Nat := []
  released : Bool := false
  alt : Bool := false
  deriving DecidableEq, Repr

/-- The cadence states of R269. -/
inductive CadState
  | free | locked | holdover | unlocked | internal
  deriving DecidableEq, Repr

/-- CADSTATE as read (R294). -/
def CadState.code : CadState → Nat
  | .free => 0 | .locked => 1 | .holdover => 2 | .unlocked => 3 | .internal => 4

/-- FIXSTATE (R294). -/
inductive FixState
  | nothing | armed | draining | refused
  deriving DecidableEq, Repr

/-- FIXSTATE as read (R294). -/
def FixState.code : FixState → Nat
  | .nothing => 0 | .armed => 1 | .draining => 2 | .refused => 3

/-- Kinds of repair work, in the order of R481. -/
inductive RepairKind
  | hardLoss | benchCopy | mapoutCopy | crossCheck | laneRetrain | unitTest
  deriving DecidableEq, Repr

/-- Repair work placed in a reserved slot (R481): the slot, and the positions and lanes it touches. -/
structure RepairWork where
  slot : Nat
  kind : RepairKind
  touch : List Nat
  deriving DecidableEq, Repr

/-- The Fixture engine (R267-R294). Times are BCLK counts. `cycle` counts edges without wrap (CYC is its low 32 bits), `pulse` is P of R268,
`edgeDue` the BCLK an announced edge takes effect and `nextCad` the state and HOLDCNT it brings (R281 action 2), `lastSeen` and `consistent`
the pulses of a relock with `relockWait` the fourth (R271), `noPlace` positions that take no placement (R293), `repairs` the repair work of the current reserved slot (R481), `regNew` regulator shares not yet
in force, `regUntil` the first cycle they may come into force in and `lastDue` the cycle after the last due slot ever promised (R243), `ready` that start-up is complete (R517). -/
structure Fixture where
  cad : CadState := .free
  holdcnt : Nat := 0
  pulse : Option Nat := none
  lastEdge : Option Nat := none
  edgeDue : Option Nat := none
  nextCad : Option (CadState × Nat) := none
  consistent : Nat := 0
  lastSeen : Option Nat := none
  relockWait : Option Nat := none
  strays : Nat := 0
  cycle : Nat := 0
  extBase : Nat := 0
  edgeTime : Nat := 0
  lastPeriod : Nat := 0
  ppsLost : Bool := true
  lastPps : Option Nat := none
  todArmed : Option Nat := none
  fixgen : W16 := 0
  fixstate : FixState := .nothing
  fixTarget : Option Nat := none
  ledger : List Placement := []
  repairs : List RepairWork := []
  held : List Nat := []
  noPlace : List Nat := []
  regNew : Table (Option Nat) := []
  regUntil : Nat := 0
  lastDue : Nat := 0
  ready : Bool := false
  admitted : List Nat := [0, 0, 0, 0]
  refused : List Nat := [0, 0, 0, 0]
  latecnt : List Nat := [0, 0, 0, 0]
  overruns : Nat := 0
  deriving DecidableEq, Repr

end Sys2Proof.Machine
end

