-- ==== Sys2Proof/Machine/TypesCfe.lean ====
section
/-!
DEFINITION. What the Command Front End holds (11_command_front_end.md): submission queues, completion rings, the command
store with its buffers, the commands, the overflow ring and the attach state.
-/
namespace Sys2Proof.Machine

/-- A RUN record's fields (R304), a REPEAT's after R305 (`rep`). -/
structure RunRec where
  duecyc : Nat
  dueslot : Nat
  argspm : Nat
  rel : Bool
  cost : Nat
  valid : Nat
  argoff : Nat
  arglen : Nat
  spawn : Nat
  seqoff : Nat
  reqoff : Nat
  outoff : Nat
  nout : Nat
  nreq : Nat
  rep : Bool := false
  deriving DecidableEq, Repr

/-- What a command is (R303, R307, R323). -/
inductive CmdKind
  | run (r : RunRec)
  | nop
  | admin (kind : Nat) (w1 w2 w3 : Nat) (bad : Bool)
  | refusedRecord
  | faulty (c : Cause)
  deriving DecidableEq, Repr

/-- The states of R319 (POSTED commands leave the list). -/
inductive CmdState
  | fetched | waitPred | ready | admitted | running | faulted | finished | done
  deriving DecidableEq, Repr

/-- A command with a CSEQ (R296, R319). `stalled`: its record has been refused by a full ring and a full overflow ring (R316). -/
structure Cmd where
  q : Nat
  cseq : Nat
  incarn : Nat
  buf : Nat
  kind : CmdKind
  tag : Nat := 0
  pds : List Nat := []
  assigned : Nat := 0
  st : CmdState := .fetched
  status : Option Status := none
  fault : Option Status := none
  reason : Nat := 0
  late : Bool := false
  refusal : Bool := false
  scidx : Option Nat := none
  held : Bool := false
  predfail : Bool := false
  spawnref : Bool := false
  hostlost : Bool := false
  rerun : Bool := false
  ran : Bool := false
  vxf : Nat := 0
  arepl : Nat := 0
  srepl : Nat := 0
  prepl : Nat := 0
  admerr : Nat := 0
  inline : List Byte := []
  cost : Option CostTable := none
  due : Option (Nat × Nat) := none
  tasks : Nat := 0
  posting : Bool := false
  spawnRead : Bool := false
  effects : Bool := false
  homes : List Nat := []
  stalled : Bool := false
  deriving DecidableEq, Repr

/-- The 64-bit CMDREF (R296). -/
def cmdRef (q incarn cseq : Nat) : Nat := q * 2 ^ 40 + incarn * 2 ^ 32 + cseq

/-- The CMDREF of a command (R296). -/
def Cmd.ref (c : Cmd) : Nat := cmdRef c.q c.incarn c.cseq

/-- A command buffer held in the command store (R302). -/
structure Buffer where
  id : Nat
  q : Nat
  bytes : List Byte
  len : Nat
  spawned : Bool
  taken : Bool := false
  bad : Option Cause := none
  deriving DecidableEq, Repr

/-- Queue states (R325). -/
inductive QState
  | free | opened | halted | closing
  deriving DecidableEq, Repr

/-- STATE of QSTAT (R330). -/
def QState.code : QState → Nat
  | .free => 0 | .opened => 1 | .halted => 2 | .closing => 3

/-- Fetch states (R301). -/
inductive FetchSt
  | idle | pass | wait
  deriving DecidableEq, Repr

/-- FETCH of QSTAT (R330). -/
def FetchSt.code : FetchSt → Nat
  | .idle => 0 | .pass => 1 | .wait => 2

/-- A submission queue (R295-R330). `inPass`: a fetch pass has started and awaits data. -/
structure Queue where
  st : QState := .free
  fhead : W32 := 0
  dbtail : W32 := 0
  nextseq : W32 := 0
  postseq : W32 := 0
  haltseq : W32 := 0
  dbign : Nat := 0
  incarn : Nat := 0
  cr : Nat := 0
  prio : Nat := 0
  dbflag : Bool := false
  waiton : Nat := 0
  fetch : FetchSt := .idle
  inPass : Bool := false
  szlogm4 : Nat := 0
  base : Nat := 0
  qmaxcmd : Nat := 0
  qmaxkib : Nat := 0
  qspawn : Nat := 0
  quotaNext : Option (Nat × Nat × Nat) := none
  success : List (Nat × Bool) := []
  assigned : Nat := 0
  spawnQ : List (Nat × Nat) := []
  spawned : Nat := 0
  destroying : Option Nat := none
  cancelled : Nat := 0
  lastIssued : Nat := 0
  deriving DecidableEq, Repr

/-- A completion ring (R316, R317, R331). -/
structure Ring where
  opened : Bool := false
  ctail : W32 := 0
  chead : W32 := 0
  base : Nat := 0
  szlogm4 : Nat := 0
  intgap : Nat := 0
  inten : Bool := false
  vec : Nat := 0
  unreachable : Bool := false
  lastSignal : Option Nat := none
  signalDue : Option Nat := none
  deriving DecidableEq, Repr

/-- Attach states (R327). -/
inductive AttState
  | detached | attaching | attached
  deriving DecidableEq, Repr

/-- ATTSTATE (R329). -/
def AttState.code : AttState → Nat
  | .detached => 0 | .attaching => 1 | .attached => 2

/-- A record parked in the overflow ring (R316): its ring and its eight words. -/
structure Parked where
  ring : Nat
  words : List Nat
  deriving DecidableEq, Repr

/-- A read of the CFE or the Fixture engine through a window (R262): its DVA and length, the bytes its answer brought, or why it failed. -/
structure WinRead where
  dva : Nat
  len : Nat
  bytes : Option (List Byte) := none
  fault : Option Cause := none
  deriving DecidableEq, Repr

/-- The Command Front End. `storeWait`: the queues whose fetches wait for the store, in the order in which they began to (R318). -/
structure Cfe where
  att : AttState := .detached
  admsq : W64 := 0
  admcr : W64 := 0
  admint : W32 := 0
  queues : Table Queue := []
  rings : Table Ring := []
  cmds : List Cmd := []
  buffers : List Buffer := []
  nextBuf : Nat := 0
  parked : List Parked := []
  served : Nat := 0
  storeWait : List Nat := []
  winReads : List WinRead := []
  deriving DecidableEq, Repr

end Sys2Proof.Machine
end

