-- ==== Sys2Proof/Config.lean ====
section
/-!
DEFINITION. The free values: what the spec leaves open and the model must not fix. Each is an opaque constant, so no
proof can see what it is; a statement holds whatever it is. The assumption log names each one.
-/
namespace Sys2Proof.Config

/-- The last-place choice of a transcendental within its bound (R126): function code, input bits. Log entry 10. -/
opaque trnChoice : Nat → Nat → Nat

/-- A free byte string of the true random number generator (R451): counter, byte index. Log entry 11. -/
opaque trng : Nat → Nat → BitVec 8

/-- A signature by the module's signing engine (R450): key, message, counter, byte index. Log entry 12. -/
opaque sigByte : Nat → List (BitVec 8) → Nat → Nat → BitVec 8

/-- The public key of a key seed, byte by byte (R460). Log entry 12. -/
opaque pubByte : List (BitVec 8) → Nat → BitVec 8

/-- The destination frame an EMB chooses for a migrating stripe (R227): counter. Log entry 13. -/
opaque frameChoice : Nat → Nat

/-- Bytes of SPDM messages whose contents the DSP0274 standard, not this spec, lays out (R463): code, counter, index.
Log entry 14. -/
opaque spdmByte : Nat → Nat → Nat → BitVec 8

/-- The way a core's cache replaces on a miss (R155, a pseudo-LRU policy the spec leaves open): free counter. Log entry 16. -/
opaque cacheVictim : Nat → Nat

/-- Whether an offset of a window leads to a scratchpad of the other module (R161; the other module's mapping): module, window,
offset, free counter. Log entry 17. -/
opaque windowSpm : Nat → Nat → Nat → Nat → Bool

/-- The new code of a row element whose old code is a NaN or an infinity, for which an apply (R217) states no result: row key, element,
step. Log entry 18. -/
opaque trainNan : Nat → Nat → Nat → Nat

/-- The SHA-256 digest of the boot ROM, whose bytes the spec does not give (R465): byte index. Log entry 19. -/
opaque romDigest : Nat → BitVec 8

/-- The length of a primary mailbox answer (R365): opcode, counter. Log entry 20. -/
opaque mailboxLen : Nat → Nat → Nat

/-- The content of a primary mailbox answer that the CXL standard lays out (R365): opcode, counter, byte index. Log entry 20. -/
opaque mailboxByte : Nat → Nat → Nat → BitVec 8

/-- The module at the far end of a port, which LINK records name (R390) and the spec gives the module no way to learn: port. Log entry 22. -/
opaque peerModule : Nat → Nat

/-- Frames from the first sending of a link command to the frame at which it acts, where the spec does not give them (R339, R340, R343): port,
frame. Log entry 113. -/
opaque linkLead : Nat → Nat → Nat

end Sys2Proof.Config
end

