-- ==== Sys2Proof/Machine/Numerics.lean ====
section
/-!
DEFINITION. Number formats, scales, exact products and the one rounding of a write-out (02_numerics.md R46-R73), and
FP32/INT32 rounding for the vector engine (04_vector_engine.md R117, R118). Exact values are dyadic: m × 2^e.
-/
namespace Sys2Proof.Machine

/-- An exact dyadic value m × 2^e. -/
structure Dy where
  m : Int
  e : Int
  deriving DecidableEq, Repr

/-- Zero. -/
def Dy.zero : Dy := ⟨0, 0⟩
/-- The exact product. -/
def Dy.mul (a b : Dy) : Dy := ⟨a.m * b.m, a.e + b.e⟩
/-- The negation. -/
def Dy.neg (a : Dy) : Dy := ⟨-a.m, a.e⟩
/-- The absolute value. -/
def Dy.abs (a : Dy) : Dy := ⟨a.m.natAbs, a.e⟩
/-- The value times 2^k. -/
def Dy.scale2 (a : Dy) (k : Int) : Dy := ⟨a.m, a.e + k⟩
/-- The integer of `a` in units of 2^k, for k at or below its exponent. -/
def Dy.units (a : Dy) (k : Int) : Int := a.m * (2 : Int) ^ (a.e - k).toNat
/-- The exact sum. -/
def Dy.add (a b : Dy) : Dy :=
  let k := min a.e b.e
  ⟨a.units k + b.units k, k⟩
/-- The exact sum of a list. -/
def Dy.sum (l : List Dy) : Dy := l.foldl Dy.add Dy.zero
/-- Strictly below. -/
def Dy.lt (a b : Dy) : Bool :=
  let k := min a.e b.e
  decide (a.units k < b.units k)
/-- At or below. -/
def Dy.le (a b : Dy) : Bool := !(Dy.lt b a)
/-- Equal as values. -/
def Dy.eq (a b : Dy) : Bool := Dy.le a b && Dy.le b a

/-- An integer as a dyadic value. -/
def Dy.ofInt (i : Int) : Dy := ⟨i, 0⟩

/-- Truncation toward zero of one product in units of 2^A (R58), and whether it lost bits. -/
def Dy.trunc (p : Dy) (anchor : Int) : Int × Bool :=
  if anchor ≤ p.e then (p.units anchor, false)
  else
    let d := 2 ^ (anchor - p.e).toNat
    let q := p.m.natAbs / d
    (if p.m < 0 then -(q : Int) else (q : Int), p.m.natAbs % d ≠ 0)

/-- The value held by a floating-point code: a NaN, an infinity, or a signed finite value. -/
inductive Fp
  | nan
  | inf (neg : Bool)
  | num (neg : Bool) (v : Dy)
  deriving DecidableEq, Repr

/-- A floating-point format (R47): mantissa bits, exponent bits, bias, the code of the largest finite magnitude, and how
specials are coded. -/
structure FpFmt where
  mb : Nat
  eb : Nat
  bias : Nat
  maxCode : Nat
  infs : Bool
  nans : Bool
  deriving DecidableEq, Repr

/-- FP8 E4M3 (R47). -/
def fmtE4M3 : FpFmt := ⟨3, 4, 7, 0x7E, false, true⟩
/-- FP8 E5M2 (R47). -/
def fmtE5M2 : FpFmt := ⟨2, 5, 15, 0x7B, true, true⟩
/-- FP4 E2M1 (R47). -/
def fmtE2M1 : FpFmt := ⟨1, 2, 1, 0x7, false, false⟩
/-- BF16 (R47). -/
def fmtBF16 : FpFmt := ⟨7, 8, 127, 0x7F7F, true, true⟩
/-- FP32 (R47). -/
def fmtFP32 : FpFmt := ⟨23, 8, 127, 0x7F7FFFFF, true, true⟩
/-- IEEE binary16, as a scale (R54). -/
def fmtFP16 : FpFmt := ⟨10, 5, 15, 0x7BFF, true, true⟩

/-- The width of a format in bits. -/
def FpFmt.width (f : FpFmt) : Nat := 1 + f.eb + f.mb

/-- Read a code (R47): subnormals keep their exact value (R50). -/
def FpFmt.decode (f : FpFmt) (c : Nat) : Fp :=
  let neg := bitAt c (f.eb + f.mb)
  let mag := c % 2 ^ (f.eb + f.mb)
  if f.maxCode < mag then
    (if f.infs ∧ mag = (2 ^ f.eb - 1) * 2 ^ f.mb then .inf neg else .nan)
  else
    let e := mag / 2 ^ f.mb
    let m := mag % 2 ^ f.mb
    let v : Dy := if e = 0 then ⟨m, 1 - (f.bias : Int) - f.mb⟩
                  else ⟨(2 ^ f.mb + m : Nat), (e : Int) - f.bias - f.mb⟩
    .num neg (if neg then v.neg else v)

/-- floor(log2(n / d × 2^e)) of a positive value. -/
def ilog2 (n d : Nat) (e : Int) : Int :=
  let k : Int := (Nat.log2 n : Int) - Nat.log2 d
  let below : Bool := if 0 ≤ k then decide (n < d * 2 ^ k.toNat) else decide (n * 2 ^ (-k).toNat < d)
  (if below then k - 1 else k) + e

/-- n / d rounded to the nearest integer, ties to even. -/
def roundHalfEven (n d : Nat) : Nat :=
  let q := n / d
  let r := n % d
  if 2 * r < d then q else if d < 2 * r then q + 1 else q + q % 2

/-- n / d × 2^e in units of 2^q, rounded to nearest even. -/
def scaleRound (n d : Nat) (e q : Int) : Nat :=
  if q ≤ e then roundHalfEven (n * 2 ^ (e - q).toNat) d else roundHalfEven n (d * 2 ^ (q - e).toNat)

/-- n / d × 2^e in units of 2^q, rounded down. -/
def scaleFloor (n d : Nat) (e q : Int) : Nat :=
  if q ≤ e then (n * 2 ^ (e - q).toNat) / d else n / (d * 2 ^ (q - e).toNat)

/-- Whether n / d × 2^e is a whole number of units of 2^q. -/
def scaleExact (n d : Nat) (e q : Int) : Bool :=
  if q ≤ e then (n * 2 ^ (e - q).toNat) % d == 0 else n % (d * 2 ^ (q - e).toNat) == 0

/-- A rounded magnitude: its code (above `maxCode` when it overflows), and what the rounding did. -/
structure Rounded where
  code : Nat
  overflow : Bool
  inexact : Bool
  tiny : Bool
  deriving DecidableEq, Repr

/-- Round the magnitude n / d × 2^e into a format, to nearest, ties to even (R69, R117). Tininess is judged after
rounding with an unbounded exponent. -/
def FpFmt.round (f : FpFmt) (n d : Nat) (e : Int) : Rounded :=
  if n = 0 then ⟨0, false, false, false⟩
  else
    let emin : Int := 1 - (f.bias : Int)
    let k := ilog2 n d e
    let q := max k emin - f.mb
    let r := scaleRound n d e q
    let code := if r < 2 ^ f.mb then r else (q + f.mb + f.bias).toNat * 2 ^ f.mb + (r - 2 ^ f.mb)
    let r' := scaleRound n d e (k - f.mb)
    ⟨code, decide (f.maxCode < code), !(scaleExact n d e q),
     decide (k < emin) && !(decide (k = emin - 1) && decide (r' = 2 ^ (f.mb + 1)))⟩

/-- Put the sign on a magnitude code. -/
def FpFmt.signed (f : FpFmt) (neg : Bool) (mag : Nat) : Nat := b2n neg * 2 ^ (f.eb + f.mb) + mag

/-- The floating-point write-out conversion (R69, R70): saturates at the largest finite value, a zero is +0. Also says
whether it saturated (OSAT). The value is num / den × 2^e. -/
def FpFmt.writeOut (f : FpFmt) (num : Int) (den : Nat) (e : Int) : Nat × Bool :=
  let r := f.round num.natAbs den e
  let mag := if r.overflow then f.maxCode else r.code
  (if mag = 0 then 0 else f.signed (decide (num < 0)) mag, r.overflow)

/-- Round an exact quotient to the nearest integer, ties to even (R69). -/
def roundInt (num : Int) (den : Nat) (e : Int) : Int :=
  let r := scaleRound num.natAbs den e 0
  if num < 0 then -(r : Int) else (r : Int)

/-- The six VXE flags of R119, in the order of VXSTAT [5:0]. -/
structure VFlags where
  iv : Bool := false
  dz : Bool := false
  ovf : Bool := false
  uf : Bool := false
  pe : Bool := false
  sat : Bool := false
  deriving DecidableEq, Repr

/-- The OR of two flag sets. -/
def VFlags.or (a b : VFlags) : VFlags :=
  ⟨a.iv || b.iv, a.dz || b.dz, a.ovf || b.ovf, a.uf || b.uf, a.pe || b.pe, a.sat || b.sat⟩

/-- The flags as VXSTAT [5:0] (R120). -/
def VFlags.bits (f : VFlags) : Nat :=
  b2n f.iv + 2 * b2n f.dz + 4 * b2n f.ovf + 8 * b2n f.uf + 16 * b2n f.pe + 32 * b2n f.sat

/-- The canonical NaN (R117). -/
def nan32 : Nat := 0x7FC00000
/-- An FP32 infinity. -/
def inf32 (neg : Bool) : Nat := fmtFP32.signed neg 0x7F800000

/-- Round num / den × 2^e to FP32 as an arithmetic result (R117, R119); `negZero` is the sign of an exact zero. -/
def round32 (num : Int) (den : Nat) (e : Int) (negZero : Bool := false) : Nat × VFlags :=
  if num = 0 then (fmtFP32.signed negZero 0, ({ } : VFlags))
  else
    let neg := decide (num < 0)
    let r := fmtFP32.round num.natAbs den e
    if r.overflow then (inf32 neg, ({ ovf := true, pe := true } : VFlags))
    else (fmtFP32.signed neg r.code, ({ pe := r.inexact, uf := r.inexact && r.tiny } : VFlags))

/-- Round an exact dyadic value to FP32. -/
def round32Dy (v : Dy) (negZero : Bool := false) : Nat × VFlags := round32 v.m 1 v.e negZero

/-- Read FP32 bits. -/
def fp32 (b : W32) : Fp := fmtFP32.decode b.toNat

/-- Saturate an exact integer to 32 bits (R118). -/
def sat32 (x : Int) : W32 × VFlags :=
  if x < -(2 ^ 31) then (BitVec.ofInt 32 (-(2 ^ 31)), ({ sat := true } : VFlags))
  else if 2 ^ 31 - 1 < x then (BitVec.ofInt 32 (2 ^ 31 - 1), ({ sat := true } : VFlags))
  else (BitVec.ofInt 32 x, ({ } : VFlags))

/-- Whether an integer lies in the INT32 range (R73). -/
def inInt32 (x : Int) : Bool := decide (-(2 ^ 31) ≤ x) && decide (x ≤ 2 ^ 31 - 1)

/-- Element width in bits of a format code (R46); 0 for a reserved code. -/
def fmtWidth (f : Nat) : Nat :=
  match f with
  | 0 => 8 | 1 => 4 | 2 => 8 | 3 => 8 | 4 => 4 | 5 => 16 | 6 => 32 | 7 => 32 | _ => 0

/-- Whether a format code is one of the integer operand formats INT8 and INT4. -/
def fmtIsInt (f : Nat) : Bool := f == 0 || f == 1

/-- The floating-point format of a code, where it is one (R46). -/
def fpFmtOf (f : Nat) : Option FpFmt :=
  match f with
  | 2 => some fmtE4M3 | 3 => some fmtE5M2 | 4 => some fmtE2M1 | 5 => some fmtBF16 | 6 => some fmtFP32 | _ => none

/-- Two's complement value of the low `w` bits. -/
def signedOf (w v : Nat) : Int :=
  let x := v % 2 ^ w
  if x < 2 ^ (w - 1) then (x : Int) else (x : Int) - 2 ^ w

/-- The exact value of an operand element of a format code; none for a NaN or an infinity (R51). A negative zero is
zero (R50). -/
def elemValue (f code : Nat) : Option Dy :=
  match fpFmtOf f with
  | some ff => match ff.decode code with
    | .num _ v => some v
    | _ => none
  | none => some ⟨signedOf (fmtWidth f) code, 0⟩

/-- Whether two operand formats form a pair of R52. -/
def fmtPair (a b : Nat) : Bool :=
  (fmtIsInt a && fmtIsInt b) || ((2 ≤ a && a ≤ 4) && (2 ≤ b && b ≤ 4)) || (a == 5 && b == 5)

/-- Whether a pair is held two rows per cell (R80): both operands of four bits. -/
def fmtPair4 (a b : Nat) : Bool := fmtWidth a == 4 && fmtWidth b == 4

/-- An E8M0 scale code (R54): none for 0xFF. -/
def e8m0 (c : Nat) : Option Dy := if c = 255 then none else some ⟨1, (c : Int) - 127⟩

/-- An FP16 scale (R51, R54): positive and normal, or either zero. -/
def fp16Scale (c : Nat) : Option Dy :=
  if c = 0 ∨ c = 0x8000 then some Dy.zero
  else if 0x8000 ≤ c then none
  else if c < 0x400 then none
  else match fmtFP16.decode c with
    | .num _ v => some v
    | _ => none

/-- The group size of a GSZ code (R53). -/
def groupSize (g : Nat) : Nat := if g = 0 then 32 else if g = 1 then 64 else 128

/-- Bytes of one scale of an encoding (R55). -/
def scaleBytes (scl : Nat) : Nat := if scl = 2 then 2 else if scl = 1 then 1 else 0

/-- Read one group scale (R53-R55). -/
def scaleValue (scl code : Nat) : Option Dy :=
  if scl = 0 then some ⟨1, 0⟩ else if scl = 1 then e8m0 code else fp16Scale code

/-- Exact square root in units: floor of the root of n. -/
def isqrtFuel : Nat → Nat → Nat → Nat
  | 0, _, x => x
  | k + 1, n, x => let y := (x + n / x) / 2; if y < x then isqrtFuel k n y else x

/-- The integer square root (Newton's iteration from above). -/
def isqrt (n : Nat) : Nat := if n = 0 then 0 else isqrtFuel (Nat.log2 n + 2) n (2 ^ (Nat.log2 n / 2 + 1))

end Sys2Proof.Machine
end

