-- ==== Sys2Proof/Machine/TypesCore.lean ====
section
/-!
DEFINITION. What one core position holds: dispatcher, queues, matrix array and matrix-vector path, vector engine,
scratchpad, arrival counters, control page, task registers (02, 03, 04, 05).
Times are CCLK counts of the core clock. A position is p = 18 d + c (R389).
-/
namespace Sys2Proof.Machine

/-- CSTAT.STATE (R166). -/
inductive CoreSt
  | idle | run | wait | replay | halted | switch | benched
  deriving DecidableEq, Repr

/-- CSTAT.STATE as read (R166). -/
def CoreSt.code : CoreSt → Nat
  | .idle => 0 | .run => 1 | .wait => 2 | .replay => 3 | .halted => 4 | .switch => 5 | .benched => 6

/-- A task state record (R167). -/
structure TaskRec where
  code : Nat
  trapen : Nat
  creset : Nat
  budget : Nat
  cmdref : Nat
  deriving DecidableEq, Repr

/-- A queue entry: a gate marker, or an instruction with its word and the CCLK of its dispatch (R138, R141). -/
inductive QItem
  | gate (time : Nat)
  | instr (i : CoreInstr) (w : Nat) (at' : Nat)
  deriving DecidableEq, Repr

/-- A held weight tile (R83): every element with its scales applied, as exact values. -/
structure Held where
  fmt : Nat
  scl : Nat
  gsz : Nat
  tsc : Nat
  kv : Nat
  nv : Nat
  rows : List (List Dy)
  ldw : MxLdw
  deriving DecidableEq, Repr

/-- A weight buffer (R83-R85). -/
structure WBuf where
  held : Option Held := none
  readyAt : Nat := 0
  releaseAt : Nat := 0
  deriving DecidableEq, Repr

/-- A logged pass (R101): the instruction with its word, and the MX.LDW that filled its buffer. -/
structure Pass where
  ldw : Option MxLdw
  mul : CoreInstr
  word : Nat := 0
  deriving DecidableEq, Repr

/-- A replay in progress (R102): the CCLK of its trigger, of its first pass, and of the end of its reloads. -/
structure Replaying where
  since : Nat
  start : Nat
  stop : Nat
  deriving DecidableEq, Repr

/-- An operation of the MXA or MVP with its log, checksums and triggers (R96, R97, R101, R104). -/
structure MatOp where
  tile : Nat
  anchor : Int
  base : Int
  astep : Nat
  rmax : Nat
  replays : Nat := 0
  intOp : Bool
  products : Nat := 0
  trigger : Bool := false
  trunc : Bool := false
  passes : List Pass := []
  rowChk : Table Int := []
  colChk : Table Int := []
  rowBound : Nat := 0
  colBound : Nat := 0
  judgeAt : Nat := 0
  judged : Bool := false
  replaying : Option Replaying := none
  rally : Option Nat := none
  deriving DecidableEq, Repr

/-- An ACM tile: the status word of R61, and what the MXA keeps with the tile (R72, R98). -/
structure Tile where
  anchor : Int := 0
  replays : Nat := 0
  satReplays : Nat := 0
  osh : Int := 0
  trunc : Bool := false
  osat : Bool := false
  done : Bool := false
  intOp : Bool := false
  rmax : Nat := 0
  inFlight : Nat := 0
  rdaFlight : Nat := 0
  out : Bool := false
  deriving DecidableEq, Repr

/-- The tile status word (R61). -/
def Tile.word (t : Tile) : W32 :=
  BitVec.ofNat 32 ((t.anchor % 1024).toNat * 2 ^ 22 + t.replays * 2 ^ 18 + t.satReplays * 2 ^ 14
    + (t.osh % 128).toNat * 2 ^ 7 + b2n t.trunc * 64 + b2n t.osat * 32 + b2n t.done * 16)

/-- The foreground streams of the narrow ports (R148). -/
inductive Stream
  | mxActivation | mxLoad | mxLoadScales | mxStreamScales | mxWriteOut | mvVector | vxLoadStore | vxScale | dl | ct | fetch
  deriving DecidableEq, Repr

/-- A stream's place in the table of R148, which a scorecard records (R149); the model's numbering. -/
def Stream.code : Stream → Nat
  | .mxActivation => 0 | .mxLoad => 1 | .mxLoadScales => 2 | .mxStreamScales => 3 | .mxWriteOut => 4 | .mvVector => 6
  | .vxLoadStore => 7 | .vxScale => 8 | .dl => 9 | .ct => 10 | .fetch => 11

/-- A stream's place in the order of R149, MX, MV, VX, DL, CT; fetch never loses. -/
def Stream.order : Stream → Nat
  | .mxActivation | .mxLoad | .mxLoadScales | .mxStreamScales | .mxWriteOut => 1
  | .mvVector => 2 | .vxLoadStore | .vxScale => 3 | .dl => 4 | .ct => 5 | .fetch => 0

/-- Narrow-port accesses of one instruction (R149): one bank, one access at `first`, `first + stride`, … -/
structure Access where
  stream : Stream
  queue : QueueId
  bank : Nat
  first : Nat
  count : Nat
  stride : Nat
  issued : Nat
  word : Nat
  deriving DecidableEq, Repr

/-- What a foreground engine does to the SPM in one CCLK (R152, R154): bytes written, a block that is now whole and FRESH with its
Seal, bytes skimmed to zero, a granule's new tag. -/
inductive SpmAct
  | bytes (addr : Nat) (bs : List Byte)
  | fresh (block : Nat) (sealVal : W32)
  | zero (addr len : Nat)
  | tag (gran val : Nat)
  deriving DecidableEq, Repr

/-- What an issued instruction does to the SPM in a later CCLK (R100, R115, R156, R164). -/
structure SpmDue where
  time : Nat
  queue : QueueId
  issued : Nat
  acts : List SpmAct
  deriving DecidableEq, Repr

/-- The bytes a background write replaced, and its CCLK (R151). -/
structure SpmWas where
  time : Nat
  addr : Nat
  bs : List Byte
  deriving DecidableEq, Repr

/-- A 4 KiB SPM block's Seal and state bit (R154); `lost` is the LOST state of R476. -/
structure SpmBlock where
  fresh : Bool := false
  sealVal : W32 := 0
  lost : Bool := false
  deriving DecidableEq, Repr

/-- A result of the VXE not yet readable (R116). -/
structure VPend where
  mask : Bool
  reg : Nat
  upto : Nat
  deriving DecidableEq, Repr

/-- A trap raised under TRAPEN, taken when the results become readable (R121). -/
structure VTrap where
  time : Nat
  word : Nat
  flags : Nat
  deriving DecidableEq, Repr

/-- Why TCK is stopped (R139). -/
inductive Pause
  | waitc (cnt : Nat) (target : Nat) (bound : Nat) (since : Nat)
  | dtFull (since : Nat)
  deriving DecidableEq, Repr

/-- Per queue values: issue times, port-free times. -/
structure PerQueue where
  mx : Nat := 0
  mv : Nat := 0
  vx : Nat := 0
  dt : Nat := 0
  dl : Nat := 0
  ct : Nat := 0
  deriving DecidableEq, Repr

/-- One core position. -/
structure Core where
  st : CoreSt := .idle
  overrun : Bool := false
  task : Option TaskRec := none
  ondeck : Option TaskRec := none
  pc : Nat := 0
  fetchAddr : Nat := 0
  fetchAt : Nat := 0
  dispatchAt : Nat := 0
  started : Option Nat := none
  stoppedTck : Nat := 0
  stoppedEtk : Nat := 0
  pause : Option Pause := none
  replaySince : Option Nat := none
  pausedTotal : Nat := 0
  replayEnd : Nat := 0
  resumeAt : Nat := 0
  fetchBuf : List (Nat × Option Cause) := []
  ended : Bool := false
  ending : Bool := false
  cacheWait : Option Nat := none
  lastDispatch : Option Nat := none
  lastFetch : Option Nat := none
  qMx : List QItem := []
  qMv : List QItem := []
  qVx : List QItem := []
  qDt : List QItem := []
  qDl : List QItem := []
  qCt : List QItem := []
  lastIssue : PerQueue := {}
  portFree : PerQueue := {}
  loadFree : Nat := 0
  woFree : Nat := 0
  completeAt : Nat := 0
  wb0 : WBuf := {}
  wb1 : WBuf := {}
  lastLdw0 : Option MxLdw := none
  lastLdw1 : Option MxLdw := none
  tiles : Table Tile := []
  acm : Table W128 := []
  mxaOpen : Option MatOp := none
  mvpOpen : Option MatOp := none
  mxaDone : List MatOp := []
  mvpDone : List MatOp := []
  vregs : Table (List W32) := []
  vtags : Table Nat := []
  masks : Table Nat := []
  vpend : List VPend := []
  vtraps : List VTrap := []
  vxstat : W32 := 0
  vxNew : Nat × Nat := (0, 0)
  hgctl : W64 := 0
  hist : Table Nat := []
  hgEdges : List Dy := []
  hgOvfAt : Option Nat := none
  cachectl : W32 := 0
  cache : Table (List Byte) := []
  arr : Table W32 := []
  arrNew : Table (Nat × Nat) := []
  rtags : Table Nat := []
  spm : Memory := []
  due : List SpmDue := []
  was : List SpmWas := []
  blocks : Table SpmBlock := []
  accesses : List Access := []
  deriving DecidableEq, Repr

end Sys2Proof.Machine
end

