-- ==== Sys2Proof/Machine/TypesEmb.lean ====
section
/-!
DEFINITION. What the embedding engines hold (07_embedding_engine.md): lookup requests and the shares of their homes, update requests,
combine banks, home map caches, heat, tracked and replicated rows, and moves of stripes. Rows and stripes of tables are keyed
table × 2^32 + number; a slot of a bag is keyed bag × 4,096 + element, the check slot following the last element (R411).
-/
namespace Sys2Proof.Machine

/-- A lookup request at its entry EMB (R200-R203). Its homes, and those yet to report, are a stack of this module or 256 + a module. Of each
other module, `sent` holds the index entries forwarded to it, `parts` the occurrences that its partials have brought by module × 16 + chunk
of 256 values, `dones` whether its DONE has come (R355). -/
structure Look where
  tag : Nat
  st : Nat
  pos : Nat
  ref : Nat
  table : Nat
  desc : Nat
  step : Nat
  gen : Nat
  round : Nat := 0
  mode : Nat
  fmto : Nat
  osh : Int
  plan : Nat
  valid : Nat
  out : Nat
  ostride : Nat
  cnt : Nat
  cen : Bool
  sclass : Nat
  claim : Nat
  slots : Table Int := []
  occ : Table Nat := []
  pairs : Nat := 0
  trunc : Bool := false
  trigger : Bool := false
  chkBad : Bool := false
  homes : List Nat := []
  waiting : List Nat := []
  sent : Table Nat := []
  parts : Table Nat := []
  dones : List Nat := []
  deriving DecidableEq, Repr

/-- What one home pools of a request (R203 stages 3 to 7): the requester's module, entry stack and tag; `rows` are its distinct rows
in order, each with its bags and multiplicities, `left` those not yet fetched in this round, `at'` the stack and frame where the route stage
found each. Shares are numbered in the order in which they were routed; one of another module's request has `ended` once its DONE has been
answered. -/
structure Share where
  src : Nat
  st : Nat
  tag : Nat
  home : Nat
  table : Nat
  desc : Nat
  step : Nat
  eff : Nat
  gen : Nat
  ref : Nat
  round : Nat := 0
  exact : Bool := false
  rows : List (Nat × List (Nat × Nat))
  left : List (Nat × List (Nat × Nat))
  at' : List (Nat × Nat × Nat) := []
  slots : Table Int := []
  occ : Table Nat := []
  pairs : Nat := 0
  trunc : Bool := false
  trigger : Bool := false
  chkBad : Bool := false
  pooled : Bool := false
  seq : Nat := 0
  ended : Bool := false
  deriving DecidableEq, Repr

/-- Index entries arriving from another module (R355): their count once SENT has arrived. -/
structure Inbound where
  src : Nat
  st : Nat
  tag : Nat
  table : Nat
  step : Nat
  gen : Nat
  ref : Nat
  entries : List (Nat × Nat) := []
  count : Option Nat := none
  deriving DecidableEq, Repr

/-- An update request at its entry EMB (R213, R216): the transfer that posted it, its stamp, its partial rows not yet acknowledged, in all and
by home (a stack of this module, or 256 + a module). -/
structure Upd where
  tag : Nat
  st : Nat
  pos : Nat
  ref : Nat
  xfer : Nat
  step : Nat
  left : Nat
  homes : Table Nat := []
  deriving DecidableEq, Repr

/-- Pieces of a partial row arriving from another module (R355), with the packets that brought them, to be answered once combined (R350). -/
structure Pieces where
  src : Nat
  st : Nat
  tag : Nat
  row : Nat
  parts : List (Nat × List Int) := []
  acks : List Packet := []
  deriving DecidableEq, Repr

/-- An update request as a home knows it: module, entry stack, tag and command. -/
structure Feed where
  src : Nat
  st : Nat
  tag : Nat
  ref : Nat
  deriving DecidableEq, Repr

/-- A combining entry (R214): its slots, its check slot (R411), the partials accepted, the requests that fed it (R236). -/
structure Entry where
  vals : List Int := []
  chk : Int := 0
  n : Nat := 0
  feeds : List Feed := []
  deriving DecidableEq, Repr

/-- A partial row at a home (R214), of the request it acknowledges; `acks` are the packets that brought it, `waited` whether it waited for the
next open bank (R215). -/
structure Partial where
  feed : Feed
  key : Nat
  vals : List Int
  chkBad : Bool
  acks : List Packet := []
  waited : Bool := false
  deriving DecidableEq, Repr

/-- An EMB: its two combine banks, the closed banks whose apply waits (R212), the partial rows that wait for the next open bank (R215), its home
map cache with the most recent first, its hot-row tracker, the rows whose promotion waits for space (R220), and the rows its row cache holds
with their bytes and the most recent first (R221). -/
structure EmbUnit where
  bank : Table Entry := []
  nextBank : Table Entry := []
  closing : List (Nat × Table Entry) := []
  defer : List Partial := []
  hmap : List (Nat × Nat) := []
  tracker : List (Nat × Nat) := []
  promote : List Nat := []
  rowCache : List (Nat × Nat) := []
  deriving DecidableEq, Repr

/-- A replicated row (R220): its home, its occurrences of this cycle, and whether it is served from replicas, is entering, or leaving. -/
inductive ReplSt
  | entering | serving | leaving
  deriving DecidableEq, Repr

/-- A replicated row. -/
structure Repl where
  key : Nat
  home : Nat
  bytes : Nat
  count : Nat := 0
  st : ReplSt := .entering
  deriving DecidableEq, Repr

/-- Migration states (MIGSTATUS, R227). -/
inductive MigSt
  | none | copy | dual | done | lost | waiting
  deriving DecidableEq, Repr

/-- MIGSTATUS as read. -/
def MigSt.code : MigSt → Nat
  | .none => 0 | .copy => 1 | .dual => 2 | .done => 3 | .lost => 4 | .waiting => 5

/-- A move of a stripe (R222, R224). `asked` is the stack the request names; `sent` says that its blocks have been sent to another module;
`switchSeq` is the number of the first share routed after the switch. -/
structure Mig where
  key : Nat
  srcSt : Nat
  srcFrame : Nat
  dstMod : Nat
  asked : Nat
  dstSt : Nat := 0
  dstFrame : Nat := 0
  st : MigSt
  auto : Bool := false
  sent : Bool := false
  switched : Bool := false
  switchSeq : Nat := 0
  deriving DecidableEq, Repr

/-- A stripe arriving from another module: the frames chosen for it (R224). -/
structure MigIn where
  key : Nat
  src : Nat
  st : Nat
  frame : Nat
  deriving DecidableEq, Repr

/-- An update partial forwarded from an old home to a new one (R224): the tag used, the partial, and the stack of its entry here. -/
structure Relay where
  tag : Nat
  home : Nat
  part : Partial
  deriving DecidableEq, Repr

/-- The embedding engines of the module. -/
structure Emb where
  units : Table EmbUnit := []
  looks : List Look := []
  shares : List Share := []
  inbound : List Inbound := []
  upds : List Upd := []
  pieces : List Pieces := []
  relays : List Relay := []
  nextTag : Nat := 0
  nextShare : Nat := 0
  stepEdges : Option Nat := none
  opened : Bool := false
  gens : Table W16 := []
  commits : Table (Option Nat) := []
  heat : Table Nat := []
  heatNow : Table Nat := []
  heatEdges : Nat := 0
  repls : List Repl := []
  migs : List Mig := []
  migIns : List MigIn := []
  migKey : Option Nat := none
  migLast : MigSt := .none
  lost : List Nat := []
  sats : Table Nat := []
  deriving DecidableEq, Repr

end Sys2Proof.Machine
end

