-- ==== Sys2Proof/Machine/TypesHost.lean ====
section
/-!
DEFINITION. What the host attachment holds (13_host_cxl.md): link, configuration space, HDM decoder, MSI-X, snoop filter,
stores awaiting their acknowledgement, event log, counters.
-/
namespace Sys2Proof.Machine

/-- An MSI-X table entry (R381): reset value masked and never written. -/
structure MsixEntry where
  addr : Nat := 0
  data : Nat := 0
  mask : Bool := true
  written : Bool := false
  deriving DecidableEq, Repr

/-- A back-invalidate of one 64 B window line (R374): its DPA, whether it invalidates, whether it has been answered. -/
structure BackInv where
  line : Nat
  inv : Bool
  answered : Bool := false
  deriving DecidableEq, Repr

/-- A store to host memory awaiting its global observation (R368): the command, the bytes' place, and the transfer unit or the ring it serves,
with the ring's record. -/
structure HostStore where
  id : Nat
  ref : Nat
  addr : Nat := 0
  len : Nat := 0
  xfer : Option (Nat × Nat) := none
  ring : Option Nat := none
  words : List Nat := []
  sentAt : Nat := 0
  deriving DecidableEq, Repr

/-- A read of host memory awaiting its data (R368): the command and the transfer it serves. -/
structure HostRead where
  id : Nat
  ref : Nat
  xfer : Nat
  src : Nat
  addr : Nat
  len : Nat
  sentAt : Nat := 0
  deriving DecidableEq, Repr

/-- The host side. -/
structure HostSide where
  linkUp : Bool := false
  perst : Bool := false
  active : Nat := 0
  width : Nat := 0
  speed : Nat := 0
  downAt : Option Nat := none
  chargeNext : Option Nat := none
  memEnable : Bool := false
  bar0 : Nat := 0
  bar2 : Nat := 0
  cfg : Table Byte := []
  decBase : Nat := 0
  decWays : Nat := 1
  decCommitted : Bool := false
  decLock : Bool := false
  decError : Bool := false
  msixEnable : Bool := false
  funcMask : Bool := false
  msix : Table MsixEntry := []
  pba : Nat := 0
  snoop : List Nat := []
  bi : List BackInv := []
  stores : List HostStore := []
  reads : List HostRead := []
  nextId : Nat := 0
  losses : Nat := 0
  poisonRx : Nat := 0
  poisonTx : Nat := 0
  mbxDrops : Nat := 0
  barErr : Nat := 0
  deriving DecidableEq, Repr

end Sys2Proof.Machine
end

