-- ==== Sys2Proof/Machine/TypesLink.lean ====
section
/-!
DEFINITION. What the Farast links hold (12_farast_links.md): ports, lanes, the link layer, end-to-end delivery, the rally entries.
-/
namespace Sys2Proof.Machine

/-- Lane states (R337). -/
inductive LaneSt
  | off | train | active | spare | shadow | failed
  deriving DecidableEq, Repr

/-- LSTATE codes (R360). -/
def LaneSt.code : LaneSt → Nat
  | .off => 0 | .train => 1 | .active => 2 | .spare => 3 | .shadow => 4 | .failed => 5

/-- A physical lane: its two directions, its equalizer taps and readout (R336). -/
structure Lane where
  rx : LaneSt := .off
  tx : LaneSt := .off
  txffe : List Int := [0, 0, 0, 0]
  rxffe : List Int := List.replicate 16 0
  ctle : Nat := 0
  dfe : Int := 0
  readout : List Byte := List.replicate 64 0
  pin : Nat := 0
  retrain : Bool := false
  deriving DecidableEq, Repr

/-- Port states (R360, PSTATE). -/
inductive PortSt
  | down | training | up | narrow
  deriving DecidableEq, Repr

/-- PSTATE codes (R360). -/
def PortSt.code : PortSt → Nat
  | .down => 0 | .training => 1 | .up => 2 | .narrow => 3

/-- A packet held in the retry buffer (R346). -/
structure HeldPkt where
  lseq : W16
  pkt : Packet
  resends : Nat := 0
  deriving DecidableEq, Repr

/-- A link command being sent or awaited (R343): its code, position or lane, and the frame at which it acts. -/
structure LinkCmd where
  code : Nat
  pos : Nat
  actsAt : Nat
  deriving DecidableEq, Repr

/-- A receive-side replacement in progress (R338, R339). -/
structure Mirror where
  pos : Nat
  lane : Nat
  spare : Nat
  since : Nat
  deriving DecidableEq, Repr

/-- What waits for the link command in progress (R340, R341): the replacement of a lane, reactive or proactive, or the return of a retrained
lane. -/
inductive Trigger
  | replace (lane : Nat) (reactive : Bool)
  | widen (lane : Nat)
  deriving DecidableEq, Repr

/-- A port (R332-R346). Lists by virtual channel are in the order VC0 to VC3; `rxMap` and `txMap` give the physical lane of each logical position.
`credRet` are flits moved out of the buffer and not yet returned as credit, `credTot` the running totals sent; `txMirror` the position whose
codewords the transmit spare copies, `eqOut` steps to send for the far transmitter's taps (lane, tap, direction), `repair` that the port went DOWN
and trains in repair slots. -/
structure Port where
  st : PortSt := .down
  lanes : List Lane := List.replicate 9 {}
  rxMap : List Nat := []
  txMap : List Nat := []
  rtt : Nat := 0
  credit : List Nat := [256, 3072, 3072, 3072]
  credSeen : List Nat := [0, 0, 0, 0]
  credRet : List Nat := [0, 0, 0, 0]
  credTot : List Nat := [0, 0, 0, 0]
  txNext : W16 := 0
  held : List HeldPkt := []
  progressAt : Nat := 0
  resentAt : Nat := 0
  rxNext : W16 := 0
  nak : Bool := false
  missed : Nat := 0
  waiting : List (Nat × Packet) := []
  sendCmd : Option LinkCmd := none
  peerCmd : Option LinkCmd := none
  mirror : Option Mirror := none
  txMirror : Option Nat := none
  queued : List Trigger := []
  eqOut : List (Nat × Nat × Nat) := []
  repair : Bool := false
  charged : Nat := 0
  csym : Nat := 0
  ucw : Nat := 0
  lresends : Nat := 0
  eresends : Nat := 0
  failovers : Nat := 0
  drops : Nat := 0
  deriving DecidableEq, Repr

/-- Who owns an end-to-end request (R350). -/
inductive ReqOwner
  | unit (xfer : Nat) (unit : Nat) (read : Bool)
  | emb (tag : Nat)
  | embHome (src : Nat) (st : Nat) (tag : Nat)
  | rally (pos : Nat) (entry : Nat)
  | mig (table : Nat) (stripe : Nat) (blk : Nat)
  | cfe (ref : Nat)
  | cfeRead (dva : Nat) (len : Nat)
  deriving DecidableEq, Repr

/-- A request awaiting its answer (R350): when it was first sent and last sent, how often it was sent again unanswered; `notArmed` when the answer
NOT_ARMED came (R358). -/
structure E2e where
  dst : Nat
  eseq : Nat
  pkt : Packet
  owner : ReqOwner
  sentAt : Nat
  lastAt : Nat
  resends : Nat := 0
  notArmed : Option Nat := none
  port : Option Nat := none
  deriving DecidableEq, Repr

/-- What a receiver keeps of a source module (R351): epoch last seen, highest ESEQ applied, the marked ESEQs of its window. -/
structure SrcWin where
  epoch : Option Nat := none
  high : Option Nat := none
  marked : List Nat := []
  deriving DecidableEq, Repr

/-- A child of a rally node: source module, position and entry, and whether its tile has arrived whole (R357). -/
structure Child where
  mod : Nat
  pos : Nat
  entry : Nat
  slots : Nat := 0
  whole : Bool := false
  deriving DecidableEq, Repr

/-- A rally entry in use (R357-R359): `own` once the own tile is an input, `sums` the children's parts that came before it, `got` the
final sums received. -/
structure Rally where
  armed : Bool := false
  pos : Nat := 0
  tile : Nat := 0
  ref : Nat := 0
  eng : MatEngine := .mxa
  round : Nat := 0
  anchor : Int := 0
  armedAt : Nat := 0
  pcount : Nat := 0
  trigger : Bool := false
  own : Bool := false
  sums : Table Int := []
  got : Nat := 0
  children : List Child := []
  sent : Bool := false
  deriving DecidableEq, Repr

/-- The links of the module. -/
structure Links where
  ports : Table Port := []
  nextEseq : Table Nat := []
  reqs : List E2e := []
  backlog : List (Nat × Packet × ReqOwner) := []
  trainOk : Bool := false
  srcs : Table SrcWin := []
  rally : Table Rally := []
  deriving DecidableEq, Repr

end Sys2Proof.Machine
end

