-- ==== Sys2Proof/Machine/TypesMem.lean ====
section
/-!
DEFINITION. What the memory system, the translation units and the data movers hold (05_core_programs.md R157-R163,
08_memory_system.md, 09_address_translation.md).
-/
namespace Sys2Proof.Machine

/-- Map-out states (R244, MOSTATE). -/
inductive MoState
  | none | drain | copy | done | refused
  deriving DecidableEq, Repr

/-- MOSTATE as read (R244). -/
def MoState.code : MoState → Nat
  | .none => 0 | .drain => 1 | .copy => 2 | .done => 3 | .refused => 4

/-- An HBM stack: mapped-out channels, the map-out in progress, the bad-block list, error counts (R232-R238, R244). `hour` is
per channel the start of the current hour and the corrected errors counted in it (R233 step 1), `moWait` the channels whose automatic trigger
waits for the map-out in progress. -/
structure Stack where
  chmap : Nat := 0
  mo : MoState := .none
  moChan : Nat := 0
  copied : Bool := false
  charged : Nat := 0
  bad : List Nat := []
  ceCount : Nat := 0
  ueCount : Nat := 0
  ueSeen : Nat := 0
  hour : Table (Nat × Nat) := []
  moWait : List Nat := []
  deriving DecidableEq, Repr

/-- Channels mapped out (R232). -/
def Stack.m (s : Stack) : Nat := ((List.range 32).filter (fun c => bitAt s.chmap c)).length

/-- A foundation die's SLM: units being skimmed (R234), and its cache: lines present with the newest last, fills outstanding with
their cancellation (R235). -/
structure Slm where
  skimming : List Nat := []
  lines : List Nat := []
  fills : List (Nat × Bool) := []
  deriving DecidableEq, Repr

/-- Target kinds of a page (R250). -/
inductive Tgt
  | local' | host | window
  deriving DecidableEq, Repr

/-- A translation entry: `n` pages of `page` bytes from DVA `lo` (R252, R253). -/
structure Tlb where
  lo : Nat
  page : Nat
  n : Nat
  tgt : Tgt
  w : Bool
  addr : Nat
  deriving DecidableEq, Repr

/-- A walk-cache entry: the table a DVA range's next level lies in (R252). -/
structure WalkPtr where
  level : Nat
  lo : Nat
  span : Nat
  table : Nat
  deriving DecidableEq, Repr

/-- A queued invalidation (R259): first DVA, pages (0 for all). -/
structure XInv where
  lo : Nat
  pages : Nat
  deriving DecidableEq, Repr

/-- Where a miss stands (R255): in its class's queue, or walked by a reserved or by a shared engine. -/
inductive WalkEng
  | queued | reserved | shared
  deriving DecidableEq, Repr

/-- A miss at a walker (R252, R254, R255): the page, its stream class, the miss slots that wait on it (translation unit, transfer, DVA), when
it arrived; `stale` once an invalidation has passed it in flight (R259). -/
structure Miss where
  die : Nat
  page : Nat
  cls : Nat
  slots : List (Nat × Nat × Nat)
  since : Nat
  eng : WalkEng := .queued
  stale : Bool := false
  deriving DecidableEq, Repr

/-- A page that a transfer has translated (R254, R259). -/
structure PageHeld where
  page : Nat
  tgt : Tgt
  w : Bool
  addr : Nat
  deriving DecidableEq, Repr

/-- The translation units (R252). XU numbers: 0 to 143 the cores, 144 + s the EMBs, 160 the CFE, 161 and 162 inbound. `misses` are in
order of arrival, the lower class first in one BCLK. -/
structure Xlate where
  misses : List Miss := []
  tlbs : Table (List Tlb) := []
  l2 : Table (List Tlb) := []
  wcache : Table (List WalkPtr) := []
  queue : List XInv := []
  invdone : W32 := 0
  faults : Nat := 0
  walks : Nat := 0
  deriving DecidableEq, Repr

/-- An end of a transfer: a byte offset in the issuing core's SPM, a DVA (R158), or a port named by a CFE request (R306). -/
inductive Loc
  | spm (off : Nat)
  | dva (a : Nat)
  | port (n : Nat)
  deriving DecidableEq, Repr

/-- How a transfer stands: moving, failed, or all units delivered and awaiting the last acknowledgement (R160). -/
inductive XferSt
  | moving | failed | delivered
  deriving DecidableEq, Repr

/-- A transfer of a DMV (R157-R163). `next` is the next unit in transfer order; `sent` units await an end-to-end answer; `held` are the
pages translated for the units it moves now. A transfer of an EMB's output or of a CFE request names the translation unit it uses in `xu`; a
CFE request carries the `step` at which it was posted (R199). -/
structure Xfer where
  id : Nat
  light : Bool
  pos : Nat
  xu : Option Nat := none
  ref : Nat
  src : Loc
  dst : Loc
  rows : Nat
  rlen : Nat
  sstr : Nat
  dstr : Nat
  transpose : Bool := false
  esz : Nat := 0
  cnt : Nat := 0
  cen : Bool := false
  scnt : Nat := 0
  scen : Bool := false
  sclass : Nat := 0
  cached : Bool := false
  desc : List Byte := []
  lite : List Nat := []
  next : Nat := 0
  sent : List Nat := []
  got : List (Nat × List Byte) := []
  held : List PageHeld := []
  step : Option Nat := none
  released : Bool := false
  st : XferSt := .moving
  deriving DecidableEq, Repr

/-- A request arriving in, or held by, an EMB port or the atomic port (R239, R248): the transfer it comes by, its bytes so far,
its core and command, and the step stamped by the sender (R199). -/
structure PortReq where
  xfer : Nat
  port : Nat
  pos : Nat
  ref : Nat
  bytes : List Byte
  step : Nat := 0
  whole : Bool := false
  deriving DecidableEq, Repr

/-- What the memory side of the module holds. `dram` is HBM and SLM by DPA; `seals` the Seal of each 4 KiB block. -/
structure Mem where
  dram : Memory := []
  seals : Table W32 := []
  hbms : Table Stack := []
  slms : Table Slm := []
  xl : Xlate := {}
  xfers : List Xfer := []
  nextXfer : Nat := 0
  ports : List PortReq := []
  deriving DecidableEq, Repr

end Sys2Proof.Machine
end

