-- ==== Sys2Proof/Machine/TypesMgmt.lean ====
section
/-!
DEFINITION. What the management controller holds: repair (17_selftest_repair.md), the journal and the staging set
(15_marmas_dictionary.md), security (16_security_attestation.md), power (18_power_clocks_emc.md), fuses, flash and start-up
(19_package_startup.md).
-/
namespace Sys2Proof.Machine

/-! ### Repair -/

/-- Position states (R472). -/
inductive PState
  | inService | spare | benching | benched | testing | retired | fusedOut | lost
  deriving DecidableEq, Repr

/-- PSTATE as read (R485). -/
def PState.code : PState → Nat
  | .inService => 0 | .spare => 1 | .benching => 2 | .benched => 3 | .testing => 4 | .retired => 5 | .fusedOut => 6 | .lost => 7

/-- The bench in progress (R475): the core, its substitute, whether the copy has begun, and whether it has ended and verified. -/
structure Bench where
  core : Nat
  sub : Option Nat
  copying : Bool := false
  copied : Bool := false
  deriving DecidableEq, Repr

/-- A blowing of fuses in progress (R467, R482): of repair entries, or of the SVN up to a level; its start and its entries. -/
structure Blow where
  svn : Option Nat
  since : Nat
  n : Nat
  deriving DecidableEq, Repr

/-- The repair side. `stood` is the position a core stood for when it left service; `unplaced` names the phases of commands that a position's loss left without a placement; `mbUnits` marks the units of a position tested in this round (R480); `pend` holds the soft entries (R482). -/
structure Repair where
  pst : Table PState := []
  bench : Option Bench := none
  queue : List (Nat × Option Nat) := []
  lost : List Nat := []
  unplaced : List (Nat × List Nat) := []
  stood : Table Nat := []
  bist : Table Nat := []
  mbUnits : Table Nat := []
  mbLast : Table Nat := []
  pend : List Nat := []
  fuses : Table Nat := []
  used : List Nat := []
  blow : Option Blow := none
  scanOpen : List Nat := []
  deriving DecidableEq, Repr

/-! ### Journal and staging -/

/-- A journal entry (R444). -/
structure JEntry where
  jseq : Nat
  etime : Nat
  kind : Nat
  transport : Nat
  eid : Nat
  key : Nat
  keyid : Nat
  cyc : Nat
  prev : List Byte
  old : List Byte
  new : List Byte
  deriving DecidableEq, Repr

/-- An accepted write not yet in force: a LIVE one with the cycle whose edge it waits for, or a staged one (R426, R429). -/
structure Waiting where
  jseq : Nat
  key : Nat
  value : List Byte
  eff : Nat := 0
  deriving DecidableEq, Repr

/-- The dictionary's request processor and the journal (R425-R449). `armed` is the target cycle of a commit and its JSEQ; `unsigned` the
signed entries whose signature is still to come, with their digests, oldest first. -/
structure Marmas where
  journal : List JEntry := []
  jnext : Nat := 0
  jhead : List Byte := []
  jckCount : Nat := 0
  jckSigned : Nat := 0
  jsig : Table (List Byte) := []
  unsigned : List (Nat × List Byte) := []
  jckWait : Option Nat := none
  live : List Waiting := []
  staging : List Waiting := []
  armed : Option (Nat × Nat) := none
  commitState : Nat := 0
  commitErr : Nat := 0
  mreqs : List Nat := [0, 0, 0, 0]
  mrefused : Nat := 0
  i3cDyn : Nat := 0
  eidI3c : Nat := 0
  eidVdm : Nat := 0
  deriving DecidableEq, Repr

/-! ### Security -/

/-- An SPDM session (R463, R466, R471): `owner` the digest of the certificate that the requester's chain ends
at, `keyGen` the key updates made. -/
structure Session where
  id : Nat
  transport : Nat
  eid : Nat
  established : Bool := false
  both : Bool := false
  owner : List Byte := []
  at' : Nat := 0
  lastBeat : Nat := 0
  keyGen : Nat := 0
  deriving DecidableEq, Repr

/-- A signature that an SPDM response waits for (R464): its connection (transport, endpoint, session or 0), the request's code and operand,
the response as built, when it was asked, whether ResponseNotReady has been given, and whether the signature is made. -/
structure SigWait where
  transport : Nat
  eid : Nat
  session : Nat
  code : Nat
  arg : Nat
  body : List Byte := []
  askedAt : Nat
  deferred : Bool := false
  ready : Bool := false
  deriving DecidableEq, Repr

/-- A message carried in chunks on a connection (R463): the bytes received of a large request so far, and the last large response. -/
structure Chunking where
  transport : Nat
  eid : Nat
  session : Nat
  got : Nat := 0
  large : List Byte := []
  deriving DecidableEq, Repr

/-- FWSTATE (R471). -/
inductive FwState
  | idle | staging | staged | armed | refused
  deriving DecidableEq, Repr

/-- FWSTATE as read. -/
def FwState.code : FwState → Nat
  | .idle => 0 | .staging => 1 | .staged => 2 | .armed => 3 | .refused => 4

/-- The security side (R450-R471). `manifest` is the running image's, `mode7` measurement 7 as the boot recorded it, `dik` and `rak` the 48 bytes of the device and the
runtime key while they are held, `drbgLeft`
the requests left in the DRBG's interval. -/
structure Sec where
  manifest : List Byte := []
  bootBank : Nat := 0
  bootState : Nat := 0
  mode7 : List Byte := []
  dsLocked : Bool := false
  rak : Option (List Byte) := none
  dik : Option (List Byte) := none
  rakPub : List Byte := []
  dikPub : List Byte := []
  rakCert : Bool := false
  certBad : Bool := false
  trngFailed : Bool := false
  drbgLeft : Nat := 65536
  sessions : List Session := []
  nextSession : Nat := 1
  sigs : List SigWait := []
  chunks : List Chunking := []
  tokNonce : List Byte := []
  debugTok : Option Nat := none
  fw : FwState := .idle
  fwErr : Nat := 0
  spdmReqs : Nat := 0
  spdmErrs : Nat := 0
  deriving DecidableEq, Repr

/-! ### Power -/

/-- An AVS rail (R488-R491, AVSRAIL of R503): mV, mV, 0.1 A, margin in 0.25 %. -/
structure Rail where
  target : Nat := 800
  readback : Nat := 0
  current : Nat := 0
  margin : Nat := 0
  hold : Nat := 0
  fails : Nat := 0
  stopped : Bool := false
  deriving DecidableEq, Repr

/-- A temperature sensor (R495): its reading in 0.125 °C, samples in a row off its die's median, samples in a row at TSHUT. -/
structure Sensor where
  val : Int := 0
  off : Nat := 0
  hot : Nat := 0
  faulty : Bool := false
  deriving DecidableEq, Repr

/-- The power side (R487-R503). -/
structure Power where
  rails : Table Rail := []
  sensors : Table Sensor := []
  deadDies : List Nat := []
  braked : Bool := false
  watts : Nat := 0
  overCycles : Nat := 0
  sscDepth : Nat := 0
  trips : List Nat := []
  deriving DecidableEq, Repr

/-! ### Start-up -/

/-- Where start-up stands (R516, R517): held in reset, holding on its straps, stopped at a PLL, in RECOVERY, in test mode, or running. -/
inductive BootSt
  | held | strapHold | stopped | recovery | testMode | running
  deriving DecidableEq, Repr

/-- Start-up: the last strap `samples`, `since` the rise of MOD_RESET_N, `flash0` the flash as the ROM found it until the PLLs
are known to have locked, `mgcAt` the time from which the firmware runs, `initAt` the time at which the HBM is initialised, whether the
start-up count was written (R518), the HBM initialised and the positions assigned. -/
structure StartUp where
  st : BootSt := .held
  samples : List Nat := []
  since : Nat := 0
  mgcAt : Nat := 0
  initAt : Nat := 0
  i3cStatic : Nat := 0
  bifur : Nat := 0
  epochOk : Bool := false
  flash0 : Option (Table Byte) := none
  trained : Bool := false
  complete : Bool := false
  deriving DecidableEq, Repr

end Sys2Proof.Machine
end

