-- ==== Sys2Proof/Machine/State.lean ====
section
/-!
DEFINITION. The state of the block: the queue of waiting commands, the two clocks and every unit's state, as plain data,
and the state right after reset. Also the reasons a step can stop.
-/
namespace Sys2Proof.Machine

/-- Reasons a step stops with a fault. -/
inductive Fault
  /-- No meaning raises it: the spec gives every event an effect. Safe. -/
  | unreachable
  deriving DecidableEq, Repr

/-- Reasons a step is refused. -/
inductive Refusal
  /-- A row not modelled yet, by its mnemonic; raised by `exec`'s refused arms only. Safe. -/
  | notModelled (mnemonic : String)
  deriving DecidableEq, Repr

/-- The SPDM errors of R451 and R463-R469, and two of the SPDM standard's own. -/
inductive SpdmErr
  | unsupportedRequest | unspecified | busy | responseNotReady | sessionLimitExceeded | invalidRequest | decryptError
  deriving DecidableEq, Repr

/-- The SPDM responses of the model (R464). -/
inductive SpdmRsp
  | version | capabilities | algorithms | digests | certificate | challengeAuth | measurements | keyExchangeRsp | finishRsp | heartbeatAck
  | keyUpdateAck | endSessionAck | chunkSendAck | chunkResponse | encapsulated
  | error (e : SpdmErr)
  deriving DecidableEq, Repr

/-- What the device sends out in a step. -/
inductive Output
  | msix (vec : Nat)
  /-- A whole 64 B line written to host memory (R368): the request it belongs to, the line, its bytes. -/
  | itoMWr (id : Nat) (line : Nat) (data : List Byte)
  /-- Part of a host line written (R368): the byte mask, and the bytes from its first set bit on. -/
  | woWrInv (id : Nat) (line : Nat) (mask : Nat) (data : List Byte)
  | errorEvent (dest : Nat) (words : List Nat)
  | packet (port : Nat) (pkt : Packet)
  | fabricPacket (pkt : Packet)
  /-- A frame's control word (R343): the port, and the 20-bit field that each lane carries. -/
  | control (port : Nat) (fields : List (Nat × Nat))
  /-- A read of one 64 B line of host memory (R368). -/
  | rdCurr (id : Nat) (line : Nat)
  | backInv (line : Nat) (inv : Bool)
  /-- The answer to a CXL.mem read or a read of a mailbox slot, with the poison indication. -/
  | hostData (data : List Byte) (poison : Bool)
  /-- The answer RspIHitI to a host snoop (R361, R368). -/
  | snoopHit (addr : Nat)
  /-- The answer of the primary mailbox to a standard command, its content left to the CXL standard (R365). -/
  | mailbox (opcode code : Nat) (data : List Byte)
  /-- A data object returned by a DOE exchange (R361). -/
  | dataObject (proto : Nat) (fields : List Nat)
  /-- A Marmas response (R436): the origin's route and endpoint, the three header words, the data. -/
  | marmas (route eid : Nat) (w : List Nat) (data : List Byte)
  /-- An MCTP control response (R434): route, endpoint, command code, completion code, values. -/
  | mctp (route eid code cc : Nat) (vals : List Nat)
  /-- An SPDM response (R463, R464): transport, endpoint, session or 0, the response's name, what the spec gives of its contents. -/
  | spdm (transport eid session : Nat) (name : SpdmRsp) (vals : List Nat) (data : List Byte)
  deriving DecidableEq, Repr

/-- The machine: the commands that wait, the clocks, each unit, the cores that stand for positions (R279), the values of the objects that
differ from their defaults, the counter of free values, and what the last command sent out. Flash bytes not listed are erased (0xFF).
`signatures` is the model's own: the signatures that verify (log entry 12). -/
structure State where
  pending : List Instr := []
  cclk : Nat := 0
  bclk : Nat := 0
  cores : Table Core := []
  fix : Fixture := {}
  cfe : Cfe := {}
  err : Errors := {}
  mem : Mem := {}
  links : Links := {}
  host : HostSide := {}
  emb : Emb := {}
  repair : Repair := {}
  marmas : Marmas := {}
  sec : Sec := {}
  power : Power := {}
  start : StartUp := {}
  otp : Otp := {}
  flash : Table Byte := []
  signatures : List Signature := []
  stands : Table (Option Nat) := []
  objVals : Table (Option Nat) := []
  free : Nat := 0
  out : List Output := []
  deriving DecidableEq, Repr

/-- Reset: MOD_RESET_N low, every unit held (19_package_startup.md R516, R517). -/
def State.reset : State := {}

end Sys2Proof.Machine
end

