-- ==== Sys2Proof/Machine/Ops.lean ====
section
/-!
DEFINITION. The named operations every family uses: time, cores, dictionary values, error records (R388-R394), scorecards
(R396-R400) and the command fault, one shared operation (R172, R320).
-/
namespace Sys2Proof.Machine

/-! ### Time -/

/-- Advance the core clock to `t`; it never runs back. -/
def State.atC (s : State) (t : Nat) : State := { s with cclk := max s.cclk t, out := [] }
/-- Advance the module clock to `t`. -/
def State.atB (s : State) (t : Nat) : State := { s with bclk := max s.bclk t, out := [] }
/-- EXT_TIME (R273). -/
def State.extTime (s : State) : Nat := (s.fix.extBase + s.bclk) % 2 ^ 64
/-- CYC (R275). -/
def State.cyc (s : State) : Nat := s.fix.cycle % 2 ^ 32
/-- Send something out. -/
def State.emit (s : State) (o : Output) : State := { s with out := s.out ++ [o] }
/-- Send out several in order. -/
def State.emitAll (s : State) (l : List Output) : State := { s with out := s.out ++ l }

/-! ### Dictionary values -/

/-- The whole object table (R14). -/
def dict : List ObjDef := dictFixture ++ dictErrors ++ dictMemory ++ dictXlate ++ dictLinks ++ dictHost ++ dictEmb ++
  dictMarmas ++ dictSecurity ++ dictRepair ++ dictPower

/-- The definition of the object with a key. -/
def objDef (k : Nat) : Option ObjDef := dict.find? (fun o => o.has k)

/-- The default of an object (R14); 0 where no object exists. -/
def objDefault (k : Nat) : Nat := match objDef k with | some o => o.dflt | none => 0

/-- The value in force of an object. -/
def State.objAt (s : State) (k : Nat) : Nat :=
  match Table.get none s.objVals k with
  | some v => v
  | none => objDefault k
/-- The value in force of index.sub. -/
def State.obj (s : State) (idx sub : Nat) : Nat := s.objAt (okey idx sub)
/-- Put a value in force. -/
def State.setObjAt (s : State) (k v : Nat) : State := { s with objVals := Table.set none s.objVals k (some v) }
/-- Put a value of index.sub in force. -/
def State.setObj (s : State) (idx sub v : Nat) : State := s.setObjAt (okey idx sub) v

/-- NSLOTS of the active header (R276). -/
def State.nslots (s : State) : Nat := s.obj 0x4001 3
/-- SLOTNS of the active header (R276). -/
def State.slotns (s : State) : Nat := s.obj 0x4001 4
/-- The current slot (R274): the last slot runs to the next edge. -/
def State.slot (s : State) : Nat :=
  match s.fix.lastEdge with
  | none => 0
  | some e => min ((s.bclk - e) / s.slotns) (s.nslots - 1)
/-- The current slot counted from cycle 0. -/
def State.absSlot (s : State) : Nat := s.fix.cycle * s.nslots + s.slot

/-! ### Cores -/

/-- A core position's state. -/
def State.core (s : State) (p : Nat) : Core := Table.get {} s.cores p
/-- Replace a core position's state. -/
def State.setCore (s : State) (p : Nat) (c : Core) : State := { s with cores := Table.set {} s.cores p c }
/-- Change a core position's state. -/
def State.modCore (s : State) (p : Nat) (f : Core → Core) : State := s.setCore p (f (s.core p))

/-- The core that stands for a position, and the position a core stands for (R23, R279); their own where nothing is recorded. -/
def State.coreOf (s : State) (pos : Nat) : Nat := (Table.get none s.stands pos).getD pos
def State.posOf (s : State) (core : Nat) : Nat := match s.stands.find? (fun e => e.2 == some core) with | some e => e.1 | none => core

/-! ### MSI-X -/

/-- Whether a vector's message can be sent (R381, R384): the CFE is not DETACHED, MSI-X is enabled, and the vector is written and unmasked. -/
def State.msixOpen (s : State) (vec : Nat) : Bool :=
  let e := Table.get ({ } : MsixEntry) s.host.msix vec
  s.cfe.att != .detached && s.host.linkUp && s.host.msixEnable && !s.host.funcMask && e.written && !e.mask
/-- Signal an MSI-X vector (R381, R384): sent where it can be; otherwise its pending bit is set. -/
def State.msix (s : State) (vec : Nat) : State :=
  if s.msixOpen vec then s.emit (.msix vec) else { s with host := { s.host with pba := Nat.lor s.host.pba (2 ^ vec) } }
/-- Each pending vector that can now send its message sends one (R381). -/
def State.sendPending (s : State) : State :=
  let go := (List.range 2048).filter (fun v => bitAt s.host.pba v && s.msixOpen v)
  go.foldl (fun x v => { x with host := { x.host with pba := x.host.pba - 2 ^ v } }.emit (.msix v)) s

/-! ### Error records -/

/-- Signal a record interrupt on ERRVEC, at most one per ERRGAP ns (R394). -/
def State.signalErr (s : State) : State :=
  match s.err.lastSignal with
  | some l =>
    if s.bclk < l + s.obj 0x2A00 4 then { s with err := { s.err with signalDue := some (l + s.obj 0x2A00 4) } }
    else { (s.msix (s.obj 0x2A00 2)) with err := { s.err with lastSignal := some s.bclk } }
  | none => { (s.msix (s.obj 0x2A00 2)) with err := { s.err with lastSignal := some s.bclk } }

/-- Put a record into the queue or the reserved entry (the `post` pseudocode of R392). -/
def Errors.put (e : Errors) (r : ErrRec) : Errors :=
  if (e.erqtail - e.erqhead).toNat < 64 then
    { e with slots := Table.set {} e.slots (e.erqtail.toNat % 64) r, erqtail := e.erqtail + 1 }
  else
    match e.rsv with
    | none => { e with erqovf := e.erqovf + 1, rsv := some { r with ovf := true, count := 0 } }
    | some v =>
      if v.sev.code < r.sev.code then
        { e with erqovf := e.erqovf + 1, rsv := some { r with ovf := true, count := min (v.count + 1) 0xFFFFFF } }
      else { e with erqovf := e.erqovf + 1, rsv := some { v with count := min (v.count + 1) 0xFFFFFF } }

/-- A FATAL record always enters the reserved entry and counts the record it displaces (R392, R402). -/
def Errors.putFatal (e : Errors) (r : ErrRec) : Errors :=
  { e with rsv := some { r with ovf := true, count := match e.rsv with | none => 0 | some v => min (v.count + 1) 0xFFFFFF } }

/-- Move the reserved record into a queue that is no longer full, ahead of any newer record (R392). -/
def Errors.drain (e : Errors) : Errors :=
  match e.rsv with
  | some v =>
    if (e.erqtail - e.erqhead).toNat < 64 then
      { e with slots := Table.set {} e.slots (e.erqtail.toNat % 64) v, erqtail := e.erqtail + 1, rsv := none }
    else e
  | none => e

/-- The index of an unreported queued record of the same class, cause and unit of this cycle (R393). -/
def Errors.coalesceAt (e : Errors) (r : ErrRec) : Option Nat :=
  (List.range (e.erqtail - e.erqhead).toNat).findSome? (fun i =>
    let k := (e.erqhead + BitVec.ofNat 32 i).toNat % 64
    let v := Table.get ({ } : ErrRec) e.slots k
    if v.cls = r.cls ∧ v.cause = r.cause ∧ v.ukind = r.ukind ∧ v.unit = r.unit ∧ v.cyc = r.cyc ∧ v.ovf = false
    then some k else none)

/-- The subject of a record (R391): a COMMAND record's queue, any other record's unit; none for UKIND 0. -/
def ErrRec.subject (r : ErrRec) : Option Subject :=
  if r.cls = .command then some ⟨.queue, bits r.cmdref 47 40⟩
  else if r.ukind = .none then none
  else some ⟨r.ukind, r.unit⟩

/-- The open primary of a subject (R391). -/
def Errors.primaryOf (e : Errors) (sub : Option Subject) : Option Nat :=
  match sub with
  | none => none
  | some u => (e.primaries.find? (fun p => decide (p.1 = u))).map (·.2)

/-- Close a subject's primary (R391). -/
def Errors.closePrimary (e : Errors) (u : Subject) : Errors :=
  { e with primaries := e.primaries.filter (fun p => decide (p.1 ≠ u)) }

/-- What an error record is made of. -/
structure ErrArgs where
  cls : ErrClass
  sev : Sev
  cause : Nat
  ukind : UKind := .none
  unit : Nat := 0
  scidx : Nat := 0xFFFF
  cmdref : Nat := 0
  info6 : Nat := 0
  info7 : Nat := 0
  count : Nat := 1
  deriving DecidableEq, Repr

/-- Send a record unsolicited to EVTDEST while the management owns the queue, where its severity reaches EVTMIN (R439). -/
def State.sendEvent (s : State) (r : ErrRec) : State :=
  let d := s.obj 0x1101 1
  if s.obj 0x2A00 1 = 1 ∧ (d % 256 = 2 ∨ d % 256 = 3) ∧ s.obj 0x1101 2 ≤ r.sev.code then s.emit (.errorEvent d r.words) else s

/-- Post a new record without coalescing: RSEQ gains 1, the primary rule of R391 applies, the record is queued (R392),
signalled (R394) and sent to EVTDEST (R439). -/
def State.postNew (s : State) (a : ErrArgs) : State :=
  if s.err.frozen then { s with err := { s.err with erqovf := s.err.erqovf + 1 } }
  else
    let rseq := s.err.rseq + 1
    let base : ErrRec := { rseq := rseq, etime := s.extTime, cls := a.cls, sev := a.sev, scard := decide (a.scidx ≠ 0xFFFF),
                           cause := a.cause, ukind := a.ukind, unit := a.unit, scidx := a.scidx, cmdref := a.cmdref,
                           cyc := s.cyc, slot := s.slot, count := a.count, info6 := a.info6, info7 := a.info7 }
    let sub := base.subject
    let prim := s.err.primaryOf sub
    let r := match prim with
      | some q => { base with secondary := true, primary := q }
      | none => base
    let opens : Bool := prim.isNone && decide (3 ≤ a.sev.code)
    let prims := match sub with
      | some u => if opens then s.err.primaries ++ [(u, rseq)] else s.err.primaries
      | none => s.err.primaries
    let e0 := { s.err with rseq := rseq, primaries := prims }
    let e1 := if a.cls = .fatal then e0.putFatal r else e0.put r
    ({ s with err := e1 }.signalErr).sendEvent r

/-- Post an error record under the coalescing rules of R393. -/
def State.postErr (s : State) (a : ErrArgs) : State :=
  if s.err.frozen then { s with err := { s.err with erqovf := s.err.erqovf + 1 } }
  else if a.cls = .command ∨ a.cls = .fatal then s.postNew a
  else if a.cls = .memory ∧ a.sev = .corrected then
    let k := a.ukind.code * 2 ^ 16 + a.unit
    let u := Table.get ({ } : CeUnit) s.err.ceUnits k
    let n := u.since + a.count
    let quietNow := match u.last with | some c => decide (s.fix.cycle < c + s.obj 0x2A00 5) | none => false
    if quietNow then { s with err := { s.err with ceUnits := Table.set {} s.err.ceUnits k { u with since := n } } }
    else
      ({ s with err := { s.err with ceUnits := Table.set {} s.err.ceUnits k ⟨some s.fix.cycle, 0⟩ } }).postNew
        { a with count := min n 0xFFFFFF }
  else
    let probe : ErrRec := { cls := a.cls, cause := a.cause, ukind := a.ukind, unit := a.unit, cyc := s.cyc }
    match (if s.fix.lastEdge.isSome then s.err.coalesceAt probe else none) with
    | some k =>
      let v := Table.get ({ } : ErrRec) s.err.slots k
      { s with err := { s.err with slots := Table.set {} s.err.slots k { v with count := min (v.count + a.count) 0xFFFFFF } } }
    | none => s.postNew a

/-- Change the host side. -/
def State.modHost (s : State) (f : HostSide → HostSide) : State := { s with host := f s.host }
/-- Whether host memory can be reached (R384): the link is up and the CFE is not DETACHED. -/
def State.hostReachable (s : State) : Bool := s.host.linkUp && s.cfe.att != .detached

/-- Apply a change to the error block. -/
def State.modErr (s : State) (g : Errors → Errors) : State := { s with err := g s.err }

/-- Apply a change to the Fixture engine. -/
def State.modFix (s : State) (g : Fixture → Fixture) : State := { s with fix := g s.fix }

/-! ### The safe state -/

/-- Whether the stop of R402 steps 2 to 5 has reached the units: 16 BCLK after a device-fatal trigger. -/
def State.stopped (s : State) : Bool := match s.err.fatalAt with | some f => decide (f + 16 ≤ s.bclk) | none => false
/-- Whether the stop of R402 step 6 has reached the cores: 24 BCLK after a device-fatal trigger. -/
def State.coresStopped (s : State) : Bool := match s.err.fatalAt with | some f => decide (f + 24 ≤ s.bclk) | none => false
/-- What a core may do next, nothing once it has stopped (R402 step 6). -/
def State.unlessStopped {α : Type} (s : State) (o : Option α) : Option α := if s.coresStopped then none else o
/-- Zero the keystore (R469): in the safe state, and before a scan chain opens. -/
def State.clearSecrets (s : State) : State := { s with sec := { s.sec with dik := none, rak := none, sessions := [], sigs := [], chunks := [], drbgLeft := 0 } }
/-- A device-fatal trigger (R401, R402 step 1, R521): the FATAL record, ERRSTAT.FATAL, the keystore zeroed. Only the first counts. -/
def State.fatalTrigger (s : State) (cause : Nat) (uk : UKind) (unit i6 i7 : Nat) : State :=
  if s.err.fatal then s
  else
    let rseq := s.err.rseq + 1
    let base : ErrRec := { rseq := rseq, etime := s.extTime, cls := .fatal, sev := .fatal, ovf := true, cause := cause, ukind := uk,
                           unit := unit, cyc := s.cyc, slot := s.slot, info6 := i6, info7 := i7 }
    let sub := base.subject
    let r := match s.err.primaryOf sub with
      | some q => { base with secondary := true, primary := q }
      | none => base
    let prims := match sub with
      | some u => if (s.err.primaryOf sub).isNone then s.err.primaries ++ [(u, rseq)] else s.err.primaries
      | none => s.err.primaries
    let e := { s.err with rseq := rseq, primaries := prims, fatal := true, fatalAt := some s.bclk, fatalSrc := (uk, unit) }
    ({ s with err := e.putFatal r }.sendEvent r).clearSecrets

/-! ### Positions and bench requests -/

/-- PSTATE of a core (R472): TESTING until start-up has assigned it. -/
def State.pstate (s : State) (c : Nat) : PState := Table.get .testing s.repair.pst c
/-- Change the repair side. -/
def State.modRepair (s : State) (f : Repair → Repair) : State := { s with repair := f s.repair }
/-- Set PSTATE of a core. -/
def State.setPstate (s : State) (c : Nat) (p : PState) : State := s.modRepair (fun r => { r with pst := Table.set .testing r.pst c p })
/-- Post a REPAIR record about a core (R485, R523). -/
def State.repairRec (s : State) (sev : Sev) (cause c : Nat) : State :=
  s.postErr { cls := .repair, sev := sev, cause := cause, ukind := .position, unit := c }
/-- The lowest SPARE of a core's die (R473). -/
def State.spareFor (s : State) (c : Nat) : Option Nat :=
  ((List.range 18).map (fun i => c / 18 * 18 + i)).find? (fun k => s.pstate k == .spare && !(s.repair.bench.any (fun b => b.sub == some k)))
/-- Admission places nothing more on a core's position (R293). -/
def State.keepClear (s : State) (c : Nat) : State :=
  s.modFix (fun f => { f with noPlace := f.noPlace.filter (fun p => p != s.posOf c) ++ [s.posOf c] })
/-- A bench begins (R475 steps 1 and 2): BENCHING, a substitute, a record; admission leaves the position alone. -/
def State.startBench (s : State) (c : Nat) (sub : Option Nat) : State :=
  let r := match sub with | some k => some k | none => s.spareFor c
  let s1 := (s.setPstate c .benching).modRepair (fun x => { x with bench := some { core := c, sub := r } })
  (s1.keepClear c).repairRec .info 0x01 c
/-- A bench request (R473): begun, or queued behind the one in progress, its position left alone from now on (R293); ignored for a core that is not in service or already asked for; false
where the queue of 16 is full. -/
def State.requestBench (s : State) (c : Nat) (sub : Option Nat) : State × Bool :=
  if s.pstate c ≠ .inService ∨ s.repair.queue.any (fun q => q.1 == c) then (s, true)
  else if s.repair.bench.isNone then (s.startBench c sub, true)
  else if 16 ≤ s.repair.queue.length then (s, false)
  else ((s.modRepair (fun r => { r with queue := r.queue ++ [(c, sub)] })).keepClear c, true)

/-- The automatic follow-up of a fault (R404): a checksum, residue or bank fault makes the core's cross-check due, and a second within
XCPERIOD asks for a bench; a stored block that failed its Seal is re-read. -/
def State.followUp (s : State) (cause : Cause) (core dpa : Nat) : State :=
  match cause with
  | .checksum | .vxeResidue | .bankConflict =>
    if 144 ≤ core then s
    else
      let again : Bool := match Table.get none s.err.xcFault core with
        | some l => decide (s.bclk < l + s.obj 0x2A01 2 * 1000000000)
        | none => false
      let s1 := s.modErr (fun e => { e with xcDue := if e.xcDue.contains core then e.xcDue else e.xcDue ++ [core],
                                            xcFault := Table.set none e.xcFault core (some s.bclk) })
      if again then (s1.requestBench core none).1 else s1
  | .seal => if dpa = 0 then s else s.modErr (fun e => { e with reread := e.reread ++ [dpa / 4096 * 4096] })
  | _ => s

/-! ### Command faults -/

/-- The index of a command in the CFE's list. -/
def Cfe.find (f : Cfe) (ref : Nat) : Option Cmd := f.cmds.find? (fun c => decide (c.ref = ref))
/-- Change one command. -/
def Cfe.modCmd (f : Cfe) (ref : Nat) (g : Cmd → Cmd) : Cfe :=
  { f with cmds := f.cmds.map (fun c => if c.ref = ref then g c else c) }
/-- A submission queue. -/
def Cfe.queue (f : Cfe) (q : Nat) : Queue := Table.get {} f.queues q
/-- Change a submission queue. -/
def Cfe.modQueue (f : Cfe) (q : Nat) (g : Queue → Queue) : Cfe := { f with queues := Table.modify {} f.queues q g }
/-- A completion ring. -/
def Cfe.ring (f : Cfe) (r : Nat) : Ring := Table.get {} f.rings r
/-- Change a completion ring. -/
def Cfe.modRing (f : Cfe) (r : Nat) (g : Ring → Ring) : Cfe := { f with rings := Table.modify {} f.rings r g }
/-- Apply a change to the CFE. -/
def State.modCfe (s : State) (g : Cfe → Cfe) : State := { s with cfe := g s.cfe }
/-- Change one command. -/
def State.modCmd (s : State) (ref : Nat) (g : Cmd → Cmd) : State := s.modCfe (fun f => f.modCmd ref g)

/-- The lowest free scorecard slot, 0 to 495 (R395, R399). -/
def Errors.freeCard (e : Errors) : Option Nat :=
  (List.range 496).find? (fun k => (Table.get none e.scorecards k).isNone)

/-- Free the ledger charges of a command, but for position-slots on the positions listed, which release no phase any more (R320 step 2). -/
def Fixture.freeCharges (f : Fixture) (q cseq : Nat) (keep : List Nat) : Fixture :=
  { f with ledger := f.ledger.filterMap (fun p =>
      if p.q = q ∧ p.cseq = cseq ∧ p.cls ≠ .repair then
        let held := p.positions.filter (fun x => keep.contains x)
        if held.isEmpty then none
        else some { p with released := true, positions := held, emb := [], hcls := 0, hbm := 0, ports := 0, farast := 0, energy := 0,
                           peers := [], combine := [] }
      else some p) }

/-- Withdraw an admitted command of a halted queue: it returns to READY (its predecessors have succeeded) (R320 step 3). -/
def State.withdraw (s : State) (c : Cmd) : State :=
  (s.modFix (fun f => f.freeCharges c.q c.cseq [])).modCmd c.ref
    (fun d => { d with st := .ready, due := none, tasks := 0 })

/-- The lowest of two CSEQs under R18. -/
def seqMin (a b : W32) : W32 := if serialLt b.toNat a.toNat 32 then b else a

/-- Finished commands behind HALTSEQ are held: their records carry HELD, and QUEUE_HALT is recorded (R315, R320). -/
def State.markHeld (s : State) (q : Nat) : State :=
  let qu := s.cfe.queue q
  if qu.st ≠ .halted then s
  else s.modCfe (fun f => { f with cmds := f.cmds.map (fun d =>
    if d.q = q ∧ (d.st = .done ∨ d.st = .finished) ∧ serialLt qu.haltseq.toNat d.cseq 32 then
      { d with held := true, reason := if d.reason = 0 ∧ ¬ d.refusal then 0x07 else d.reason }
    else d) })

/-- R320: the queue of a faulted command becomes HALTED, HALTSEQ the lowest faulted CSEQ, the faulted command gives back
its charges but on HALTED positions, and later admitted commands are withdrawn. -/
def State.haltQueue (s : State) (c : Cmd) (haltedPos : List Nat) : State :=
  let qu := s.cfe.queue c.q
  let cs := BitVec.ofNat 32 c.cseq
  let hs := if qu.st = .halted then seqMin qu.haltseq cs else cs
  let s1 := s.modCfe (fun f => f.modQueue c.q (fun x => { x with st := if x.st = .closing then .closing else .halted, haltseq := hs }))
  let s2 := s1.modFix (fun f => f.freeCharges c.q c.cseq haltedPos)
  (s2.cfe.cmds.foldl (fun acc d =>
    if d.q = c.q ∧ d.st = .admitted ∧ serialLt hs.toNat d.cseq 32 then acc.withdraw d else acc) s2).markHeld c.q

/-- What a fault hands to the CFE. -/
structure FaultArgs where
  cause : Cause
  engine : Engine
  cmdref : Nat
  pos : Nat := 0xFF
  unit : Nat := 0
  instr : Nat := 0
  dva : Nat := 0
  dpa : Nat := 0
  detail : List Nat := []
  passidx : Nat := 0
  deriving DecidableEq, Repr

/-- The register part of a scorecard taken from a core (R398). -/
def Core.qheads (c : Core) : List Nat :=
  [c.qMx, c.qMv, c.qVx, c.qDt, c.qDl, c.qCt].map (fun q => match q with | .instr _ w _ :: _ => w | _ => 0)

/-- Elapsed CCLK of the task (R139). -/
def Core.etk (c : Core) (t : Nat) : Nat := match c.started with | some b => t - b | none => c.stoppedEtk
/-- CCLK that TCK has stood still at `t` in the current pause: in an arrival wait it reads what it read in the dispatch CCLK. -/
def Core.pausedNow (c : Core) (t : Nat) : Nat :=
  match c.pause, c.replaySince with
  | some (.waitc _ _ _ since), _ => t + 1 - since
  | some (.dtFull since), _ => t - since
  | none, some r => t - r
  | none, none => 0
/-- The task clock TCK (R139). -/
def Core.tck (c : Core) (t : Nat) : Nat :=
  match c.started with
  | some b => max t c.replayEnd - b - c.pausedTotal - c.pausedNow t
  | none => c.stoppedTck
/-- CSTAT (R166): the reloads of R102 step 4 still count as REPLAY. -/
def Core.cstat (c : Core) (t : Nat) : Nat := (if c.st = .run ∧ t < c.replayEnd then CoreSt.replay else c.st).code * 16 + b2n c.overrun * 8

/-- What a scorecard of a fault holds (R396, R398). -/
def State.cardOf (s : State) (a : FaultArgs) (c : Cmd) (rseq : Nat) (secondary : Bool) : Scorecard :=
  let onCore : Bool := decide (a.pos ≠ 0xFF)
  let co := s.core a.pos
  { cmdref := a.cmdref, rseq := rseq, cause := a.cause, status := a.cause.status, engine := a.engine, pos := a.pos,
    unit := a.unit, effects := c.effects, secondary := secondary, bclk := s.bclk,
    etime := s.extTime, cyc := s.cyc, slot := s.slot,
    etk := if onCore then co.etk s.cclk else 0, tck := if onCore then co.tck s.cclk else 0,
    pc := if onCore then co.pc else 0, passidx := a.passidx,
    planid := match c.cost with | some x => x.planid | none => 0,
    instr := a.instr, dva := a.dva, dpa := a.dpa, detail := a.detail,
    qheads := if onCore then co.qheads else [],
    cregs := if onCore then [co.cstat s.cclk, co.vxstat.toNat, co.hgctl.toNat] else [],
    tstat := if onCore then (List.range 16).map (fun i => (Table.get ({ } : Tile) co.tiles i).word.toNat) else [],
    arrcnt := if onCore then (List.range 64).map (fun i => (Table.get (0 : W32) co.arr i).toNat) else [],
    xfer := if onCore then
        (s.mem.xfers.filter (fun x => x.pos == a.pos && !x.light && x.xu.isNone)).flatMap (fun x => (x.desc ++ leBytes 64 0).take 56 ++ leBytes 8 (x.next * 4096))
      else [],
    lite := if onCore then (s.mem.xfers.filter (fun x => x.pos == a.pos && x.light)).flatMap (fun x => x.lite) else [],
    homes := c.homes }

/-- Capture a scorecard in the lowest free slot, or count SCLOST (R396-R399). -/
def State.captureCard (s : State) (a : FaultArgs) (c : Cmd) (rseq : Nat) : State × Option Nat :=
  match s.err.freeCard with
  | none => (s.modErr (fun e => { e with sclost := e.sclost + 1 }), none)
  | some k =>
    let card := s.cardOf a c rseq (s.err.primaryOf (some ⟨.queue, c.q⟩)).isSome
    (s.modErr (fun e => { e with scorecards := Table.set none e.scorecards k (some card) }), some k)

/-- The record of a fault names another cause (R400). -/
def ErrRec.recause (r : ErrRec) (rseq : Nat) (a : FaultArgs) : ErrRec :=
  if r.rseq = rseq ∧ r.cls = .command then { r with cause := a.cause.code, info6 := a.dva, info7 := a.dpa } else r

/-- Enter a further cause of a command that has already faulted (R400): in MORE, or, of the BCLK of the first one and with the lower code, in its
place. -/
def State.addCause (s : State) (a : FaultArgs) (c : Cmd) (k : Nat) : State :=
  match Table.get none s.err.scorecards k with
  | none => s
  | some y =>
    if y.bclk = s.bclk ∧ a.cause.code < y.cause.code then
      let card := { s.cardOf a c y.rseq y.secondary with more := y.more ++ [⟨y.cause, y.engine, s.bclk % 2 ^ 48⟩] }
      (s.modErr (fun e => { e with scorecards := Table.set none e.scorecards k (some card), slots := e.slots.map (fun p => (p.1, p.2.recause y.rseq a)),
                                   rsv := e.rsv.map (fun r => r.recause y.rseq a) })).modCfe
        (fun f => f.modCmd a.cmdref (fun d => { d with fault := some a.cause.status }))
    else s.modErr (fun e => { e with scorecards := Table.set none e.scorecards k (some { y with more := y.more ++ [⟨a.cause, a.engine, s.bclk % 2 ^ 48⟩] }) })

/-- The counters of R420 that a fault's cause moves. -/
def Errors.countCause (e : Errors) (c : Cause) : Errors :=
  match c with
  | .checksum => { e with chkMismatch := e.chkMismatch + 1 }
  | .vxeResidue => { e with residueFaults := e.residueFaults + 1 }
  | .seal => { e with sealFaults := e.sealFaults + 1 }
  | _ => e

/-- A command fault reaches the CFE (R320, R396, R400): scorecard, COMMAND record, FAULTED state and HALTED queue, and UNCORRECTABLE as a reason
(R292). A further fault of the same command is entered in its scorecard; an EMPTY one may still fault over its outputs (R306, R311). A fault in CLOSING does
not halt (R326). -/
def State.faultCommand (s : State) (a : FaultArgs) : State :=
  let s := s.modErr (fun e => e.countCause a.cause)
  if s.err.frozen then s
  else match s.cfe.find a.cmdref with
  | none => s
  | some c =>
    if c.st = .faulted then (match c.scidx with | some k => s.addCause a c k | none => s)
    else if c.st = .done ∧ c.status ≠ some .empty then s
    else
      let rseq := s.err.rseq + 1
      let r := s.captureCard a c rseq
      let s1 := r.1.postErr { cls := .command, sev := .command, cause := a.cause.code,
                              ukind := if a.pos = 0xFF then .queue else .position,
                              unit := if a.pos = 0xFF then c.q else a.pos,
                              scidx := r.2.getD 0xFFFF, cmdref := a.cmdref, info6 := a.dva, info7 := a.dpa }
      let closing := decide ((s1.cfe.queue c.q).st = .closing)
      let s2 := s1.modCmd a.cmdref (fun d =>
        { d with reason := if d.reason = 0 ∧ a.cause = .uncorrectable then 0x08 else d.reason, st := if closing then .done else .faulted, fault := some a.cause.status,
                 status := if closing then some a.cause.status else none, scidx := r.2, ran := true })
      let s2 := s2.followUp a.cause a.pos a.dpa
      let haltedPos := (List.range 144).filter (fun p =>
        (s2.core (s2.coreOf p)).st = .halted && decide (((s2.core (s2.coreOf p)).task.map (·.cmdref)) = some a.cmdref))
      if closing then s2.modFix (fun f => f.freeCharges c.q c.cseq haltedPos) else s2.haltQueue c haltedPos

/-- The first reason recorded for a command stays (R292, R315). -/
def State.recordReason (s : State) (ref code : Nat) : State :=
  s.modCmd ref (fun d => { d with reason := if d.reason = 0 then code else d.reason })
/-- The command whose task runs on a position. -/
def State.taskRef (s : State) (p : Nat) : Nat := match (s.core p).task with | some k => k.cmdref | none => 0

/-- A fault in an engine of a core (R172): dispatch and issue stop, STATE becomes HALTED, and the command faults. -/
def State.coreFault (s : State) (p : Nat) (cause : Cause) (eng : Engine) (instr : Nat) (detail : List Nat := [])
    (passidx : Nat := 0) (dva : Nat := 0) (dpa : Nat := 0) : State :=
  let ref := match (s.core p).task with | some k => k.cmdref | none => 0
  let s1 := s.modCore p (fun c => { c with st := .halted })
  s1.faultCommand { cause := cause, engine := eng, cmdref := ref, pos := p, instr := instr, detail := detail,
                    passidx := passidx, dva := dva, dpa := dpa }

end Sys2Proof.Machine
end

