-- ==== Sys2Proof/Machine/CoreOps.lean ====
section
/-!
DEFINITION. What every instruction of a core shares (05_core_programs.md): the queues and the conditions of issue (R138), the
task clock (R139), banks and their conflicts (R147-R149), region tags (R152), block states (R154), cache units (R155), and the
fault of an instruction (R172).
-/
namespace Sys2Proof.Machine

/-! ### Queues -/

/-- The entries of a queue. -/
def Core.queue (c : Core) : QueueId → List QItem
  | .mx => c.qMx | .mv => c.qMv | .vx => c.qVx | .dt => c.qDt | .dl => c.qDl | .ct => c.qCt
/-- Replace the entries of a queue. -/
def Core.setQueue (c : Core) (q : QueueId) (l : List QItem) : Core :=
  match q with
  | .mx => { c with qMx := l } | .mv => { c with qMv := l } | .vx => { c with qVx := l }
  | .dt => { c with qDt := l } | .dl => { c with qDl := l } | .ct => { c with qCt := l }
/-- A per-queue value. -/
def PerQueue.get (x : PerQueue) : QueueId → Nat
  | .mx => x.mx | .mv => x.mv | .vx => x.vx | .dt => x.dt | .dl => x.dl | .ct => x.ct
/-- Set a per-queue value. -/
def PerQueue.set (x : PerQueue) (q : QueueId) (v : Nat) : PerQueue :=
  match q with
  | .mx => { x with mx := v } | .mv => { x with mv := v } | .vx => { x with vx := v }
  | .dt => { x with dt := v } | .dl => { x with dl := v } | .ct => { x with ct := v }
/-- The engine a scorecard names for a queue (R398). -/
def queueEngine : QueueId → Engine
  | .mx => .mx | .mv => .mv | .vx => .vx | .dt => .dt | .dl => .dl | .ct => .ct

/-- A trap that has taken effect by `t` stops all issue (R121). -/
def Core.trapDue (c : Core) (t : Nat) : Bool := c.vtraps.any (fun x => decide (x.time ≤ t))

/-- Whether queue `q` may issue at all at `t`: the core runs and TCK does not stand still, or the one exception of R139,
the DT queue during a stop on a full DT queue. -/
def Core.mayIssue (c : Core) (q : QueueId) : Bool :=
  match c.pause with
  | none => decide (c.st = .run) && c.replaySince.isNone
  | some (.dtFull _) => decide (q = .dt) && decide (c.st = .wait) && c.replaySince.isNone
  | some _ => false

/-- R138: the word of the instruction at the head of `q`, when it is `i` and may issue at `t`; `free` is the time from
which the port it uses is free. -/
def Core.ready (c : Core) (q : QueueId) (i : CoreInstr) (free t : Nat) : Option Nat :=
  if c.mayIssue q ∧ ¬ c.trapDue t ∧ c.resumeAt ≤ t ∧ (c.lastIssue.get q) < t ∧ free ≤ t then
    match c.queue q with
    | .instr j w d :: _ => if j = i ∧ d < t then some w else none
    | _ => none
  else none

/-- Take the issued instruction from its queue; its port is busy to `busy`, it completes at `done`. An issue that frees an
entry of a full DT queue ends the stop of R137. -/
def Core.issued (c : Core) (q : QueueId) (t busy done : Nat) : Core :=
  let c1 := c.setQueue q (c.queue q).tail
  let c2 := { c1 with lastIssue := c1.lastIssue.set q t, portFree := c1.portFree.set q busy,
                      completeAt := max c1.completeAt done }
  match c2.pause with
  | some (.dtFull since) =>
    if q = .dt then { c2 with pause := none, st := .run, resumeAt := t, pausedTotal := c2.pausedTotal + (t - since) } else c2
  | _ => c2

/-! ### Scratchpad -/

/-- Bytes of the SPM (R147). -/
def spmSize : Nat := 0x01800000
/-- Bytes of a bank (R147). -/
def bankSize : Nat := 0x000C0000
/-- The bank of an offset (R147). -/
def bankOf (a : Nat) : Nat := a / bankSize
/-- Whether `len` bytes at `a` lie in the SPM and in one bank (R148). -/
def oneBank (a len : Nat) : Bool := decide (a + len ≤ spmSize) && (len == 0 || bankOf a == bankOf (a + len - 1))
/-- The extent of `rows` rows of `rlen` bytes at stride `str` (R148). -/
def extent (rows rlen str : Nat) : Nat := (rows - 1) * str + rlen

/-- The tag of a granule (R152). -/
def Core.tagOf (c : Core) (g : Nat) : Nat := Table.get 0 c.rtags g
/-- Whether every byte of a range lies in CODE granules (R137, R152). -/
def Core.isCode (c : Core) (a len : Nat) : Bool := c.tagOf (a / 0x40000) == 2 && c.tagOf ((a + len - 1) / 0x40000) == 2

/-- Whether a range touches an enabled cache unit (R155). -/
def Core.inCacheUnit (c : Core) (a len : Nat) : Bool :=
  (List.range 6).any (fun u => bitAt c.cachectl.toNat u && decide (a < (u + 1) * 0x400000) && decide (u * 0x400000 < a + len))

/-- A block's Seal and state. -/
def Core.block (c : Core) (b : Nat) : SpmBlock := Table.get {} c.blocks b
/-- Whether a range holds part of a LOST block: a read of it is uncorrectable (R476). -/
def Core.lostRead (c : Core) (a len : Nat) : Bool :=
  len != 0 && c.blocks.any (fun b => b.2.lost && decide (b.1 * 4096 < a + len) && decide (a < b.1 * 4096 + 4096))
/-- Replace a block's Seal and state. -/
def Core.setBlock (c : Core) (b : Nat) (v : SpmBlock) : Core := { c with blocks := Table.set {} c.blocks b v }
/-- The blocks of a range become STALE (R154). -/
def Core.staleRange (c : Core) (a len : Nat) : Core :=
  if len = 0 then c
  else (List.range ((a + len - 1) / 4096 + 1 - a / 4096)).foldl
    (fun x i => x.setBlock (a / 4096 + i) { x.block (a / 4096 + i) with fresh := false, sealVal := 0 }) c
/-- A write by a foreground engine or the light path: bytes, and their blocks STALE (R154). -/
def Core.fgWrite (c : Core) (a : Nat) (bs : List Byte) : Core :=
  ({ c with spm := c.spm.writeBytes a bs }).staleRange a bs.length
/-- A DMV write into an SPM within one block (R154): a whole block is FRESH with its Seal, any other write STALE. -/
def Core.dmvWrite (c : Core) (off : Nat) (bs : List Byte) : Core :=
  let c1 := { c with spm := c.spm.writeBytes off bs }
  if off % 4096 = 0 ∧ bs.length = 4096 then c1.setBlock (off / 4096) { fresh := true, sealVal := crc32c bs, lost := false }
  else c1.staleRange off bs.length

/-- One act of an engine on the SPM (R152, R154). -/
def Core.act (c : Core) : SpmAct → Core
  | .bytes a bs => c.fgWrite a bs
  | .fresh b v => c.setBlock b { fresh := true, sealVal := v, lost := false }
  | .zero a n => ({ c with spm := Table.clearRange c.spm a n }).staleRange a n
  | .tag g v => { c with rtags := Table.set 0 c.rtags g v }

/-- The SPM at the beginning of CCLK `t`: every act of an earlier CCLK has been made, in the order of time (R100, R115, R151). -/
def Core.landed (c : Core) (t : Nat) : Core :=
  let c1 := (c.due.filter (fun d => decide (d.time < t))).foldl (fun x d => d.acts.foldl Core.act x) c
  { c1 with due := c.due.filter (fun d => !(decide (d.time < t))) }

/-- Put an act among those due, behind those of its own or an earlier CCLK. -/
def insertDue (d : SpmDue) : List SpmDue → List SpmDue
  | [] => [d]
  | x :: l => if x.time ≤ d.time then x :: insertDue d l else d :: x :: l

/-- An issued instruction's acts on the SPM, each with the CCLK at which it is made. -/
def Core.addDue (c : Core) (q : QueueId) (t : Nat) (l : List (Nat × List SpmAct)) : Core :=
  { c with due := l.foldl (fun d x => insertDue ⟨x.1, q, t, x.2⟩ d) c.due }

/-- The acts of a losing instruction from `t` on are not made (R149). -/
def Core.cancelDue (c : Core) (q : QueueId) (issued t : Nat) : Core :=
  { c with due := c.due.filter (fun d => !(d.queue == q && d.issued == issued && decide (t ≤ d.time))) }

/-- A background write in CCLK `t` keeps what it replaced, for the wide reads of that CCLK (R151). -/
def Core.keepOld (c : Core) (t off n : Nat) : Core :=
  { c with was := c.was.filter (fun w => decide (t ≤ w.time)) ++ [⟨t, off, c.spm.readBytes off n⟩] }

/-- The SPM as it was before the background writes of CCLK `t` and later (R151). -/
def Core.before (c : Core) (t : Nat) : Memory :=
  (c.was.filter (fun w => decide (t ≤ w.time))).foldr (fun w m => m.writeBytes w.addr w.bs) c.spm

/-- A core as everything but an instruction issued in this CCLK finds it: every act up to now has been made. -/
def State.coreNow (s : State) (p : Nat) : Core := (s.core p).landed (s.cclk + 1)

/-- A background write (R150, R154). -/
def State.bgWrite (s : State) (p off : Nat) (bs : List Byte) : State :=
  s.modCore p (fun c => ((c.landed (s.cclk + 1)).keepOld s.cclk off bs.length).dmvWrite off bs)

/-- Element `i` of format code `f` in a row at byte `a` (R49). -/
def Core.elem (c : Core) (f a i : Nat) : Nat :=
  if fmtWidth f = 4 then
    let b := (c.spm.read (a + i / 2)).toNat
    if i % 2 = 0 then b % 16 else b / 16
  else c.spm.readNat (a + i * (fmtWidth f / 8)) (fmtWidth f / 8)
/-- Bytes of `n` elements of format `f`. -/
def rowBytes (f n : Nat) : Nat := cdiv (n * fmtWidth f) 8
/-- Group scale `i` of encoding `scl` in a scale row at byte `a`. -/
def Core.scaleAt (c : Core) (scl a i : Nat) : Option Dy :=
  if scl = 0 then some ⟨1, 0⟩ else scaleValue scl (c.spm.readNat (a + i * scaleBytes scl) (scaleBytes scl))

/-! ### Bank conflicts (R149) -/

/-- The CCLK at which an access run is done. -/
def Access.last (x : Access) : Nat := x.first + (x.count - 1) * x.stride
/-- Whether two access runs of different streams use one bank in one CCLK (R149). -/
def Access.meets (x y : Access) : Bool :=
  x.stream != y.stream && x.bank == y.bank && decide (x.first ≤ y.last) && decide (y.first ≤ x.last) && decide (0 < x.count) &&
    decide (0 < y.count) &&
    (List.range x.count).any (fun i =>
          let t := x.first + i * x.stride
          decide (y.first ≤ t) && decide (t ≤ y.last) && (t - y.first) % y.stride == 0)
/-- An access run of the instruction word `w` of queue `q` issued at `t`. -/
def accessRun (m : Stream) (q : QueueId) (a first count stride t w : Nat) : Access :=
  ⟨m, q, bankOf a, first, count, stride, t, w⟩
/-- The access runs that an instruction's accesses meet: running ones, and others of its own; its own run first. -/
def Core.meetings (c : Core) : List Access → List (Access × Access)
  | [] => []
  | x :: l => ((c.accesses ++ l).filter (fun y => x.meets y)).map (fun y => (x, y)) ++ Core.meetings c l
/-- Whether the instruction issued now, of run `x`, loses to run `y` (R149): the later issue loses, and in one CCLK the later queue. -/
def Access.losesTo (x y : Access) : Bool := decide (y.issued < x.issued) || decide (y.stream.order ≤ x.stream.order)
/-- What a scorecard records of a conflict (R149): the bank, the streams, the instructions, the loser's last. -/
def conflictDetail (win lose : Access) : List Nat := [lose.bank, win.stream.code, lose.stream.code, win.word, lose.word]
/-- Record the accesses of an issued instruction; runs that have ended by `t` are dropped. -/
def Core.addAccesses (c : Core) (t : Nat) (l : List Access) : Core :=
  { c with accesses := c.accesses.filter (fun x => decide (t ≤ x.last)) ++ l }

/-! ### Issue with its checks -/

/-- The checks an instruction must pass before it has any effect, in order; the first that fails faults it (R95, R109). -/
def firstFault : List (Bool × Cause) → Option Cause
  | [] => none
  | (b, c) :: l => if b then some c else firstFault l

/-- A corrected error on an SPM read is counted and reported (R153, R523). -/
def State.noteEcc (s : State) (p : Nat) (e : Ecc) : State :=
  if e = .corrected then s.postErr { cls := .memory, sev := .corrected, cause := 0x01, ukind := .position, unit := p } else s

/-- The instruction of run `y` loses its accesses from `t` on to run `x` and faults (R149). -/
def State.loseAccess (s : State) (p t : Nat) (x y : Access) : State :=
  (s.modCore p (fun c => c.cancelDue y.queue y.issued t)).coreFault p .bankConflict (queueEngine y.queue) y.word (conflictDetail x y)

/-- Issue `i` from queue `q` of position `p` at `t` (R138): where it may not issue the step does not take place. Otherwise
its checks are made in order, then its bank accesses (R149), then what it reads (R153), and then its effect. `about` is what a scorecard
of its own faults names: tile and buffer, and the pass index (R110). -/
def State.issue (s : State) (t p : Nat) (q : QueueId) (i : CoreInstr) (free : Core → Nat)
    (checks : Core → List (Bool × Cause)) (accesses : Core → Nat → List Access) (ecc : Ecc)
    (effect : State → Nat → State) (about : Core → List Nat × Nat := fun _ => ([], 0)) : Host.Outcome State Fault Refusal :=
  let s := s.atC t
  let c := (s.core p).landed t
  match s.unlessStopped (c.ready q i (free c) t) with
  | none => .next s
  | some w =>
    let s := s.setCore p c
    match firstFault (checks c) with
    | some cause => .next (s.coreFault p cause (queueEngine q) w (about c).1 (about c).2)
    | none =>
      let met := c.meetings (accesses c w)
      match met.find? (fun m => m.1.losesTo m.2) with
      | some m => .next (s.coreFault p .bankConflict (queueEngine q) w (conflictDetail m.2 m.1))
      | none =>
        if ecc = .uncorrectable then .next (s.coreFault p .uncorrectable (queueEngine q) w (about c).1 (about c).2)
        else
          let s1 := effect ((s.noteEcc p ecc).modCore p (fun x => x.addAccesses t (accesses x w))) w
          match met with
          | [] => .next s1
          | m :: _ => .next (s1.loseAccess p t m.1 m.2)

end Sys2Proof.Machine
end

