-- ==== Sys2Proof/Machine/Dispatcher.lean ====
section
/-!
DEFINITION. Fetch, dispatch, gates and arrival waits (05_core_programs.md R137, R139, R141, R144-R146), and the start of a task
(R171).
-/
namespace Sys2Proof.Machine

/-- R171 steps 3 and 4 in CCLK `t0`: the on-deck record moves into the task registers, register file, masks and weight
buffers are cleared, HGCTL.ENABLE is cleared, CRESET counters are zeroed, TRAPEN is loaded and the sticky flags cleared. -/
def Core.loadTask (c : Core) (k : TaskRec) (t0 : Nat) : Core :=
  { c with
    st := .switch, overrun := false, task := some k, ondeck := none, pc := k.code, fetchAddr := k.code,
    fetchAt := t0 + 8, dispatchAt := t0 + 16, started := none, stoppedTck := 0, stoppedEtk := 0, pause := none,
    replaySince := none, pausedTotal := 0, replayEnd := 0, resumeAt := 0, fetchBuf := [], ended := false, ending := false, cacheWait := none,
    lastDispatch := none, lastFetch := none, qMx := [], qMv := [], qVx := [], qDt := [], qDl := [], qCt := [],
    vregs := [], vtags := [], masks := [], vpend := [], vtraps := [], wb0 := {}, wb1 := {},
    lastLdw0 := none, lastLdw1 := none,
    hgctl := c.hgctl &&& ~~~1#64,
    arr := (List.range 64).foldl (fun a i => if bitAt k.creset i then Table.set (0 : W32) a i 0 else a) c.arr,
    vxstat := BitVec.ofNat 32 (k.trapen * 2 ^ 16), vxNew := (0, 0) }

/-- Start the on-deck task, if there is one, in the CCLK after `t`; else the core is IDLE (R171 steps 2 and 3). -/
def Core.nextTask (c : Core) (t : Nat) : Core :=
  match c.ondeck with
  | some k => c.loadTask k (t + 1)
  | none => { c with st := .idle, task := none, started := none }

/-- The core as the dispatcher finds it at `t`, when it may dispatch: running, or at the first dispatch of a task, where TCK
and ETK read 0 and STATE becomes RUN (R171 step 6). -/
def Core.dispatching (c : Core) (t : Nat) : Option Core :=
  if c.ended ∨ c.trapDue t then none
  else match c.st with
    | .run =>
      let later : Bool := match c.lastDispatch with | some d => decide (d < t) | none => true
      if c.pause.isNone && later && decide (c.resumeAt ≤ t) then some c else none
    | .switch => if c.dispatchAt ≤ t ∧ c.task.isSome ∧ c.started.isNone then some { c with st := .run, started := some t } else none
    | _ => none

/-- Take the dispatched instruction from the fetch buffer. -/
def Core.dispatched (c : Core) (t : Nat) : Core :=
  { c with fetchBuf := c.fetchBuf.tail, pc := c.pc + 16, lastDispatch := some t }

/-- Whether a queue is full (R137). -/
def Core.full (c : Core) (q : QueueId) : Bool := decide (16 ≤ (c.queue q).length)

/-- The stop on a full queue (R137): a full DT queue whose head is a DM instruction pauses the core. -/
def Core.stopOnFull (c : Core) (q : QueueId) (t : Nat) : Core :=
  match q, c.qDt with
  | .dt, .instr _ _ _ :: _ => { c with pause := some (.dtFull t), st := .wait }
  | _, _ => c

/-- INSTRUCTION_FETCH (R137): 128 B of the task's code, whenever eight entries of the 32-entry buffer are free, in a pause and a replay
too. A fetch from outside CODE faults when it is dispatched; an access that meets the fetch faults (R149). -/
def execInstructionFetch (t p : Nat) (ecc : Ecc) (s : State) : Host.Outcome State Fault Refusal :=
  let s := s.atC t
  let c := (s.core p).landed t
  let may : Bool := !s.coresStopped && c.task.isSome && decide (c.fetchAt ≤ t) && decide (c.fetchBuf.length ≤ 24) && !c.ended &&
    (c.st = .run || c.st = .wait || c.st = .replay || c.st = .switch) && (match c.lastFetch with | some f => decide (f < t) | none => true)
  if ¬ may then .next s
  else
    let a := c.fetchAddr
    let bad : Option Cause :=
      if spmSize < a + 128 then some .illegalEncoding
      else if c.inCacheUnit a 128 then some .cacheUnitAccess
      else if ¬ c.isCode a 128 then some .illegalEncoding
      else if ecc = .uncorrectable ∨ c.lostRead a 128 then some .uncorrectable else none
    let words := (List.range 8).map (fun i => (c.spm.readNat (a + 16 * i) 16, bad))
    let acc := accessRun .fetch .ct a t 1 1 t 0
    let s1 := ((s.setCore p c).noteEcc p ecc).modCore p (fun x =>
      { x with fetchBuf := x.fetchBuf ++ words, fetchAddr := a + 128, lastFetch := some t }.addAccesses t [acc])
    match c.meetings [acc] with
    | m :: _ => .next (s1.loseAccess p t m.1 m.2)
    | [] => .next s1

/-- INSTRUCTION_DISPATCH (R137): one instruction per CCLK, in program order, into the queue its class names. -/
def execInstructionDispatch (t p : Nat) (s : State) : Host.Outcome State Fault Refusal :=
  let s := s.atC t
  match s.unlessStopped ((s.core p).dispatching t) with
  | none => .next s
  | some c =>
    match c.fetchBuf with
    | [] => .next s
    | (w, bad) :: _ =>
      match bad with
      | some cause => .next ((s.setCore p c).coreFault p cause .ct w)
      | none =>
        match decodeCore w with
        | none => .next ((s.setCore p c).coreFault p .illegalEncoding .ct w)
        | some i =>
          match coreQueue i with
          | none => .next s
          | some q =>
            if c.full q then .next (s.setCore p (c.stopOnFull q t))
            else
              let c1 := (c.setQueue q (c.queue q ++ [.instr i w t])).dispatched t
              .next (s.setCore p { c1 with ended := match i with | .ctEnd _ => true | _ => c1.ended })

/-- The six queues. -/
def allQueues : List QueueId := [.mx, .mv, .vx, .dt, .dl, .ct]
/-- Whether QMASK names a queue (R141). -/
def maskNames (m : Nat) : QueueId → Bool
  | .mx => bitAt m 0 | .mv => bitAt m 1 | .vx => bitAt m 2 | .dt => bitAt m 3 | .dl => bitAt m 4 | .ct => bitAt m 5

/-- SY.GATE (R141): a gate marker into each queue named in QMASK. -/
def execSyGate (t p : Nat) (f : SyGate) (s : State) : Host.Outcome State Fault Refusal :=
  let s := s.atC t
  match s.unlessStopped ((s.core p).dispatching t) with
  | none => .next s
  | some c =>
    match c.fetchBuf with
    | (w, none) :: _ =>
      if decodeCore w ≠ some (.syGate f) then .next s
      else if f.qmask = 0 ∨ 2 ^ 31 ≤ f.time.toNat ∨ f.bound ≠ 0 ∨ f.rsv ≠ 0 then
        .next ((s.setCore p c).coreFault p .illegalEncoding .ct w)
      else
        let named := allQueues.filter (maskNames f.qmask.toNat)
        match named.find? (fun q => c.full q) with
        | some q => .next (s.setCore p (c.stopOnFull q t))
        | none =>
          .next (s.setCore p ((named.foldl (fun x q => x.setQueue q (x.queue q ++ [.gate f.time.toNat])) c).dispatched t))
    | _ => .next s

/-- GATE_OPEN (R141): the marker at the head of a queue opens once TCK has reached its TIME. -/
def execGateOpen (t p : Nat) (q : QueueId) (s : State) : Host.Outcome State Fault Refusal :=
  let s := s.atC t
  let c := s.core p
  match c.queue q with
  | .gate time :: rest =>
    if (c.st = .run ∨ c.st = .wait) ∧ time ≤ c.tck t then .next (s.setCore p (c.setQueue q rest)) else .next s
  | _ => .next s

/-- The wait test of R146. -/
def waitSatisfied (count target : W32) : Bool := !(serialLt count.toNat target.toNat 32)

/-- SY.WAITC (R146): a satisfied wait costs its dispatch CCLK; else the core pauses from the next CCLK. -/
def execSyWaitc (t p : Nat) (f : SyWaitc) (s : State) : Host.Outcome State Fault Refusal :=
  let s := s.atC t
  match s.unlessStopped ((s.core p).dispatching t) with
  | none => .next s
  | some c =>
    match c.fetchBuf with
    | (w, none) :: _ =>
      if decodeCore w ≠ some (.syWaitc f) then .next s
      else if f.bound = 0 ∨ f.rsv ≠ 0 then .next ((s.setCore p c).coreFault p .illegalEncoding .ct w)
      else
        let c1 := c.dispatched t
        if waitSatisfied (Table.get 0 c1.arr f.cnt.toNat) f.target then .next (s.setCore p c1)
        else .next (s.setCore p { c1 with st := .wait, pause := some (.waitc f.cnt.toNat f.target.toNat f.bound.toNat (t + 1)) })
    | _ => .next s

/-- ARRIVAL_TIMEOUT (R146): BOUND elapsed CCLK have passed in the wait, an accumulation replay meanwhile included; the task faults. -/
def execArrivalTimeout (t p : Nat) (s : State) : Host.Outcome State Fault Refusal :=
  let s := s.atC t
  let c := s.core p
  match c.pause with
  | some (.waitc cnt target bound since) =>
    if (c.st = .wait ∨ c.st = .replay) ∧ since + bound ≤ t then
      .next (s.coreFault p .arrivalTimeout .ct 0 [cnt, target, (Table.get (0 : W32) c.arr cnt).toNat])
    else .next s
  | _ => .next s

/-- Whether the start of a task zeroes a counter in a CCLK after `t` (R171 step 4): an arrival in CCLK `t` comes before it. -/
def Core.resetAfter (c : Core) (cnt t : Nat) : Bool :=
  c.st == .switch && decide (t + 8 < c.fetchAt) && (match c.task with | some k => bitAt k.creset cnt | none => false)

/-- One unit has arrived on a counter in CCLK `t` (R144): the counter gains 1, and a wait it satisfies ends with TCK one
more than in the dispatch CCLK (R146). The arrivals of a CCLK are kept: a write of the same CCLK applies before them (R145). -/
def Core.arrive (c : Core) (cnt t : Nat) : Core :=
  if c.resetAfter cnt t then c else
  let v := Table.get (0 : W32) c.arr cnt + 1
  let n := Table.get (0, 0) c.arrNew cnt
  let c1 := { c with arr := Table.set 0 c.arr cnt v, arrNew := Table.set (0, 0) c.arrNew cnt (t, if n.1 = t then n.2 + 1 else 1) }
  match c1.pause with
  | some (.waitc k target _ since) =>
    if k = cnt ∧ (c1.st = .wait ∨ c1.st = .replay) ∧ waitSatisfied v (BitVec.ofNat 32 target) then
      let r := max (t + 1) c1.replayEnd
      { c1 with pause := none, st := if c1.st = .replay then .replay else .run, resumeAt := r,
                replaySince := c1.replaySince.map (fun _ => r), pausedTotal := c1.pausedTotal + (r - since) }
    else c1
  | _ => c1

end Sys2Proof.Machine
end

