-- ==== Sys2Proof/Machine/Memory.lean ====
section
/-!
DEFINITION. Memory by device physical address (08_memory_system.md, 09_address_translation.md R246, R247): the address map, reads
and writes with their Seals (R237, R407), the SLM cache (R235), memory errors and the channel map-out (R232, R233, R238).
-/
namespace Sys2Proof.Machine

/-! ### Units -/

/-- An HBM stack. -/
def State.stack (s : State) (k : Nat) : Stack := Table.get {} s.mem.hbms k
/-- Change the memory side. -/
def State.modMem (s : State) (f : Mem → Mem) : State := { s with mem := f s.mem }
/-- Change a stack. -/
def State.modStack (s : State) (k : Nat) (f : Stack → Stack) : State :=
  s.modMem (fun m => { m with hbms := Table.modify {} m.hbms k f })
/-- A foundation die's SLM. -/
def State.slm (s : State) (k : Nat) : Slm := Table.get {} s.mem.slms k
/-- Change a die's SLM. -/
def State.modSlm (s : State) (k : Nat) (f : Slm → Slm) : State :=
  s.modMem (fun m => { m with slms := Table.modify {} m.slms k f })
/-- The mode of SLM unit `u` of die `k` (R234). -/
def State.unitMode (s : State) (k u : Nat) : Nat := s.obj (0x3180 + k) (u + 1)
/-- CACHE units of a die (R234). -/
def State.cacheUnits (s : State) (k : Nat) : Nat := ((List.range 12).filter (fun u => s.unitMode k u == 2)).length

/-! ### Addresses -/

/-- 1 GiB. -/
def gib : Nat := 2 ^ 30

/-- The decode of an HBM DPA with `n` spread segments (R228): stack and stack-local address. -/
def hbmDecode (n dpa : Nat) : Nat × Nat :=
  if dpa < 16 * n * gib then
    let b := dpa / 4096
    (Nat.xor (Nat.xor (b % 16) (b / 16 % 16)) (b / 256 % 16), b / 16 * 4096 + dpa % 4096)
  else
    let q := dpa - 16 * n * gib
    (q / ((64 - n) * gib), n * gib + q % ((64 - n) * gib))

/-- The DPA of a stack-local address in a local segment (the inverse of R228's second case). -/
def localDpa (n st l : Nat) : Nat := 16 * n * gib + st * ((64 - n) * gib) + (l - n * gib)

/-- Channel, pseudo-channel and offset of a stack-local address (R230). -/
def pcSelect (l : Nat) : Nat × Nat × Nat :=
  let p := Nat.xor (Nat.xor (l / 2 ^ 8 % 64) (l / 2 ^ 14 % 64)) (l / 2 ^ 20 % 64)
  (p / 2, p % 2, l / 2 ^ 14 * 256 + l % 256)

/-- The channel on which R230 puts 256 B granule `g` of a stack. -/
def granuleChannel (g : Nat) : Nat := (pcSelect (256 * g)).1
/-- The granules of the 16 KiB run `r` of a stack whose channel is mapped out in `chmap`, or is healthy, in ascending L (R232). -/
def runGranules (chmap : Nat) (out : Bool) (r : Nat) : List Nat :=
  ((List.range 64).map (fun i => 64 * r + i)).filter (fun g => bitAt chmap (granuleChannel g) == out)
/-- R232: the granule in which granule `g` lies. The displaced granules, 2m in each run of the live range, take the healthy granules of the
removed range, 64 - 2m in each run, both in ascending L. -/
def Stack.placed (k : Stack) (g : Nat) : Nat :=
  if bitAt k.chmap (granuleChannel g) then
    let m := k.m
    let rank := 2 * m * (g / 64) + (runGranules k.chmap true (g / 64)).idxOf g
    (runGranules k.chmap false ((32 - m) * 131072 + rank / (64 - 2 * m))).getD (rank % (64 - 2 * m)) g
  else g
/-- Channel, pseudo-channel and offset at which a stack-local address lies after its map-outs (R230, R232). -/
def Stack.pcOf (k : Stack) (l : Nat) : Nat × Nat × Nat := pcSelect (256 * k.placed (l / 256) + l % 256)

/-- What a DPA names (R246). -/
inductive Region
  | hbm (st l : Nat)
  | slm (k off : Nat)
  | spm (core off : Nat)
  | embLookup (st off : Nat)
  | embUpdate (st off : Nat)
  | atomic (off : Nat)
  | unmapped
  deriving DecidableEq, Repr

/-- SPREADSEGS (R244). -/
def State.spreadSegs (s : State) : Nat := s.obj 0x2400 1

/-- The region of a DPA (R229, R232, R234, R246, R247): a removed range, a CACHE unit and an alias for which no core in
service stands are unmapped. -/
def State.region (s : State) (dpa : Nat) : Region :=
  if dpa < 0x10000000000 then
    let d := hbmDecode s.spreadSegs dpa
    if d.2 < (32 - (s.stack d.1).m) * 2 ^ 31 then .hbm d.1 d.2 else .unmapped
  else if dpa < 0x14000000000 then
    let r := dpa - 0x10000000000
    let k := r / 0x80000000
    let off := r % 0x80000000
    if k < 8 ∧ off < 0x60000000 ∧ s.unitMode k (off / 0x8000000) ≠ 2 then .slm k off else .unmapped
  else if dpa < 0x16000000000 then
    let r := dpa - 0x14000000000
    if r / 0x2000000 < 144 ∧ r % 0x2000000 < spmSize then .spm (r / 0x2000000) (r % 0x2000000) else .unmapped
  else if dpa < 0x18000000000 then
    let r := dpa - 0x16000000000
    match Table.get none s.stands (r / 0x2000000) with
    | some c => if r / 0x2000000 < 144 ∧ r % 0x2000000 < spmSize ∧ s.pstate c ≠ .lost then .spm c (r % 0x2000000) else .unmapped
    | none => .unmapped
  else if dpa < 0x19000000000 then
    let r := dpa - 0x18000000000
    if 16 ≤ r / 0x80000000 then .unmapped
    else if r % 0x80000000 < 0x40000000 then .embLookup (r / 0x80000000) (r % 0x80000000)
    else .embUpdate (r / 0x80000000) (r % 0x80000000 - 0x40000000)
  else if dpa < 0x19000100000 then .atomic (dpa - 0x19000000000)
  else .unmapped

/-- The stack or die of a DPA with its channel and pseudo-channel, as a scorecard names them (R238). -/
def State.dpaDetail (s : State) (dpa : Nat) : List Nat :=
  match s.region dpa with
  | .hbm st l => let pc := (s.stack st).pcOf l; [st, pc.1, pc.2.1]
  | .slm k _ => [k]
  | _ => []

/-- Whether a DPA lies in an SLM unit that is being skimmed: its accesses wait (R234). -/
def State.skims (s : State) (dpa : Nat) : Bool :=
  match s.region dpa with
  | .slm k off => (s.slm k).skimming.contains (off / 0x8000000)
  | _ => false

/-- Whether a DPA lies in the embedding area (R231). -/
def State.inEmbArea (s : State) (dpa : Nat) : Bool :=
  match s.region dpa with
  | .hbm _ l => decide (s.obj 0x2400 2 ≤ l / gib) && decide (l / gib ≤ s.obj 0x2400 3)
  | _ => false

/-! ### Errors -/

/-- Enter a block in a stack's bad-block list (R233, R244). -/
def State.addBad (s : State) (st dpa : Nat) : State :=
  let k := s.stack st
  if k.bad.contains dpa then s
  else
    let full := decide (1024 ≤ k.bad.length)
    let s1 := s.modStack st (fun x => { x with bad := (if full then x.bad.drop 1 else x.bad) ++ [dpa] })
    let s2 := s1.postErr { cls := .memory, sev := .degraded, cause := 0x03, ukind := .hbmStack, unit := st, info6 := dpa }
    if full then s2.postErr { cls := .memory, sev := .degraded, cause := 0x04, ukind := .hbmStack, unit := st } else s2

/-- Whether the block of a DPA is on its stack's bad-block list (R233, R238). -/
def State.isBad (s : State) (dpa : Nat) : Bool :=
  match s.region dpa with
  | .hbm st _ => (s.stack st).bad.contains (dpa / 4096 * 4096)
  | _ => false

/-- Whether an access at a DPA writes part of a block that is on its stack's bad-block list (R237). -/
def State.badPart (s : State) (dpa n : Nat) : Bool := s.isBad dpa && !(dpa % 4096 == 0 && n == 4096)

/-- Begin a map-out: DRAIN, with an error record naming the channel and the removed range (R233 step 1). -/
def State.beginMapout (s : State) (st ch : Nat) : State :=
  let k := s.stack st
  (s.modStack st (fun x => { x with mo := .drain, moChan := ch, copied := false })).postErr
    { cls := .memory, sev := .degraded, cause := 0x05, ukind := .hbmStack, unit := st, info6 := (31 - k.m) * 2 ^ 31, info7 := ch * 2 ^ 56 }

/-- A map-out is refused: a fifth (R232), or one that would take a window segment (R377). -/
def State.refuseMapout (s : State) (st ch : Nat) : State :=
  (s.modStack st (fun x => { x with mo := .refused })).postErr
    { cls := .memory, sev := .degraded, cause := 0x06, ukind := .hbmStack, unit := st, info7 := ch * 2 ^ 56 }

/-- Entry `i` of the window table (R373): stack and segment. -/
def State.hdmEntry (s : State) (i : Nat) : Nat × Nat :=
  let e := s.obj 0x2900 5 / 2 ^ (16 * i) % 65536
  (e / 4096, e % 64)
/-- Whether a further map-out on a stack would remove a segment that a window entry names while the decoder is committed (R377). -/
def State.windowLoses (s : State) (st : Nat) : Bool :=
  s.host.decCommitted && (List.range 64).any (fun i =>
    let e := s.hdmEntry i
    e.1 == st && decide (64 - 2 * ((s.stack st).m + 1) ≤ e.2))

/-- A map-out asked for begins or is refused (R232, R233, R377). -/
def State.startMapout (s : State) (st ch : Nat) : State :=
  if 4 ≤ (s.stack st).m ∨ s.windowLoses st then s.refuseMapout st ch else s.beginMapout st ch
/-- A map-out waits for the one in progress on its stack (R233). -/
def State.waitMapout (s : State) (st ch : Nat) : State :=
  s.modStack st (fun x => { x with moWait := if x.moWait.contains ch || x.moChan == ch then x.moWait else x.moWait ++ [ch] })
/-- An automatic trigger of R233 step 1; one map-out at a time runs per stack, so that the trigger waits for another in progress. -/
def State.autoMapout (s : State) (st ch : Nat) : State :=
  let k := s.stack st
  if s.obj 0x2400 4 = 0 ∨ bitAt k.chmap ch then s
  else if k.mo = .drain ∨ k.mo = .copy then s.waitMapout st ch
  else s.startMapout st ch

/-- A corrected error on an HBM channel (R233, R236, R244, R393). -/
def State.hbmCorrected (s : State) (st l dpa : Nat) : State :=
  let pc := (s.stack st).pcOf l
  let h := Table.get (0, 0) (s.stack st).hour pc.1
  let h1 : Nat × Nat := if s.bclk < h.1 + 3600000000000 ∧ 0 < h.2 then (h.1, h.2 + 1) else (s.bclk, 1)
  let s1 := s.modStack st (fun x => { x with ceCount := satInc x.ceCount 64, hour := Table.set (0, 0) x.hour pc.1 h1 })
  let s2 := s1.postErr { cls := .memory, sev := .corrected, cause := 0x01, ukind := .hbmStack, unit := st, info6 := dpa,
                         info7 := pc.1 * 2 ^ 56 + pc.2.1 * 2 ^ 55 + h1.2 % 2 ^ 32 }
  if s.obj 0x2400 5 < h1.2 then s2.autoMapout st pc.1 else s2

/-- An uncorrectable error on an HBM channel (R233, R238, R244). -/
def State.hbmUncorrectable (s : State) (st l dpa : Nat) : State :=
  let pc := (s.stack st).pcOf l
  let s1 := s.modStack st (fun x => { x with ueCount := satInc x.ueCount 64, ueSeen := Nat.lor x.ueSeen (2 ^ pc.1) })
  let s2 := s1.postErr { cls := .memory, sev := .degraded, cause := 0x02, ukind := .hbmStack, unit := st, info6 := dpa,
                         info7 := pc.1 * 2 ^ 56 + pc.2.1 * 2 ^ 55 }
  if bitAt (s.stack st).ueSeen pc.1 then s2 else s2.autoMapout st pc.1

/-- What the error codes find on a read at a DPA is counted and reported (R236, R238). -/
def State.noteRead (s : State) (dpa : Nat) (e : Ecc) : State :=
  match e, s.region dpa with
  | .ok, _ => s
  | .corrected, .hbm st l => s.hbmCorrected st l dpa
  | .uncorrectable, .hbm st l => s.hbmUncorrectable st l dpa
  | .corrected, .slm k _ => s.postErr { cls := .memory, sev := .corrected, cause := 0x01, ukind := .foundationDie, unit := k, info6 := dpa }
  | .uncorrectable, .slm k _ =>
    s.postErr { cls := .memory, sev := .degraded, cause := 0x02, ukind := .foundationDie, unit := k, info6 := dpa }
  | .corrected, .spm c _ => s.postErr { cls := .memory, sev := .corrected, cause := 0x01, ukind := .position, unit := c, info6 := dpa }
  | .uncorrectable, .spm c _ =>
    s.postErr { cls := .memory, sev := .degraded, cause := 0x02, ukind := .position, unit := c, info6 := dpa }
  | _, _ => s

/-! ### The SLM cache (R235) -/

/-- Drop a line from a die's cache, and cancel an outstanding fill of it. -/
def Slm.cancel (x : Slm) (blk : Nat) : Slm := { x with fills := x.fills.map (fun f => if f.1 = blk then (f.1, true) else f) }

/-- A read of class `cls` passes the die of a stack: a present block is now the most recently used; a miss of an allocating class
starts a fill. -/
def State.cacheRead (s : State) (dpa cls : Nat) : State :=
  match s.region dpa with
  | .hbm st _ =>
    let k := st / 2
    let blk := dpa / 4096
    if s.inEmbArea dpa || s.cacheUnits k == 0 then s
    else if (s.slm k).lines.contains blk then
      s.modSlm k (fun x => { x with lines := x.lines.filter (fun b => b != blk) ++ [blk] })
    else if bitAt (s.obj (0x3180 + k) 0xD) cls && !((s.slm k).fills.any (fun f => f.1 == blk)) then
      s.modSlm k (fun x => { x with fills := x.fills ++ [(blk, false)] })
    else s
  | _ => s

/-- The die whose SLM cache holds the block of a DPA. -/
def State.cachedAt (s : State) (dpa : Nat) : Option Nat :=
  match s.region dpa with
  | .hbm st _ => if (s.slm (st / 2)).lines.contains (dpa / 4096) then some (st / 2) else none
  | _ => none

/-- What the error codes find on a read at a DPA that may be served by the SLM cache, and what is left of it for the reader: an
uncorrectable line is dropped and refetched from HBM, which counts as corrected (R236). -/
def State.foundAt (s : State) (dpa : Nat) (e : Ecc) : State × Ecc :=
  match e, s.cachedAt dpa with
  | .ok, _ => (s, .ok)
  | e, none => (s.noteRead dpa e, e)
  | e, some k =>
    let s1 := if e = .uncorrectable then
        s.modSlm k (fun x => { x with lines := x.lines.filter (fun b => b != dpa / 4096), fills := x.fills ++ [(dpa / 4096, false)] })
      else s
    (s1.postErr { cls := .memory, sev := .corrected, cause := 0x01, ukind := .foundationDie, unit := k, info6 := dpa }, .corrected)

/-- A write passes the die of a stack: it cancels an outstanding fill of the block; an atomic also drops the line. -/
def State.cacheWrite (s : State) (dpa : Nat) (atomic : Bool) : State :=
  match s.region dpa with
  | .hbm st _ =>
    let blk := dpa / 4096
    s.modSlm (st / 2) (fun x =>
      let y := x.cancel blk
      if atomic then { y with lines := y.lines.filter (fun b => b != blk) } else y)
  | _ => s

/-- Sets of a die's cache: 2,048 per CACHE unit, 16 ways. -/
def State.cacheSets (s : State) (k : Nat) : Nat := 2048 * s.cacheUnits k

/-- Install a block, replacing the least recently used line of its set. -/
def State.cacheInstall (s : State) (k blk : Nat) : State :=
  let n := s.cacheSets k
  if n = 0 then s
  else s.modSlm k (fun x =>
    let mates := x.lines.filter (fun b => b % n == blk % n)
    let keep := if mates.length < 16 then x.lines
      else match mates with
        | old :: _ => x.lines.filter (fun b => b != old)
        | [] => x.lines
    { x with lines := keep ++ [blk] })

/-! ### Bytes -/

/-- `n` bytes at a DPA, from wherever the region keeps them. -/
def State.readDpa (s : State) (dpa n : Nat) : List Byte :=
  match s.region dpa with
  | .spm c off => (s.coreNow c).spm.readBytes off n
  | _ => s.mem.dram.readBytes dpa n

/-- The Seal of an HBM or SLM block (R237). -/
def State.sealOf (s : State) (blk : Nat) : W32 := Table.get crcZeroBlock s.mem.seals blk

/-- A write into HBM or SLM that lies in one 4 KiB block: a whole block brings its Seal, a part updates it (R237, R407). -/
def State.writeDram (s : State) (dpa : Nat) (bs : List Byte) : State :=
  let blk := dpa / 4096
  let seal' : W32 :=
    if dpa % 4096 = 0 ∧ bs.length = 4096 then crc32c bs
    else
      let old := s.mem.dram.readBytes dpa bs.length
      let delta := List.replicate (dpa % 4096) 0 ++ (old.zip bs).map (fun x => x.1 ^^^ x.2)
      sealUpdate (s.sealOf blk) (padTo 4096 delta)
  let s1 := s.modMem (fun m => { m with dram := m.dram.writeBytes dpa bs, seals := Table.set crcZeroBlock m.seals blk seal' })
  if dpa % 4096 = 0 ∧ bs.length = 4096 then
    match s1.region dpa with
    | .hbm st _ => s1.modStack st (fun x => { x with bad := x.bad.filter (fun b => b != dpa) })
    | _ => s1
  else s1

/-- Split a run of bytes at 4 KiB block boundaries. -/
def splitBlocks : Nat → Nat → List Byte → List (Nat × List Byte)
  | 0, _, _ => []
  | f + 1, a, bs =>
    if bs.isEmpty then []
    else
      let n := 4096 - a % 4096
      (a, bs.take n) :: splitBlocks f (a + n) (bs.drop n)

/-- Write bytes at a DPA, block by block. -/
def State.writeDpa (s : State) (dpa : Nat) (bs : List Byte) : State :=
  (splitBlocks (bs.length / 4096 + 2) dpa bs).foldl (fun x b =>
    match x.region b.1 with
    | .spm c off => x.bgWrite c off b.2
    | .hbm _ _ => (x.writeDram b.1 b.2).cacheWrite b.1 false
    | .slm _ _ => x.writeDram b.1 b.2
    | _ => x) s

/-! ### Slave operations of the map-out and the SLM -/

/-- SLM_CACHE_FILL (R235): the oldest outstanding fill of die `k` completes; it installs its line unless a write cancelled it or
the block failed its Seal (`ok` false). -/
def execSlmCacheFill (t k : Nat) (ok : Bool) (s : State) : Host.Outcome State Fault Refusal :=
  let s := s.atB t
  match (s.slm k).fills with
  | [] => .next s
  | (blk, cancelled) :: rest =>
    let s1 := s.modSlm k (fun x => { x with fills := rest })
    .next (if cancelled || !ok then s1 else s1.cacheInstall k blk)

/-- SLM_UNIT_SKIM_DONE (R234): a unit that became SCRATCH is all zero, and its accesses proceed. -/
def execSlmUnitSkimDone (t k u : Nat) (s : State) : Host.Outcome State Fault Refusal :=
  let s := s.atB t
  if (s.slm k).skimming.contains u then
    let base := 0x10000000000 + k * 0x80000000 + u * 0x8000000
    .next ((s.modSlm k (fun x => { x with skimming := x.skimming.filter (fun y => y != u) })).modMem (fun m =>
      { m with dram := Table.clearRange m.dram base 0x8000000, seals := Table.clearRange m.seals (base / 4096) 32768 }))
  else .next s

/-- PATROL_SCRUB (R237): a live unit is read; a corrected error is written back and counted, an uncorrectable error recorded.
Scrub never alters the data. -/
def execPatrolScrub (t dpa : Nat) (e : Ecc) (s : State) : Host.Outcome State Fault Refusal :=
  let s := s.atB t
  if s.stopped then .next s else
  match s.region dpa with
  | .hbm _ _ => .next (s.noteRead dpa e)
  | .slm _ _ => .next (s.noteRead dpa e)
  | _ => .next s

end Sys2Proof.Machine
end

