-- ==== Sys2Proof/Machine/Xlate.lean ====
section
/-!
DEFINITION. Address translation (09_address_translation.md R249-R261): page table walks, merged runs, the translation units with their
buffers, and invalidation.
-/
namespace Sys2Proof.Machine

/-- DVA bits below an entry of a level (R249). -/
def lvlShift (level : Nat) : Nat := 12 + 9 * level
/-- Index of a DVA at a level (R249). -/
def lvlIndex (level dva : Nat) : Nat := if level = 3 then dva / 2 ^ 39 % 8192 else dva / 2 ^ lvlShift level % 512
/-- Size of the table of a level (R249). -/
def tableSize (level : Nat) : Nat := if level = 3 then 65536 else 4096

/-- Fields of a page table entry (R250). -/
def pteV (e : Nat) : Bool := bitAt e 63
def pteLeaf (e : Nat) : Bool := bitAt e 62
def pteTgt (e : Nat) : Nat := bits e 61 60
def pteW (e : Nat) : Bool := bitAt e 59
def pteAddr (e : Nat) : Nat := bits e 51 12 * 4096
def pteRsv (e : Nat) : Nat := bits e 58 52 + bits e 11 0

/-- The target kind of a leaf. -/
def tgtOf : Nat → Option Tgt
  | 0 => some .local' | 1 => some .host | 2 => some .window | _ => none

/-- The last entry a translation read, and the case of R257 in the order of its table: 0 V = 0, 1 LEAF at the wrong level, 2 a broken field,
3 a pointer outside HBM and SLM scratch, 4 uncorrectable, 5 a write with W = 0, 6 an unmapped local target, 7 a window with VALID = 0,
8 a refusal by the receiver, 9 PTROOT = 0 (R258). -/
structure XFault where
  level : Nat := 0
  dpa : Nat := 0
  value : Nat := 0
  case : Nat
  deriving DecidableEq, Repr

/-- What a walk finds: an entry with the pointers it used, or a fault (R258). -/
inductive WalkOut
  | ok (e : Tlb) (ptrs : List WalkPtr)
  | fault (f : XFault)
  deriving DecidableEq, Repr

/-- Whether `n` bytes at a DPA lie in HBM or SLM scratch (R249, R257). -/
def State.tableAt (s : State) (dpa n : Nat) : Bool :=
  match s.region dpa, s.region (dpa + n - 1) with
  | .hbm _ _, .hbm _ _ => true
  | .slm _ _, .slm _ _ => true
  | _, _ => false

/-- One entry of a table. -/
def State.pte (s : State) (dpa : Nat) : Nat := s.mem.dram.readNat dpa 8

/-- The largest aligned run of R253 that contains entry `i` of the table at `tbl`: first index and length. -/
def State.mergeRun (s : State) (tbl level i : Nat) : List Nat → Nat × Nat
  | [] => (i, 1)
  | n :: l =>
    let b := i - i % n
    let e0 := s.pte (tbl + 8 * b)
    let page := 2 ^ lvlShift level
    if (pteAddr e0 % (n * page) == 0) && (List.range n).all (fun j =>
        let e := s.pte (tbl + 8 * (b + j))
        pteV e && pteLeaf e && pteTgt e == pteTgt e0 && pteW e == pteW e0 && pteAddr e == pteAddr e0 + j * page)
    then (b, n) else s.mergeRun tbl level i l

/-- The case of R257 that an entry read at a level meets, judged in the order of its table. -/
def State.pteCase (s : State) (level e : Nat) : Option Nat :=
  let page := 2 ^ lvlShift level
  if ¬ pteV e then some 0
  else if pteLeaf e then
    if level = 3 then some 1
    else if pteRsv e ≠ 0 ∨ tgtOf (pteTgt e) = none ∨ pteAddr e % page ≠ 0 ∨ (pteTgt e = 0 ∧ 2 ^ 41 ≤ pteAddr e) then some 2
    else none
  else if level = 0 then some 1
  else if pteRsv e ≠ 0 ∨ pteTgt e ≠ 0 ∨ pteW e ∨ pteAddr e % tableSize (level - 1) ≠ 0 then some 2
  else if ¬ s.tableAt (pteAddr e) (tableSize (level - 1)) then some 3
  else none

/-- Walk from the table `tbl` of `level` (R249, R250, R257); `ue` names a level whose entry reads uncorrectable (R238), unless the SLM cache
holds it. The entries read stand beside the result. -/
def State.walkFrom (s : State) (dva : Nat) (ue : Option Nat) : Nat → Nat → List WalkPtr → List (Nat × Nat) → WalkOut × List (Nat × Nat)
  | level, tbl, ptrs, reads =>
    let i := lvlIndex level dva
    let at' := tbl + 8 * i
    let e := s.pte at'
    let read := reads ++ [(level, at')]
    if ¬ s.tableAt tbl (tableSize level) then (.fault { level := level, dpa := at', case := 3 }, reads)
    else if s.isBad at' ∨ (ue = some level ∧ s.cachedAt at' = none) then (.fault { level := level, dpa := at', case := 4 }, read)
    else match s.pteCase level e with
      | some c => (.fault ⟨level, at', e, c⟩, read)
      | none =>
        match tgtOf (pteTgt e), pteLeaf e, level with
        | some tg, true, _ =>
          let page := 2 ^ lvlShift level
          let r := s.mergeRun tbl level i [16, 8, 4, 2]
          (.ok { lo := (dva / page - (i - r.1)) * page, page := page, n := r.2, tgt := tg, w := pteW e, addr := pteAddr (s.pte (tbl + 8 * r.1)) } ptrs,
           read)
        | _, false, l + 1 =>
          s.walkFrom dva ue l (pteAddr e)
            (⟨l, dva / 2 ^ lvlShift (l + 1) * 2 ^ lvlShift (l + 1), 2 ^ lvlShift (l + 1), pteAddr e⟩ :: ptrs) read
        | _, _, _ => (.fault ⟨level, at', e, 2⟩, read)

/-- Whether an entry covers a DVA. -/
def Tlb.covers (e : Tlb) (dva : Nat) : Bool := decide (e.lo ≤ dva) && decide (dva < e.lo + e.n * e.page)
/-- The target address of a DVA through an entry (R251). -/
def Tlb.target (e : Tlb) (dva : Nat) : Nat := e.addr + (dva - e.lo)

/-- TLB entries of a translation unit (R252). -/
def tlbSize (xu : Nat) : Nat := if 144 ≤ xu ∧ xu < 160 then 32 else 64
/-- Miss slots of a translation unit (R252). -/
def missSlots (xu : Nat) : Nat := if xu < 144 then 20 else if xu < 160 then 8 else 16
/-- The foundation die whose walker serves a translation unit (R252). -/
def walkerOf (xu : Nat) : Nat :=
  if xu < 144 then xu / 18 else if xu < 160 then (xu - 144) / 2 else if xu = 162 then 3 else 0

/-- Insert as most recently used, dropping the least recently used beyond `n` (R252). -/
def lruPut (n : Nat) (e : Tlb) (l : List Tlb) : List Tlb := (e :: l.filter (fun x => decide (x ≠ e))).take n

/-- Change the translation units. -/
def State.modXl (s : State) (f : Xlate → Xlate) : State := s.modMem (fun m => { m with xl := f m.xl })

/-- A walk's entry fills the TLBs of the translation units that asked, the second-level TLB and the walk cache of the walker (R252, R253). -/
def Xlate.fill (x : Xlate) (die : Nat) (xus : List Nat) (e : Tlb) (ptrs : List WalkPtr) : Xlate :=
  { x with tlbs := xus.foldl (fun t xu => Table.modify [] t xu (lruPut (tlbSize xu) e)) x.tlbs,
           l2 := Table.modify [] x.l2 die (lruPut 4096 e),
           wcache := Table.modify [] x.wcache die (fun w => (ptrs ++ w.filter (fun p => !ptrs.contains p)).take 256) }

/-- A page walk by the walker of die `d` (R249, R253, R258): class 0 reads, counted; an entry fills the translation units `xus`, unless an
invalidation passed the walk in flight (`stale`, R259), and a fault fills nothing. -/
def State.pageWalk (s : State) (d : Nat) (xus : List Nat) (stale : Bool) (dva : Nat) (ue : Option Nat) : State × WalkOut :=
  let wc := Table.get [] s.mem.xl.wcache d
  let hits := wc.filter (fun p => decide (p.lo ≤ dva) && decide (dva < p.lo + p.span))
  let start : Nat × Nat := match hits.find? (fun p => hits.all (fun q => decide (p.level ≤ q.level))) with
    | some p => (p.level, p.table)
    | none => (3, s.obj 0x2500 1)
  let r := s.walkFrom dva ue start.1 start.2 [] []
  let s1 := r.2.foldl (fun x a => ((if ue = some a.1 then (x.foundAt a.2 .uncorrectable).1 else x)).cacheRead a.2 0)
    (s.modXl (fun x => { x with walks := satInc x.walks 64 }))
  match r.1 with
  | .fault _ => (s1, r.1)
  | .ok e ptrs => (if stale then s1 else s1.modXl (fun x => x.fill d xus e ptrs), r.1)

/-- The result of a translation. -/
inductive XRes
  | ok (tgt : Tgt) (addr : Nat)
  | fault (f : XFault)
  deriving DecidableEq, Repr

/-- Count a translation fault (R266). -/
def State.xlFault (s : State) : State := s.modXl (fun x => { x with faults := satInc x.faults 64 })

/-- Whether no table serves a DVA (R245, R257). -/
def State.noTable (s : State) (dva : Nat) : Bool := s.obj 0x2500 1 == 0 || decide (2 ^ 52 ≤ dva)

/-- What the TLB of a translation unit, or the second-level TLB behind it, holds for a DVA (R252). -/
def State.tlbFind (s : State) (xu dva : Nat) : State × Option Tlb :=
  match (Table.get [] s.mem.xl.tlbs xu).find? (fun e => e.covers dva) with
  | some e => (s.modXl (fun x => { x with tlbs := Table.modify [] x.tlbs xu (lruPut (tlbSize xu) e) }), some e)
  | none =>
    match (Table.get [] s.mem.xl.l2 (walkerOf xu)).find? (fun e => e.covers dva) with
    | some e => (s.modXl (fun x => { x with tlbs := Table.modify [] x.tlbs xu (lruPut (tlbSize xu) e),
                                            l2 := Table.modify [] x.l2 (walkerOf xu) (lruPut 4096 e) }), some e)
    | none => (s, none)

/-- Translate one DVA for a translation unit whose miss, if it meets one, is walked within the access (R252, R257); `wr` for a write. -/
def State.translate (s : State) (xu dva : Nat) (wr : Bool) (ue : Option Nat) : State × XRes :=
  let use (x : State) (e : Tlb) : State × XRes :=
    if wr && !e.w then (x.xlFault, .fault { case := 5 }) else (x, .ok e.tgt (e.target dva))
  if s.noTable dva then (s.xlFault, .fault { level := 3, case := 9 })
  else match s.tlbFind xu dva with
    | (s1, some e) => use s1 e
    | (s1, none) =>
      match s1.pageWalk (walkerOf xu) [xu] false dva ue with
      | (s2, .ok e _) => use s2 e
      | (s2, .fault f) => (s2.xlFault, .fault f)

/-! ### Misses and walk engines (R252, R254, R255) -/

/-- The engine a miss takes: a free one reserved for its class, else a free shared one, else none yet. -/
def engineFor (l : List Miss) (m : Miss) : WalkEng :=
  let on := l.filter (fun y => y.die == m.die)
  if (on.filter (fun y => y.cls == m.cls && y.eng == .reserved)).length < 2 then .reserved
  else if (on.filter (fun y => y.eng == .shared)).length < 8 then .shared
  else .queued

/-- Waiting misses take the free engines in their order. -/
def takeEngines : List Miss → List Miss → List Miss
  | done, [] => done
  | done, m :: l => takeEngines (done ++ [if m.eng = .queued then { m with eng := engineFor (done ++ m :: l) m } else m]) l

/-- Put a miss behind those that arrived before it, the lower class first in one BCLK. -/
def insertMiss (m : Miss) (l : List Miss) : List Miss :=
  let before (y : Miss) : Bool := decide (y.since < m.since) || (y.since == m.since && decide (y.cls ≤ m.cls))
  l.takeWhile before ++ m :: l.dropWhile before

/-- A transfer's miss takes its slot (R254, R255): it joins a walk of the same page and class that no invalidation has passed, or is a walk of
its own. With every slot of the translation unit taken it asks again. -/
def State.noteMiss (s : State) (id xu dva cls : Nat) : State :=
  let l := s.mem.xl.misses
  let same (m : Miss) : Bool := m.die == walkerOf xu && m.page == dva / 4096 && m.cls == cls && !m.stale
  if l.any (fun m => m.slots.any (fun w => w.2.1 == id)) ∨ missSlots xu ≤ ((l.flatMap (fun m => m.slots)).filter (fun w => w.1 == xu)).length then s
  else if l.any same then
    s.modXl (fun x => { x with misses := x.misses.map (fun m => if same m then { m with slots := m.slots ++ [(xu, id, dva)] } else m) })
  else
    s.modXl (fun x => { x with misses := takeEngines [] (insertMiss
      { die := walkerOf xu, page := dva / 4096, cls := cls, slots := [(xu, id, dva)], since := s.bclk } x.misses) })

/-- The walk that an engine makes for the slot of a transfer, if any. -/
def State.walking (s : State) (xu dva id : Nat) : Option Miss :=
  s.mem.xl.misses.find? (fun m => m.die == walkerOf xu && m.page == dva / 4096 && m.eng != .queued && m.slots.any (fun w => w.1 == xu && w.2.1 == id))
/-- A walk ends: its slots and engine are free, and waiting misses take engines. -/
def State.endMiss (s : State) (m : Miss) : State :=
  s.modXl (fun x => { x with misses := takeEngines [] (x.misses.erase m) })

/-- Whether a range of DVAs meets an invalidation; 0 pages means all (R266). -/
def XInv.meets (v : XInv) (lo n : Nat) : Bool :=
  v.pages == 0 || (decide (lo < v.lo + v.pages * 4096) && decide (v.lo < lo + n))

/-- An invalidation takes effect (R259): every unit drops each entry that overlaps the range; XLINVDONE gains 1. -/
def Xlate.invalidate (x : Xlate) (v : XInv) : Xlate :=
  let keep := fun (e : Tlb) => !(v.meets e.lo (e.n * e.page))
  { x with tlbs := (x.tlbs.map (fun p => (p.1, p.2.filter keep))).filter (fun p => decide (p.2 ≠ [])),
           l2 := (x.l2.map (fun p => (p.1, p.2.filter keep))).filter (fun p => decide (p.2 ≠ [])),
           wcache := (x.wcache.map (fun p => (p.1, p.2.filter (fun w => !(v.meets w.lo w.span))))).filter (fun p => decide (p.2 ≠ [])),
           invdone := x.invdone + 1 }

/-- Every queued invalidation takes effect at an edge (R259); a walk in flight then fills nothing. -/
def State.applyInvalidations (s : State) : State :=
  s.modXl (fun x =>
    let y := x.queue.foldl Xlate.invalidate x
    { y with queue := [], misses := if x.queue.isEmpty then y.misses else y.misses.map (fun m => { m with stale := m.stale || m.eng != .queued }) })

/-- PTROOT takes a new root: every TLB, second-level TLB and walk cache is invalidated (R261). -/
def State.setRoot (s : State) (root : Nat) : State :=
  (s.modXl (fun x => { x with tlbs := [], l2 := [], wcache := [] })).setObj 0x2500 1 root

/-! ### Windows -/

/-- Outbound window `w` (R262). -/
def State.outWin (s : State) (w : Nat) : Nat := s.obj (0x2600 + w / 256) (w % 256)
/-- Inbound window `w` (R263), as a 256-bit number. -/
def State.inWin (s : State) (w : Nat) : Nat := s.obj (0x2610 + w / 256) (w % 256)

/-- The receiver's window checks of R264 step 2. -/
def inWinOk (e src : Nat) (wr : Bool) (off len : Nat) : Bool :=
  bitAt e 63 && (if wr then bitAt e 62 else bitAt e 61) && decide (off + len ≤ bits e 103 64 + 1) &&
  (bitAt e 191 || decide (bits e 135 128 = src))

/-- Field rules of an outbound entry (R262). -/
def outWinLegal (e self : Nat) : Bool :=
  bits e 62 56 == 0 && bits e 47 44 == 0 && bits e 31 0 == 0 && bits e 55 48 != self
/-- Field rules of an inbound entry (R263). -/
def inWinLegal (e : Nat) : Bool :=
  bits e 60 52 == 0 && bits e 11 0 == 0 && bits e 127 104 == 0 && (bits e 103 64 + 1) % 4096 == 0 && bits e 190 136 == 0 &&
  bits e 255 192 == 0

end Sys2Proof.Machine
end

