-- ==== Sys2Proof/Machine/Link.lean ====
section
/-!
DEFINITION. Farast packets and their delivery (12_farast_links.md): formats and checks (R345, R352, R353), the link layer (R342-R346),
routing (R349), end-to-end requests and their answers (R350, R351, R354).
-/
namespace Sys2Proof.Machine

/-- A Farast port; port 12 stands for the on-package fabric (R356). -/
def State.port (s : State) (n : Nat) : Port := Table.get {} s.links.ports n
/-- Change the links. -/
def State.modLinks (s : State) (f : Links → Links) : State := { s with links := f s.links }
/-- Change a port. -/
def State.modPort (s : State) (n : Nat) (f : Port → Port) : State :=
  s.modLinks (fun l => { l with ports := Table.modify {} l.ports n f })
/-- This module's ID (R347). -/
def State.modId (s : State) : Nat := s.obj 0x2700 1

/-! ### Formats -/

end Sys2Proof.Machine

namespace Sys2Proof

open Sys2Proof.Machine

/-- Header word `i`. -/
def Packet.word (p : Packet) (i : Nat) : Nat := p.w.getD i 0
/-- Fields of a header (R352). -/
def Packet.op (p : Packet) : Nat := bits (p.word 0) 63 56
def Packet.src (p : Packet) : Nat := bits (p.word 0) 55 48
def Packet.dst (p : Packet) : Nat := bits (p.word 0) 47 40
def Packet.vc (p : Packet) : Nat := bits (p.word 0) 39 38
def Packet.plen (p : Packet) : Nat := bits (p.word 0) 36 24
def Packet.eseq (p : Packet) : Nat := bits (p.word 0) 23 0
def Packet.cmdref (p : Packet) : Nat := p.word 3
def Packet.step (p : Packet) : Nat := bits (p.word 4) 63 32
def Packet.gen (p : Packet) : Nat := bits (p.word 4) 31 16
def Packet.round (p : Packet) : Nat := bits (p.word 4) 15 12
def Packet.pseal (p : Packet) : Bool := bitAt (p.word 5) 31
def Packet.epoch (p : Packet) : Nat := bits (p.word 5) 7 0
def Packet.lseq (p : Packet) : Nat := bits (p.word 7) 15 0
/-- Flits of a packet (R334). -/
def Packet.flits (p : Packet) : Nat := 1 + cdiv p.payload.length 64

end Sys2Proof

namespace Sys2Proof.Machine

/-- The virtual channel of an opcode, none for a reserved opcode (R353). -/
def vcOf : Nat → Option Nat
  | 0x01 => some 3 | 0x02 => some 3 | 0x03 => some 2 | 0x04 => some 2 | 0x10 => some 1 | 0x11 => some 2 | 0x12 => some 3
  | 0x13 => some 1 | 0x14 => some 3 | 0x20 => some 2 | 0x21 => some 2 | _ => none

/-- Reserved bits of words 1, 2 and 6 by opcode (R353): their sum is zero in a legal header. -/
def rsvSpecific (p : Packet) : Nat :=
  let a := p.word 1
  let b := p.word 2
  let c := p.word 6
  match p.op with
  | 0x01 => bits a 63 52 + bits b 63 63 + bits b 52 0 + c
  | 0x02 => bits a 63 52 + bits b 63 56 + bits b 52 13 + c
  | 0x03 => a + b + bits c 63 24
  | 0x04 => a + b + bits c 63 32
  | 0x10 => bits a 47 32 + b + c
  | 0x11 => bits a 47 32 + b + bits c 32 25
  | 0x12 => bits a 47 32 + b + bits c 20 0
  | 0x13 => bits a 47 32 + b + bits c 58 32
  | 0x14 => bits a 51 32 + b + bits c 63 7
  | 0x20 => bits a 63 32 + bits b 63 48 + bits b 7 0 + bits c 27 14
  | 0x21 => bits a 63 32 + bits b 63 48 + bits b 7 0 + bits c 51 14
  | _ => 1

/-- The header check value (R352). -/
def hcrcOf (w : List Nat) : Nat := (crc32c ((w.take 7).flatMap (leBytes 8))).toNat
/-- The payload check value (R352). -/
def pchkOf (payload : List Byte) : Nat := if payload.isEmpty then 0 else (crc32c payload).toNat

end Sys2Proof.Machine

namespace Sys2Proof

open Sys2Proof.Machine

/-- Whether a packet passes the checks of R345 and R352. -/
def Packet.legal (p : Packet) : Bool :=
  p.w.length == 8 && bits (p.word 7) 63 32 == hcrcOf p.w && vcOf p.op == some p.vc && p.plen == p.payload.length &&
  decide (p.plen ≤ 4096) && bits (p.word 5) 63 32 == pchkOf p.payload && (!p.pseal || p.plen == 4096) &&
  rsvSpecific p + bits (p.word 4) 11 0 + bits (p.word 5) 30 8 + bits (p.word 7) 31 16 == 0

end Sys2Proof

namespace Sys2Proof.Machine

/-- What a packet is made of. -/
structure PktArgs where
  op : Nat
  dst : Nat
  w1 : Nat := 0
  w2 : Nat := 0
  w6 : Nat := 0
  cmdref : Nat := 0
  step : Nat := 0
  gen : Nat := 0
  round : Nat := 0
  pseal : Bool := false
  payload : List Byte := []
  deriving DecidableEq, Repr

/-- Build a packet with its check values; LSEQ is set by each hop (R352). -/
def State.mkPacket (s : State) (a : PktArgs) (eseq : Nat) (resend : Bool) : Packet :=
  let w0 := a.op * 2 ^ 56 + s.modId * 2 ^ 48 + a.dst * 2 ^ 40 + (vcOf a.op).getD 0 * 2 ^ 38 + b2n resend * 2 ^ 37 +
    a.payload.length * 2 ^ 24 + eseq % 2 ^ 24
  let w4 := a.step % 2 ^ 32 * 2 ^ 32 + a.gen % 2 ^ 16 * 2 ^ 16 + a.round % 16 * 2 ^ 12
  let w5 := pchkOf a.payload * 2 ^ 32 + b2n a.pseal * 2 ^ 31 + s.obj 0x2700 8 % 256
  let w := [w0, a.w1, a.w2, a.cmdref, w4, w5, a.w6]
  { w := w ++ [hcrcOf w * 2 ^ 32], payload := a.payload }

/-! ### The link layer -/

/-- Whether a port carries packets. -/
def Port.usable (p : Port) : Bool := p.st = .up || p.st = .narrow

/-- The port for a packet (R349): among the mask's usable ports, the one with the largest credit of its virtual channel, the
lowest number among equals. -/
def State.pickPort (s : State) (dst vc : Nat) : Option Nat :=
  let mask := s.obj 0x2710 dst
  let l := (List.range 12).filter (fun n => bitAt mask n && (s.port n).usable)
  let cr (n : Nat) := (s.port n).credit.getD vc 0
  l.find? (fun n => l.all (fun m => decide (cr m ≤ cr n)))

/-- Bytes held for retry (R346). -/
def Port.heldBytes (p : Port) : Nat := (p.held.map (fun h => 64 * h.pkt.flits)).foldl (· + ·) 0

/-- Whether a port can send a packet now: credit for all its flits, and room in the retry buffer (R344, R346). -/
def Port.canSend (p : Port) (k : Packet) : Bool :=
  p.usable && decide (k.flits ≤ p.credit.getD k.vc 0) && decide (p.held.length < 16384) && decide (p.heldBytes + 64 * k.flits ≤ 2 ^ 20)

end Sys2Proof.Machine

namespace Sys2Proof

open Sys2Proof.Machine

/-- Put LSEQ in a header. -/
def Packet.withLseq (k : Packet) (l : Nat) : Packet := { k with w := listSet k.w 7 (bits (k.word 7) 63 32 * 2 ^ 32 + l) }

end Sys2Proof

namespace Sys2Proof.Machine

/-- Send a packet on a port now (R344, R346). -/
def State.txNow (s : State) (n : Nat) (k : Packet) : State :=
  let p := s.port n
  let k' := k.withLseq p.txNext.toNat
  (s.modPort n (fun q =>
    { q with credit := listSet q.credit k.vc (q.credit.getD k.vc 0 - k.flits), txNext := q.txNext + 1,
             held := q.held ++ [{ lseq := q.txNext, pkt := k' }],
             progressAt := if q.held.isEmpty then s.bclk else q.progressAt })).emit (.packet n k')

/-- Send a packet on a port, or let it wait for credit behind earlier packets of its channel (R344). -/
def State.txOn (s : State) (n : Nat) (k : Packet) : State :=
  if (s.port n).canSend k ∧ ¬ s.stopped ∧ ¬ (s.port n).waiting.any (fun w => w.1 == k.vc) then s.txNow n k
  else s.modPort n (fun q => { q with waiting := q.waiting ++ [(k.vc, k)] })

/-- Send what waits on a port: VC0 first, then VC1, VC2 and VC3, each in order (R342). -/
def State.flushPort (s : State) (n : Nat) : State :=
  let w := (s.port n).waiting
  ((List.range 4).flatMap (fun v => w.filter (fun y => y.1 == v))).foldl (fun x y => x.txOn n y.2) (s.modPort n (fun q => { q with waiting := [] }))

/-- The port a packet takes toward its destination (R349); 12 stands for this module's own fabric (R356). -/
def State.portFor (s : State) (k : Packet) : Option Nat := if k.dst = s.modId then some 12 else s.pickPort k.dst k.vc
/-- Send a packet toward its destination: this module's own positions over the fabric (R356), other modules by R349. A packet with no usable port
is not sent. -/
def State.send (s : State) (k : Packet) : State :=
  if k.dst = s.modId then s.emit (.fabricPacket k)
  else match s.pickPort k.dst k.vc with
    | some n => s.txOn n k
    | none => s

/-! ### End to end -/

/-- Requests unanswered toward a module. -/
def State.unanswered (s : State) (dst : Nat) : Nat := (s.links.reqs.filter (fun r => r.dst == dst)).length

/-- Send a request (R350): the next ESEQ of its destination; beyond 16,384 unanswered it waits. -/
def State.sendRequest (s : State) (a : PktArgs) (owner : ReqOwner) : State :=
  if 16384 ≤ s.unanswered a.dst then
    s.modLinks (fun l => { l with backlog := l.backlog ++ [(a.dst, s.mkPacket a 0 false, owner)] })
  else
    let e := Table.get 0 s.links.nextEseq a.dst
    let k := s.mkPacket a e false
    let s1 := s.modLinks (fun l => { l with nextEseq := Table.set 0 l.nextEseq a.dst ((e + 1) % 2 ^ 24) })
    (s1.send k).modLinks (fun l => { l with reqs := l.reqs ++ [{ dst := a.dst, eseq := e, pkt := k, owner := owner, sentAt := s.bclk, lastAt := s.bclk, port := s1.portFor k }] })

end Sys2Proof.Machine

namespace Sys2Proof

open Sys2Proof.Machine

/-- Put another sequence or RESEND bit into a packet, with its header check renewed. -/
def Packet.restamp (k : Packet) (eseq : Nat) (resend : Bool) : Packet :=
  let w0 := setBits (setBits (k.word 0) 23 0 eseq) 37 37 (b2n resend)
  let w := listSet k.w 0 w0
  { k with w := listSet w 7 (hcrcOf w * 2 ^ 32) }

end Sys2Proof

namespace Sys2Proof.Machine

/-- Requests that waited for the window are sent as it opens. -/
def State.flushBacklog (s : State) (dst : Nat) : State :=
  match s.links.backlog.find? (fun b => b.1 == dst) with
  | none => s
  | some b =>
    if 16384 ≤ s.unanswered dst then s
    else
      let e := Table.get 0 s.links.nextEseq dst
      let k := b.2.1.restamp e false
      let s1 := s.modLinks (fun l => { l with nextEseq := Table.set 0 l.nextEseq dst ((e + 1) % 2 ^ 24), backlog := l.backlog.erase b })
      (s1.send k).modLinks (fun l => { l with reqs := l.reqs ++ [{ dst := dst, eseq := e, pkt := k, owner := b.2.2, sentAt := s.bclk, lastAt := s.bclk, port := s1.portFor k }] })

/-- The request an answer from a module names. -/
def State.reqOf (s : State) (dst eseq : Nat) : Option E2e := s.links.reqs.find? (fun r => r.dst == dst && r.eseq == eseq)
/-- Forget an answered request. -/
def State.dropReq (s : State) (dst eseq : Nat) : State :=
  (s.modLinks (fun l => { l with reqs := l.reqs.filter (fun r => !(r.dst == dst && r.eseq == eseq)) })).flushBacklog dst

/-- Answer a request with an EACK (R350, R354). -/
def State.eack (s : State) (k : Packet) (case : Nat) : State :=
  s.send (s.mkPacket { op := 0x04, dst := k.src, cmdref := k.cmdref, w6 := case * 2 ^ 24 + k.eseq } 0 false)

/-- What receiving a packet leads to. -/
inductive Recv
  | drop (s : State)
  | apply (s : State)
  deriving DecidableEq, Repr

/-- Drop a packet whole (R345): counted, and NAK is sent. -/
def State.dropPkt (s : State) (n : Nat) (nak : Bool) : State :=
  s.modPort n (fun q => { q with drops := satInc q.drops 64, nak := q.nak || nak })

/-- The window of a source; another EPOCH clears it first (R351). -/
def State.srcWin (s : State) (k : Packet) : SrcWin :=
  let w := Table.get {} s.links.srcs k.src
  if w.epoch = some k.epoch then w else { epoch := some k.epoch }
/-- A packet's EPOCH is seen (R351). -/
def State.seeEpoch (s : State) (k : Packet) : State := s.modLinks (fun l => { l with srcs := Table.set {} l.srcs k.src (s.srcWin k) })

/-- The link layer's part of reception (R345, R346, R348): a failing packet is dropped whole with NAK, an LSEQ out of order is
discarded, a packet for another module is dropped with a record. Port 12 is the fabric. -/
def State.recvLink (s : State) (n : Nat) (k : Packet) : Recv :=
  if n = 12 then (if k.legal && k.dst == s.modId && !s.stopped then .apply (s.seeEpoch k) else .drop s)
  else if s.stopped then .drop s
  else if ¬ (s.port n).usable then .drop s
  else if ¬ k.legal then .drop (s.dropPkt n true)
  else if k.lseq ≠ (s.port n).rxNext.toNat then .drop s
  else
    let s1 := s.modPort n (fun q =>
      { q with rxNext := q.rxNext + 1, nak := false, credRet := listSet q.credRet k.vc (q.credRet.getD k.vc 0 + k.flits) })
    if k.dst ≠ s.modId then
      .drop ((s1.dropPkt n false).postErr
        { cls := .link, sev := .info, cause := 0x07, ukind := .farastPort, unit := n, cmdref := k.cmdref,
          info7 := k.src * 2 ^ 56 + (s.port n).rtt % 2 ^ 32 })
    else .apply (s1.seeEpoch k)

/-- Mark an ESEQ applied, keeping the window of 65,536 values up to the highest (R351). -/
def SrcWin.mark (w : SrcWin) (e : Nat) : SrcWin :=
  let h := match w.high with
    | none => e
    | some h => if serialLt h e 24 then e else h
  { w with high := some h, marked := (e :: w.marked).filter (fun x => decide ((h + 2 ^ 24 - x) % 2 ^ 24 < 65536)) }

/-- Whether an ESEQ lies below the window (R351). -/
def SrcWin.below (w : SrcWin) (e : Nat) : Bool :=
  match w.high with
  | none => false
  | some h => !(serialLt h e 24) && decide (65536 ≤ (h + 2 ^ 24 - e) % 2 ^ 24)

/-- Receive a tracked request (R345-R351): a marked ESEQ is answered again and not applied, one below the window is dropped with a
record; otherwise it is to be judged and applied. -/
def State.recvRequest (s : State) (n : Nat) (k : Packet) : Recv :=
  match s.recvLink n k with
  | .drop x => .drop x
  | .apply x =>
    let w := x.srcWin k
    if w.marked.contains k.eseq then .drop (x.eack k 0)
    else if w.below k.eseq then
      .drop (x.postErr { cls := .link, sev := .info, cause := 0x08, ukind := .farastPort, unit := n, cmdref := k.cmdref, info7 := k.src * 2 ^ 56 })
    else .apply x

/-- Answer a request (R350, R354); one that was applied is marked (R351). -/
def State.answer (s : State) (k : Packet) (case : Nat) : State :=
  let s1 := if case = 0 then s.modLinks (fun l => { l with srcs := Table.modify {} l.srcs k.src (fun w => w.mark k.eseq) }) else s
  s1.eack k case

end Sys2Proof.Machine
end

