-- ==== Sys2Proof/Machine/Dmv.lean ====
section
/-!
DEFINITION. The data movers (05_core_programs.md R144, R155-R163): descriptors, units, their sources and destinations, arrivals,
source releases and acknowledgements; DM.SKIM and DM.COPY on the DL queue; page walks (R253).
-/
namespace Sys2Proof.Machine

/-! ### Host stores and window lines -/

/-- Whether a host target falls within the committed decoder range or the programmed BARs (R369). -/
def State.hostForbidden (s : State) (a : Nat) : Bool :=
  (s.host.decCommitted && decide (s.host.decBase ≤ a) && decide (a < s.host.decBase + 64 * gib)) ||
  (s.host.memEnable && ((decide (s.host.bar0 ≤ a) && decide (a < s.host.bar0 + 0x4000000)) ||
                        (decide (s.host.bar2 ≤ a) && decide (a < s.host.bar2 + 0x4000))))

/-- Host lines of 64 B that an access touches (R368). -/
def hostLines (a n : Nat) : Nat := (a + n - 1) / 64 + 1 - a / 64
/-- Requests to the host outstanding (R368). -/
def State.hostOut (s : State) : Nat :=
  (s.host.reads.map (fun r => hostLines r.addr r.len)).sum + (s.host.stores.map (fun h => hostLines h.addr h.len)).sum
/-- Whether `n` further requests would make more than the 1,024 that may be outstanding (R368). -/
def State.hostFull (s : State) (n : Nat) : Bool := s.hostReachable && decide (1024 < s.hostOut + n)
/-- The requests of a read (R368). -/
def readRequests (id a n : Nat) : List Output := (List.range (hostLines a n)).map (fun i => .rdCurr id (a / 64 + i))
/-- The request that writes the part of host line `l` which a store of `bs` at `a` covers (R368). -/
def storeRequest (id a : Nat) (bs : List Byte) (l : Nat) : Output :=
  let lo := max a (64 * l)
  let d := (bs.drop (lo - a)).take (64 * l + 64 - lo)
  if d.length = 64 then .itoMWr id l d else .woWrInv id l (2 ^ (lo % 64 + d.length) - 2 ^ (lo % 64)) d
/-- The requests of a store (R368). -/
def storeRequests (id a : Nat) (bs : List Byte) : List Output := (List.range (hostLines a bs.length)).map (fun i => storeRequest id a bs (a / 64 + i))

/-- A store to host memory (R368); with the host unreachable it is discarded and the command carries HOSTLOST (R384). -/
def State.storeHost (s : State) (ref : Nat) (xfer : Option (Nat × Nat)) (ring : Option Nat) (addr : Nat) (bs : List Byte) : State :=
  if s.hostReachable then
    let id := s.host.nextId
    (s.modHost (fun h => { h with nextId := id + 1, stores := h.stores ++
      [{ id := id, ref := ref, addr := addr, len := bs.length, xfer := xfer, ring := ring, sentAt := s.bclk,
         words := if ring.isSome then (List.range 8).map (fun i => leNat ((bs.drop (8 * i)).take 8)) else [] }] })).emitAll (storeRequests id addr bs)
  else s.modCmd ref (fun d => { d with hostlost := true })

/-- The window lines of a DPA range that the host holds and that must be back-invalidated first (R374). -/
def State.biNeeded (s : State) (dpa len : Nat) (wr : Bool) : List Nat :=
  s.host.snoop.filter (fun l => decide (l * 64 < dpa + len) && decide (dpa < l * 64 + 64) &&
    !(s.host.bi.any (fun b => b.line == l && b.answered && (b.inv || !wr))))

/-- Ask for the back-invalidation of lines not yet asked for (R374). -/
def State.askBi (s : State) (lines : List Nat) (wr : Bool) : State :=
  lines.foldl (fun x l =>
    if x.host.bi.any (fun b => b.line == l && (b.inv || !wr)) then x
    else (x.modHost (fun h => { h with bi := h.bi ++ [{ line := l, inv := wr }] })).emit (.backInv l wr)) s

/-- The accesses that answered back-invalidates allowed have been made. -/
def State.endBi (s : State) (dpa len : Nat) : State :=
  s.modHost (fun h => { h with bi := h.bi.filter (fun b => !(b.answered && decide (b.line * 64 < dpa + len) && decide (dpa < b.line * 64 + 64))) })

/-! ### Units and pieces -/

/-- A transfer. -/
def State.xfer (s : State) (id : Nat) : Option Xfer := s.mem.xfers.find? (fun x => x.id == id)
/-- Change a transfer. -/
def State.modXfer (s : State) (id : Nat) (f : Xfer → Xfer) : State :=
  s.modMem (fun m => { m with xfers := m.xfers.map (fun x => if x.id = id then f x else x) })

/-- Element bits of a transpose (R158). -/
def eszBits (e : Nat) : Nat := if e = 0 then 4 else if e = 1 then 8 else if e = 2 then 16 else 32
/-- Elements per source row of a transpose (R159). -/
def Xfer.cols (x : Xfer) : Nat := x.rlen * 8 / eszBits x.esz
/-- Rows and bytes per row at the destination (R159). -/
def Xfer.dRows (x : Xfer) : Nat := if x.transpose then x.cols else x.rows
def Xfer.dLen (x : Xfer) : Nat := if x.transpose then x.rows * eszBits x.esz / 8 else x.rlen
/-- Bytes of the transfer, and its units (R144). -/
def Xfer.bytes (x : Xfer) : Nat := x.dRows * x.dLen
def Xfer.units (x : Xfer) : Nat := cdiv x.bytes 4096
/-- The translation unit of a transfer (R252). -/
def Xfer.xuOf (x : Xfer) : Nat := x.xu.getD x.pos
/-- Bytes of unit `k`. -/
def Xfer.unitLen (x : Xfer) (k : Nat) : Nat := min 4096 (x.bytes - 4096 * k)

/-- Base address of an end. -/
def Loc.base : Loc → Nat
  | .spm o => o
  | .dva a => a
  | .port _ => 0

/-- Runs of one row and one page from byte `i` of a transfer: (address, length), `n` bytes in all. -/
def rowRuns (base rlen str : Nat) : Nat → Nat → Nat → List (Nat × Nat)
  | 0, _, _ => []
  | f + 1, i, n =>
    if n = 0 ∨ rlen = 0 then []
    else
      let a := base + i / rlen * str + i % rlen
      let m := min n (min (rlen - i % rlen) (4096 - a % 4096))
      (a, m) :: rowRuns base rlen str f (i + m) (n - m)

/-- Destination runs of unit `k`. -/
def Xfer.dstRuns (x : Xfer) (k : Nat) : List (Nat × Nat) := rowRuns x.dst.base x.dLen x.dstr 8192 (4096 * k) (x.unitLen k)

/-- Source runs of unit `k`: for a transpose the bytes that hold each element, nibble pairs as two single bytes (R159). -/
def Xfer.srcRuns (x : Xfer) (k : Nat) : List (Nat × Nat) :=
  if x.transpose then
    let e := eszBits x.esz
    (List.range (x.unitLen k)).flatMap (fun b =>
      let o := 4096 * k + b
      let j := o / x.dLen
      let w := o % x.dLen
      if e = 4 then [(x.src.base + 2 * w * x.sstr + j / 2, 1), (x.src.base + (2 * w + 1) * x.sstr + j / 2, 1)]
      else
        let eb := e / 8
        [(x.src.base + w / eb * x.sstr + j * eb + w % eb, 1)])
  else rowRuns x.src.base x.rlen x.sstr 8192 (4096 * k) (x.unitLen k)

/-- The bytes of unit `k` from its source runs' bytes: nibbles are picked by the column's parity (R49, R159). -/
def Xfer.assemble (x : Xfer) (k : Nat) (bs : List Byte) : List Byte :=
  if x.transpose ∧ eszBits x.esz = 4 then
    (List.range (x.unitLen k)).map (fun b =>
      let j := (4096 * k + b) / x.dLen
      let pick (v : Byte) : Nat := if j % 2 = 0 then v.toNat % 16 else v.toNat / 16
      BitVec.ofNat 8 (pick (bs.getD (2 * b) 0) + 16 * pick (bs.getD (2 * b + 1) 0)))
  else bs

/-! ### Places -/

/-- Where a run lies once translated. -/
inductive Place
  | spm (core off : Nat)
  | dram (dpa : Nat)
  | host (a : Nat)
  | window (w off : Nat)
  | lookup (st off : Nat)
  | update (st off : Nat)
  | atomic (off : Nat)
  deriving DecidableEq, Repr

/-- A fault of a transfer, with what the scorecard names. -/
structure XferFault where
  cause : Cause
  dva : Nat := 0
  dpa : Nat := 0
  detail : List Nat := []
  deriving DecidableEq, Repr

/-- What a part of a transfer leads to. -/
inductive Moved (α : Type)
  | ok (a : α)
  | wait
  | fault (f : XferFault)
  deriving DecidableEq, Repr

/-- Go on with what was found, or stay with the wait or the fault. -/
def andThen {α β : Type} (r : State × Moved α) (f : State → α → State × Moved β) : State × Moved β :=
  match r with
  | (s, .ok a) => f s a
  | (s, .wait) => (s, .wait)
  | (s, .fault x) => (s, .fault x)

/-- The DPA of a place on this module's memory (R246). -/
def Place.dpa : Place → Option Nat
  | .spm c off => some (0x14000000000 + c * 0x2000000 + off)
  | .dram d => some d
  | _ => none

/-- The place of a DPA for an access of `n` bytes; none where it is unmapped (R257). -/
def State.placeOf (s : State) (dpa n : Nat) : Option Place :=
  match s.region dpa, s.region (dpa + n - 1) with
  | .hbm _ _, .hbm _ _ => some (.dram dpa)
  | .slm _ _, .slm _ _ => some (.dram dpa)
  | .spm c off, .spm _ _ => some (.spm c off)
  | .embLookup st off, .embLookup _ _ => some (.lookup st off)
  | .embUpdate st off, .embUpdate _ _ => some (.update st off)
  | .atomic off, .atomic _ => some (.atomic off)
  | _, _ => none

/-- A translation fault at a DVA, with the walk's level, entry and value, and the stream and case, as the scorecard records them (R258). -/
def xlateFault (xu cls dva dpa : Nat) (f : XFault) : XferFault :=
  { cause := .xlate, dva := dva, dpa := dpa, detail := [f.level, f.dpa, f.value, (xu * 8 + cls) * 256 + f.case] }

/-- The place of `n` bytes at a translated address (R251, R257, R262, R369). -/
def State.placeAt (s : State) (xu cls a n : Nat) (tgt : Tgt) (addr : Nat) : State × Moved Place :=
  let bad (c : Nat) : State × Moved Place := (s.xlFault, .fault (xlateFault xu cls a addr { case := c }))
  match tgt with
  | .local' => match s.placeOf addr n with
    | some pl => (s, .ok pl)
    | none => bad 6
  | .host => if s.hostForbidden addr then bad 6 else (s, .ok (.host addr))
  | .window =>
    if bitAt (s.outWin (addr / 2 ^ 40 % 4096)) 63 then (s, .ok (.window (addr / 2 ^ 40 % 4096) (addr % 2 ^ 40))) else bad 7

/-- Resolve a run of one page for a translation unit that walks a miss within the access: the CFE's, in class 7 (R240, R252). -/
def State.resolve (s : State) (xu a n : Nat) (wr : Bool) (ue : Option Nat) : State × Moved Place :=
  match s.translate xu a wr ue with
  | (s1, .fault f) => (s1, .fault (xlateFault xu 7 a f.dpa f))
  | (s1, .ok tgt d) => s1.placeAt xu 7 a n tgt d

/-- The page of a DVA as a transfer holds it, or as its translation unit gives it; on a miss the transfer waits (R252, R254). -/
def State.pageOf (s : State) (x : Xfer) (a : Nat) : State × Moved PageHeld :=
  match (s.xfer x.id).bind (fun y => y.held.find? (fun h => h.page == a / 4096)) with
  | some h => (s, .ok h)
  | none =>
    if s.noTable a then (s.xlFault, .fault (xlateFault x.xuOf x.sclass a 0 { level := 3, case := 9 }))
    else match s.tlbFind x.xuOf a with
      | (s1, some e) =>
        let h : PageHeld := ⟨a / 4096, e.tgt, e.w, e.target (a / 4096 * 4096)⟩
        (s1.modXfer x.id (fun y => { y with held := y.held ++ [h] }), .ok h)
      | (s1, none) => (s1.noteMiss x.id x.xuOf a x.sclass, .wait)

/-- Resolve a run of one page of a transfer's end (R251, R257). -/
def State.placeX (s : State) (x : Xfer) (l : Loc) (a n : Nat) (wr : Bool) : State × Moved Place :=
  match l with
  | .spm _ =>
    if a + n ≤ spmSize then (s, .ok (.spm x.pos a)) else (s.xlFault, .fault (xlateFault x.xuOf x.sclass a 0 { case := 6 }))
  | .port n => (s, .ok (if n < 16 then .lookup n a else if n < 32 then .update (n - 16) a else .atomic a))
  | .dva _ =>
    andThen (s.pageOf x a) (fun s1 h =>
      if wr && !h.w then (s1.xlFault, .fault (xlateFault x.xuOf x.sclass a 0 { case := 5 }))
      else s1.placeAt x.xuOf x.sclass a n h.tgt (h.addr + a % 4096))

/-! ### Sources -/

/-- A run of a transfer's source: bytes that are at hand, or a place to read. -/
inductive SrcRun
  | have' (a : Nat) (bs : List Byte)
  | place (a n : Nat) (pl : Place)
  deriving DecidableEq, Repr

/-- Resolve every source run that is not at hand, before any byte is read (R257). -/
def State.srcPlaces (s : State) (x : Xfer) : List (Nat × Nat) → State × Moved (List SrcRun)
  | [] => (s, .ok [])
  | (a, n) :: l =>
    match x.got.find? (fun g => g.1 == a && g.2.length == n) with
    | some g => andThen (s.srcPlaces x l) (fun s1 r => (s1, .ok (.have' a g.2 :: r)))
    | none => andThen (s.placeX x x.src a n false) (fun s1 pl => andThen (s1.srcPlaces x l) (fun s2 r => (s2, .ok (.place a n pl :: r))))

/-- Enabled cache units of a core (R155). -/
def Core.units (c : Core) : List Nat := (List.range 6).filter (fun u => bitAt c.cachectl.toNat u)
/-- Key of a line held in a unit. -/
def cacheKey (u line : Nat) : Nat := u * 2 ^ 45 + line
/-- The bytes of a line held in some enabled unit. -/
def Core.cacheLine (c : Core) (line : Nat) : Option (Nat × List Byte) :=
  c.units.findSome? (fun u => match Table.get [] c.cache (cacheKey u line) with | [] => none | bs => some (u, bs))

/-- Fill a line: the unit, and the line replaced in a set of 8 full ways, are free choices (R155). -/
def State.cacheFill (s : State) (p line : Nat) (bs : List Byte) : State :=
  let c := s.core p
  if c.units.isEmpty then s
  else
    let u := c.units.getD (Config.cacheVictim s.free % c.units.length) 0
    let mates := (c.cache.filter (fun e => e.1 / 2 ^ 45 == u && e.1 % 4096 == line % 4096)).map (·.1)
    let kept := if mates.length < 8 then c.cache
      else c.cache.filter (fun e => e.1 != mates.getD (Config.cacheVictim (s.free + 1) % mates.length) 0)
    { s.setCore p { c with cache := Table.set [] kept (cacheKey u line) bs } with free := s.free + 2 }

/-- A cached read of one run of DRAM (R155): a held line's bytes come from the cache, a missed line is fetched and filled. -/
def State.cachedRead (s : State) (p dva dpa n : Nat) : State × List Byte :=
  (List.range n).foldl (fun acc i =>
    let x := acc.1
    let line := (dva + i) / 128
    match (x.core p).cacheLine line with
    | none =>
      let base := dpa + i - (dva + i) % 128
      let bs := x.readDpa base 128
      (x.cacheFill p line bs, acc.2 ++ [bs.getD ((dva + i) % 128) 0])
    | some h => (x, acc.2 ++ [h.2.getD ((dva + i) % 128) 0])) (s, [])

/-- Whether a whole source block fails its Seal (R154, R408). -/
def State.sealFails (s : State) (pl : Place) (n : Nat) : Bool :=
  match pl with
  | .spm c off =>
    let b := (s.coreNow c).block (off / 4096)
    off % 4096 == 0 && n == 4096 && b.fresh && b.sealVal != crc32c ((s.coreNow c).spm.readBytes off 4096)
  | .dram dpa => dpa % 4096 == 0 && n == 4096 && s.sealOf (dpa / 4096) != crc32c (s.mem.dram.readBytes dpa 4096)
  | _ => false

/-- Whether the block that a place lies in fails its Seal. -/
def State.blockFails (s : State) (pl : Place) : Bool :=
  match pl with
  | .spm c off => s.sealFails (.spm c (off / 4096 * 4096)) 4096
  | .dram d => s.sealFails (.dram (d / 4096 * 4096)) 4096
  | _ => false

/-- Whether a range holds part of a LOST block, which reads uncorrectable (R476). -/
def State.isLost (s : State) (pl : Place) (n : Nat) : Bool :=
  match pl with
  | .spm c off => (List.range ((off + n - 1) / 4096 + 1 - off / 4096)).any (fun i => ((s.coreNow c).block (off / 4096 + i)).lost)
  | _ => false

/-- The fault of an uncorrectable read or write at a DPA, with what its scorecard names (R163, R238). -/
def State.ueFault (s : State) (a dpa : Nat) : XferFault := { cause := .uncorrectable, dva := a, dpa := dpa, detail := s.dpaDetail dpa }

/-- Read one source run at its place. Host and window data must first arrive: it is asked for, and the transfer waits. -/
def State.fetchRun (s : State) (x : Xfer) (a n : Nat) (pl : Place) : State × Moved (List Byte) :=
  match pl with
  | .dram dpa =>
    let bi := s.biNeeded dpa n false
    if bi ≠ [] ∨ s.skims dpa then (s.askBi bi false, .wait)
    else if s.isBad dpa then (s, .fault (s.ueFault a dpa))
    else if s.sealFails pl n then (s, .fault { cause := .seal, dva := a, dpa := dpa })
    else if x.cached then
      let r := (s.endBi dpa n).cachedRead x.pos a dpa n
      (r.1.cacheRead dpa x.sclass, .ok r.2)
    else ((s.endBi dpa n).cacheRead dpa x.sclass, .ok (s.readDpa dpa n))
  | .spm c off =>
    if x.cached then (s, .fault { cause := .illegalEncoding, dva := a })
    else if s.isLost pl n then (s, .fault { cause := .uncorrectable, dva := a })
    else if s.sealFails pl n then (s, .fault { cause := .seal, dva := a })
    else (s, .ok ((s.coreNow c).spm.readBytes off n))
  | .host h =>
    if x.cached then (s, .fault { cause := .illegalEncoding, dva := a })
    else if ¬ s.hostReachable then (s, .fault { cause := .hostUnreachable, dva := a, dpa := h })
    else if s.host.reads.any (fun r => r.xfer == x.id && r.src == a) || s.hostFull (hostLines h n) then (s, .wait)
    else
      let id := s.host.nextId
      ((s.modHost (fun k => { k with nextId := id + 1, reads := k.reads ++ [⟨id, x.ref, x.id, a, h, n, s.bclk⟩] })).emitAll
        (readRequests id h n), .wait)
  | .window w off =>
    if x.cached then (s, .fault { cause := .illegalEncoding, dva := a })
    else if s.links.reqs.any (fun r => r.owner == .unit x.id a true) then (s, .wait)
    else
      let e := s.outWin w
      (s.sendRequest { op := 0x02, dst := bits e 55 48, w1 := bits e 43 32 * 2 ^ 40 + off,
                       w2 := x.sclass * 2 ^ 53 + n, cmdref := x.ref } (.unit x.id a true), .wait)
  | _ => (s.xlFault, .fault (xlateFault x.xuOf x.sclass a 0 { case := 6 }))

/-- Read every source run: the bytes of each by address. One that must wait holds back the rest only in the end. -/
def State.fetchRuns (s : State) (x : Xfer) : List SrcRun → State × Moved (List (Nat × List Byte))
  | [] => (s, .ok [])
  | .have' a bs :: l => andThen (s.fetchRuns x l) (fun s1 r => (s1, .ok ((a, bs) :: r)))
  | .place a n pl :: l =>
    match s.fetchRun x a n pl with
    | (s1, .wait) => andThen (s1.fetchRuns x l) (fun s2 _ => (s2, .wait))
    | (s1, .fault f) => (s1, .fault f)
    | (s1, .ok bs) => andThen (s1.fetchRuns x l) (fun s2 r => (s2, .ok ((a, bs) :: r)))

/-- Before a transpose writes any output, every block that contributes to it must pass its Seal (R45, R408): its source rows. -/
def State.sourceSealed (s : State) (x : Xfer) : State × Moved Unit :=
  if ¬ x.transpose ∨ x.next ≠ 0 ∨ x.released then (s, .ok ())
  else
    andThen (s.srcPlaces x (rowRuns x.src.base x.rlen x.sstr (x.rows * (x.rlen / 4096 + 2)) 0 (x.rows * x.rlen))) (fun s1 l =>
      match l.findSome? (fun r => match r with | .place a _ pl => if s1.blockFails pl then some a else none | _ => none) with
      | some a => (s1, .fault { cause := .seal, dva := a })
      | none => (s1, .ok ()))

/-- What the error codes find on source bytes (R153, R163, R236, R238) is counted where they lie; it faults the transfer, or not. -/
def State.srcFinding (s : State) (x : Xfer) (fnd : UnitFinding) (srcs : List SrcRun) : State × Moved Unit :=
  let first := srcs.findSome? (fun r => match r with | .place a _ pl => pl.dpa.map (fun d => (a, d)) | _ => none)
  match fnd, first with
  | .sealBad, _ => (s, .fault { cause := .seal, dva := x.dst.base })
  | .corrected, some (_, d) => ((s.foundAt d .corrected).1, .ok ())
  | .uncorrectable, some (a, d) =>
    match s.foundAt d .uncorrectable with
    | (s1, .uncorrectable) => (s1, .fault (s1.ueFault a d))
    | (s1, _) => (s1, .ok ())
  | .uncorrectable, none => (s, .fault { cause := .uncorrectable, dva := x.src.base })
  | _, _ => (s, .ok ())

/-! ### Destinations -/

/-- Resolve every destination run of a unit before any byte is written (R257). -/
def State.dstPlaces (s : State) (x : Xfer) : List (Nat × Nat) → State × Moved (List (Place × Nat × Nat))
  | [] => (s, .ok [])
  | (a, n) :: l => andThen (s.placeX x x.dst a n true) (fun s1 pl => andThen (s1.dstPlaces x l) (fun s2 r => (s2, .ok ((pl, a, n) :: r))))

/-- Whether a place follows another at a distance of `n` bytes. -/
def Place.follows (p q : Place) (n : Nat) : Bool :=
  match p, q with
  | .spm c o, .spm d r => c == d && r == o + n
  | .dram o, .dram r => r == o + n
  | .host o, .host r => r == o + n
  | .window w o, .window v r => w == v && r == o + n
  | .lookup w o, .lookup v r => w == v && r == o + n
  | .update w o, .update v r => w == v && r == o + n
  | .atomic o, .atomic r => r == o + n
  | _, _ => false

/-- Join runs that continue one another, with their bytes. -/
def joinRuns : List (Place × Nat × Nat) → List Byte → List (Place × Nat × List Byte)
  | [], _ => []
  | (p, a, n) :: l, bs =>
    match joinRuns l (bs.drop n) with
    | (q, b, cs) :: r => if p.follows q n then (p, a, bs.take n ++ cs) :: r else (p, a, bs.take n) :: (q, b, cs) :: r
    | [] => [(p, a, bs.take n)]

/-- The core's own cache sees its DMV's writes (R155, write-through). -/
def State.cacheThrough (s : State) (p dva : Nat) (bs : List Byte) : State :=
  (bs.zipIdx).foldl (fun x b =>
    let line := (dva + b.2) / 128
    match (x.core p).cacheLine line with
    | none => x
    | some h => x.modCore p (fun c =>
        { c with cache := Table.set [] c.cache (cacheKey h.1 line) (listSet h.2 ((dva + b.2) % 128) b.1) })) s

/-- The code of a port: lookup ports 0-15, update ports 16-31, the atomic port 32. -/
def Place.port : Place → Option (Nat × Nat)
  | .lookup st o => some (st, o)
  | .update st o => some (16 + st, o)
  | .atomic o => some (32, o)
  | _ => none

/-- The request a transfer has in a port. -/
def State.portOf (s : State) (id : Nat) : Option PortReq := s.mem.ports.find? (fun r => r.xfer == id)

/-- R248: the bytes of a transfer land in one port at the offsets they have in the transfer, all of them or none; `i` is the transfer
offset of the runs. -/
def portForm (port : Option Nat) : Nat → List (Place × Nat × Nat) → Bool
  | _, [] => true
  | i, (pl, _, n) :: l =>
    (match pl.port, port with
     | none, none => true
     | some (p, o), some q => p == q && o == i
     | _, _ => false) && portForm port (i + n) l

/-- Whether unit `k` of a transfer keeps R248: the port is that of its first byte. -/
def State.portLegal (s : State) (x : Xfer) (k : Nat) (dsts : List (Place × Nat × Nat)) : Bool :=
  portForm (if k = 0 then dsts.head?.bind (fun d => d.1.port.map (·.1)) else (s.portOf x.id).map (·.port)) (4096 * k) dsts

/-- Bytes of a request arrive at a port (R248). -/
def State.portArrive (s : State) (x : Xfer) (port : Nat) (bs : List Byte) : State :=
  let new : PortReq := { xfer := x.id, port := port, pos := x.pos, ref := x.ref, bytes := bs, step := x.step.getD (s.obj 0x5F00 1) }
  let put (l : List PortReq) : List PortReq :=
    if (s.portOf x.id).isSome then l.map (fun y => if y.xfer = x.id then { y with bytes := y.bytes ++ bs } else y) else l ++ [new]
  s.modMem (fun m => { m with ports := put m.ports })

/-- Deliver one joined run of unit `k`; `last` marks the unit's last run, which carries the delivery count. -/
def State.deliverRun (s : State) (x : Xfer) (k : Nat) (last : Bool) (pl : Place) (a : Nat) (bs : List Byte) : State :=
  match pl with
  | .spm c off => (splitBlocks 8193 off bs).foldl (fun y b => y.bgWrite c b.1 b.2) s
  | .dram dpa =>
    let s1 := (s.writeDpa dpa bs).endBi dpa bs.length
    match x.dst, x.xu with | .dva _, none => s1.cacheThrough x.pos a bs | _, _ => s1
  | .host h => s.storeHost x.ref (some (x.id, k)) none h bs
  | .window w off =>
    let e := s.outWin w
    s.sendRequest { op := 0x01, dst := bits e 55 48, w1 := bits e 43 32 * 2 ^ 40 + off,
                    w2 := (if last then x.cnt * 2 ^ 57 + b2n x.cen * 2 ^ 56 else 0) + x.sclass * 2 ^ 53,
                    cmdref := x.ref, pseal := a % 4096 == 0 && bs.length == 4096, payload := bs } (.unit x.id k false)
  | .lookup st _ => s.portArrive x st bs
  | .update st _ => s.portArrive x (16 + st) bs
  | .atomic _ => s.portArrive x 32 bs

/-- Deliver every joined run of a unit. -/
def State.deliverRuns (s : State) (x : Xfer) (k : Nat) : List (Place × Nat × List Byte) → State
  | [] => s
  | (pl, a, bs) :: l => (s.deliverRun x k l.isEmpty pl a bs).deliverRuns x k l

/-- A unit counts on a counter (R144, R161). -/
def State.countArrival (s : State) (tc core cnt : Nat) : State :=
  if core < 144 then s.modCore core (fun c => c.arrive cnt tc) else s

/-- Whether a run is acknowledged only by a later answer; a store discarded at a lost host is not (R384). -/
def Place.remote (s : State) : Place → Bool
  | .host _ => s.hostReachable
  | .window _ _ => true
  | _ => false

/-- Whether an access to these places must first wait: lines of the window that the host holds (R374), a skimming SLM unit (R234), the limit of
requests to the host (R368); `wr` for a write. -/
def State.placesWait (s : State) (wr : Bool) (l : List (Place × Nat × Nat)) : State × Bool :=
  l.foldl (fun acc r =>
    match r.1 with
    | .dram d =>
      let bi := acc.1.biNeeded d r.2.2 wr
      (acc.1.askBi bi wr, acc.2 || !bi.isEmpty || acc.1.skims d)
    | _ => acc) (s, s.hostFull (l.map (fun r => match r.1 with | .host h => hostLines h r.2.2 | _ => 0)).sum)

/-- Whether a transfer must wait for its port: 32 other requests are arriving in it (R248). -/
def State.portFull (s : State) (x : Xfer) (l : List (Place × Nat × Nat)) : Bool :=
  l.any (fun r => match r.1.port with
    | some p => decide (32 ≤ (s.mem.ports.filter (fun q => q.port == p.1 && q.xfer != x.id && !q.whole)).length)
    | none => false)

/-- Runs of a partial write into blocks whose old bytes read uncorrectable (R237, R238). -/
def State.partialBad (s : State) (l : List (Place × Nat × List Byte)) : Option Nat :=
  l.findSome? (fun r => match r.1 with
    | .dram dpa => ((splitBlocks 8193 dpa r.2.2).find? (fun b => s.badPart b.1 b.2.length)).map (·.1)
    | _ => none)

/-- Addresses in these runs of blocks that are written only in part: their old bytes are read (R237). -/
def partialBlocks (l : List (Place × Nat × List Byte)) : List Nat :=
  l.flatMap (fun r => match r.1 with
    | .dram dpa => ((splitBlocks 8193 dpa r.2.2).filter (fun b => !(b.1 % 4096 == 0 && b.2.length == 4096))).map (·.1)
    | _ => [])

/-- What stops a write of these runs (R237, R238): a bad block, or old bytes that read uncorrectable, where `ue` says so; the DPA. -/
def State.oldBytes (s : State) (l : List (Place × Nat × List Byte)) (ue : Nat → Bool) : State × Option Nat :=
  match s.partialBad l, (partialBlocks l).find? ue with
  | some d, _ => (s, some d)
  | none, some d =>
    match s.foundAt d .uncorrectable with
    | (s1, .uncorrectable) => (s1, some d)
    | (s1, _) => (s1, none)
  | none, none => (s, none)

/-- A transfer fails (R163): its command faults; the core whose task is the command's halts. What it brought into a port is dropped. -/
def State.failXfer (s : State) (x : Xfer) (f : XferFault) : State :=
  let s1 := (s.modXfer x.id (fun y => { y with st := .failed })).modMem (fun m => { m with ports := m.ports.filter (fun r => r.xfer != x.id || r.whole) })
  if x.xu.isNone ∧ s1.taskRef x.pos = x.ref then
    s1.coreFault x.pos f.cause .dt 0 f.detail 0 f.dva f.dpa
  else s1.faultCommand { cause := f.cause, engine := match x.xu with | none => .dt | some u => if u = 160 then .cfe else .emb,
                         unit := match x.xu with | none => 0 | some u => if u = 160 then 0 else u - 144,
                         cmdref := x.ref, pos := if x.xu.isSome then 0xFF else x.pos, dva := f.dva, dpa := f.dpa, detail := f.detail }

/-- Unit `k` is acknowledged at its destination: the issuing core's counter gains 1 where the counter is its own (R161). -/
def State.unitAcked (s : State) (tc : Nat) (x : Xfer) (k : Nat) (own : Bool) : State :=
  let s1 := s.modXfer x.id (fun y => { y with sent := y.sent.erase k })
  if own && x.cen && !((x.sent.erase k).contains k) then s1.countArrival tc x.pos x.cnt else s1

/-- Whether an end is named by DVA. -/
def Loc.isDva : Loc → Bool
  | .dva _ => true
  | _ => false
/-- The pages that unit `k` of a transfer reads and writes through translation. -/
def Xfer.pages (x : Xfer) (k : Nat) : List Nat :=
  let src := if x.src.isDva && !x.released then (x.srcRuns k).map (fun r => r.1 / 4096) else []
  let dst := if x.dst.isDva then (x.dstRuns k).map (fun r => r.1 / 4096) else []
  (src ++ dst).eraseDups

/-- Translate pages ahead, up to the first miss (R254). -/
def State.takePages (s : State) (x : Xfer) : List Nat → State
  | [] => s
  | p :: l =>
    if s.noTable (p * 4096) then s
    else match s.pageOf x (p * 4096) with
      | (s1, .ok _) => s1.takePages x l
      | (s1, _) => s1

/-- One unit is complete: the transfer goes on to the next, whose pages it translates meanwhile (R254), or is delivered. -/
def State.nextUnit (s : State) (x : Xfer) (k : Nat) : State :=
  let ends : Bool := decide (x.units ≤ k + 1)
  let ahead := if ends then [] else x.pages (k + 1)
  let s1 := s.modXfer x.id (fun y =>
    { y with next := k + 1, got := y.got.filter (fun g => !((x.srcRuns k).any (fun r => r.1 == g.1))),
             held := y.held.filter (fun h => ahead.contains h.page), st := if y.st = .moving ∧ ends then .delivered else y.st })
  if ends then
    s1.modMem (fun m => { m with ports := m.ports.map (fun r => if r.xfer = x.id then { r with whole := true } else r) })
  else s1.takePages x ahead

/-- What unit `k` of a transfer needs before it moves (R234, R248, R254, R257, R374, R408): the places of its runs. -/
def State.unitReady (s : State) (x : Xfer) (k : Nat) : State × Moved (List SrcRun × List (Place × Nat × Nat)) :=
  andThen (s.srcPlaces x (x.srcRuns k)) (fun s1 srcs =>
    andThen (s1.dstPlaces x (x.dstRuns k)) (fun s2 dsts =>
      andThen (s2.sourceSealed x) (fun s3 _ =>
        if ¬ s3.portLegal x k dsts then (s3, .fault { cause := .requestFormat, dva := x.dst.base })
        else match s3.placesWait true dsts with
          | (s4, w) => if w || s4.portFull x dsts then (s4, .wait) else (s4, .ok (srcs, dsts)))))

/-- The bytes of unit `k`, joined with their places; `fnd` is what the checks of its source find, `oldBad` that old bytes of a block
it writes in part read uncorrectable (R237). -/
def State.unitBytes (s : State) (x : Xfer) (k : Nat) (fnd : UnitFinding) (oldBad : Bool) (r : List SrcRun × List (Place × Nat × Nat)) :
    State × Moved (List (Place × Nat × List Byte)) :=
  andThen (s.fetchRuns x r.1) (fun s1 got =>
    andThen (s1.srcFinding x fnd r.1) (fun s2 _ =>
      let runs := joinRuns r.2 (x.assemble k (got.flatMap (·.2)))
      match s2.oldBytes runs (fun _ => oldBad) with
      | (s3, some d) => (s3, .fault (s3.ueFault 0 d))
      | (s3, none) => (s3, .ok runs)))

/-- The runs of unit `k` are written; it counts at its destination, or waits for its answers (R144, R161). -/
def State.landUnit (s : State) (tc : Nat) (x : Xfer) (k : Nat) (runs : List (Place × Nat × List Byte)) : State :=
  let s1 := s.deliverRuns x k runs
  let pend := (runs.filter (fun r => Place.remote s1 r.1)).length
  let s2 := (s1.modXfer x.id (fun y => { y with sent := y.sent ++ List.replicate pend k })).nextUnit x k
  if x.cen && pend == 0 then
    match runs.getLast? with
    | some (.spm c _, _, _) => s2.countArrival tc c x.cnt
    | _ => s2.countArrival tc x.pos x.cnt
  else s2

/-- The next unit of a transfer is translated, read, checked and written (R144, R161, R163). -/
def State.moveUnit (s : State) (tc : Nat) (x : Xfer) (fnd : UnitFinding) (oldBad : Bool) : State :=
  match andThen (s.unitReady x x.next) (fun s1 r => s1.unitBytes x x.next fnd oldBad r) with
  | (s1, .ok runs) => s1.landUnit tc x x.next runs
  | (s1, .wait) => s1
  | (s1, .fault f) => s1.failXfer x f

/-! ### Issue -/

/-- The eight words of a descriptor (R158). -/
def Core.descriptor (c : Core) (a : Nat) : List Nat := (List.range 8).map (fun i => c.spm.readNat (a + 8 * i) 8)

/-- A transfer made from a descriptor. -/
def xferOf (id pos ref : Nat) (w : List Nat) (raw : List Byte) : Xfer :=
  let w0 := w.getD 0 0
  let w1 := w.getD 1 0
  let w2 := w.getD 2 0
  let w3 := w.getD 3 0
  let w4 := w.getD 4 0
  { id := id, light := false, pos := pos, ref := ref,
    src := if bitAt w0 63 then .spm (bits w0 24 0) else .dva (bits w0 51 0),
    dst := if bitAt w1 63 then .spm (bits w1 24 0) else .dva (bits w1 51 0),
    rows := bits w2 47 32 + 1, rlen := bits w2 23 0 + 1, dstr := bits w3 63 32, sstr := bits w3 31 0,
    transpose := bits w4 37 35 == 1, esz := bits w4 34 32, cnt := bits w4 55 50, cen := bitAt w4 49,
    scnt := bits w4 48 43, scen := bitAt w4 42, sclass := bits w4 41 39, cached := bitAt w4 38, desc := raw }

/-- Whether a descriptor keeps the rules of R158, R159 and R155. -/
def descLegal (c : Core) (w : List Nat) : Bool :=
  let w0 := w.getD 0 0
  let w1 := w.getD 1 0
  let w2 := w.getD 2 0
  let w4 := w.getD 4 0
  let x := xferOf 0 0 0 w []
  let mode := bits w4 37 35
  bits w0 62 52 == 0 && (!(bitAt w0 63) || bits w0 51 25 == 0) && bits w1 62 52 == 0 && (!(bitAt w1 63) || bits w1 51 25 == 0) &&
  bits w2 63 48 == 0 && bits w2 31 24 == 0 && decide (x.rows * x.rlen ≤ gib) && bits w4 63 56 == 0 && bits w4 31 0 == 0 &&
  w.getD 5 0 == 0 && w.getD 6 0 == 0 && w.getD 7 0 == 0 && decide (mode ≤ 1) && (mode == 1 || x.esz == 0) &&
  (mode == 0 || (decide (x.esz ≤ 3) && bitAt w1 63 && x.rlen * 8 % eszBits x.esz == 0 && decide (1 ≤ x.cols) &&
     decide (x.cols ≤ 4096) && decide (x.rows ≤ 4096) && (x.esz != 0 || (x.cols % 2 == 0 && x.rows % 2 == 0)))) &&
  (!x.cached || (!(bitAt w0 63) && !c.units.isEmpty))

/-- Outstanding transfers of a core on the full path, and on the light path (R160). -/
def State.fullOut (s : State) (p : Nat) : Nat :=
  (s.mem.xfers.filter (fun x => x.pos == p && !x.light && x.xu.isNone)).length + (s.links.rally.filter (fun r => r.2.pos == p && r.2.armed && r.2.ref != 0)).length
def State.liteOut (s : State) (p : Nat) : Nat := (s.mem.xfers.filter (fun x => x.pos == p && x.light)).length
/-- Whether a core has a transfer with CACHE = 1 outstanding (R155). -/
def State.cachedOut (s : State) (p : Nat) : Bool := s.mem.xfers.any (fun x => x.pos == p && x.cached)

/-- Put a transfer among the outstanding ones; its command waits for it (R314). -/
def State.startXfer (s : State) (x : Xfer) : State :=
  s.modMem (fun m => { m with xfers := m.xfers ++ [x], nextXfer := m.nextXfer + 1 })

/-- The mode bits of the descriptor a DM.XFER names (R158). -/
def Core.descMode (c : Core) (f : DmXfer) : Nat := bits ((c.descriptor f.desc.toNat).getD 4 0) 37 35

/-- Issue a DM.XFER whose descriptor's mode is `mode` (R157-R160); one whose core is at its limit waits at the head of the queue. -/
def issueXfer (transpose : Bool) (t p : Nat) (f : DmXfer) (ecc : Ecc) (s : State) : Host.Outcome State Fault Refusal :=
  if (((s.core p).landed t).descMode f == 1) ≠ transpose ∨ 4 ≤ s.fullOut p then .next (s.atC t)
  else s.issue t p .dt (.dmXfer f) (fun c => c.portFree.get .dt)
    (fun c => [(f.rsv != 0 || f.desc.toNat % 64 != 0 || decide (spmSize < f.desc.toNat + 64) || !(descLegal c (c.descriptor f.desc.toNat)),
                .illegalEncoding),
               (c.inCacheUnit f.desc.toNat 64, .cacheUnitAccess), (c.lostRead f.desc.toNat 64, .uncorrectable)])
    (fun _ _ => []) ecc
    (fun s _ =>
      let c := s.core p
      let x := xferOf s.mem.nextXfer p (match c.task with | some k => k.cmdref | none => 0) (c.descriptor f.desc.toNat)
        (c.spm.readBytes f.desc.toNat 64)
      (s.modCore p (fun c => c.issued .dt t (t + 1) t)).startXfer x)

/-- DM_XFER_COPY (R159): the copy mode, and every descriptor that breaks the rules. -/
def execDmXferCopy (t p : Nat) (f : DmXfer) (ecc : Ecc) (s : State) : Host.Outcome State Fault Refusal := issueXfer false t p f ecc s
/-- DM_XFER_TRANSPOSE (R159): the transpose mode. -/
def execDmXferTranspose (t p : Nat) (f : DmXfer) (ecc : Ecc) (s : State) : Host.Outcome State Fault Refusal := issueXfer true t p f ecc s

/-- A light-path transfer (R157, R160). -/
def liteXfer (get : Bool) (id pos ref w : Nat) (f : DmLite) : Xfer :=
  let n := f.lenm1.toNat + 1
  { id := id, light := true, pos := pos, ref := ref,
    src := if get then .dva f.raddr.toNat else .spm f.laddr.toNat,
    dst := if get then .spm f.laddr.toNat else .dva f.raddr.toNat,
    rows := 1, rlen := n, sstr := n, dstr := n, cnt := f.cnt.toNat, cen := f.cen, scnt := f.scnt.toNat, scen := f.scen,
    sclass := f.sclass.toNat, lite := [w % 2 ^ 120] }

/-- Issue a DM.LITE; beyond 16 outstanding it waits at the head of the queue (R160). -/
def issueLite (get : Bool) (t p : Nat) (f : DmLite) (s : State) : Host.Outcome State Fault Refusal :=
  if 16 ≤ s.liteOut p then .next (s.atC t)
  else s.issue t p .dt (if get then .dmLiteGet f else .dmLitePut f) (fun c => c.portFree.get .dt)
    (fun _ => [(f.rsv != 0 || decide (spmSize < f.laddr.toNat + f.lenm1.toNat + 1), .illegalEncoding)])
    (fun _ _ => []) .ok
    (fun s w =>
      let x := liteXfer get s.mem.nextXfer p (match (s.core p).task with | some k => k.cmdref | none => 0) w f
      (s.modCore p (fun c => c.issued .dt t (t + 1) t)).startXfer x)

/-- DM_LITE_PUT (R157). -/
def execDmLitePut (t p : Nat) (f : DmLite) (s : State) : Host.Outcome State Fault Refusal := issueLite false t p f s
/-- DM_LITE_GET (R157). -/
def execDmLiteGet (t p : Nat) (f : DmLite) (s : State) : Host.Outcome State Fault Refusal := issueLite true t p f s

/-! ### Events of transfers -/

/-- What a transfer has not yet read of its source. -/
def Xfer.unread (x : Xfer) : List (Nat × Nat) := (List.range (x.units - x.next)).flatMap (fun i => x.srcRuns (x.next + i))

/-- Read what a transfer has not yet read of its source, with its checks (R163, R408). -/
def State.readRest (s : State) (x : Xfer) (fnd : UnitFinding) : State × Moved (List (Nat × List Byte)) :=
  andThen (s.srcPlaces x x.unread) (fun s1 srcs => andThen (s1.sourceSealed x) (fun s2 _ =>
    andThen (s2.fetchRuns x srcs) (fun s3 got => andThen (s3.srcFinding x fnd srcs) (fun s4 _ => (s4, .ok got)))))

/-- SOURCE_RELEASE (R161): the transfer has read its last source byte; units not yet delivered keep what was read. -/
def execSourceRelease (t tc : Nat) (r : SourceRead) (s : State) : Host.Outcome State Fault Refusal :=
  let s := { s.atB t with cclk := max s.cclk tc }
  match s.xfer r.id with
  | none => .next s
  | some x =>
    if x.released ∨ x.st = .failed then .next s
    else
      match s.readRest x r.fnd with
      | (s1, .wait) => .next s1
      | (s1, .fault f) => .next (s1.failXfer x f)
      | (s1, .ok got) =>
        let s2 := s1.modXfer r.id (fun y => { y with released := true, got := got })
        .next (if x.scen then s2.countArrival tc x.pos x.scnt else s2)

/-- Whether a transfer's update requests are still to be combined at some home (R216). -/
def State.combining (s : State) (id : Nat) : Bool :=
  s.emb.upds.any (fun u => u.xfer == id) || s.mem.ports.any (fun r => r.xfer == id && decide (16 ≤ r.port) && decide (r.port < 32))

/-- TRANSFER_ACK (R160, R216): its source read and its last unit acknowledged, the transfer stops being outstanding; a failed one also
ends. -/
def execTransferAck (t id : Nat) (s : State) : Host.Outcome State Fault Refusal :=
  let s := s.atB t
  match s.xfer id with
  | none => .next s
  | some x =>
    if (x.st = .delivered ∧ x.sent = [] ∧ x.released ∧ ¬ s.combining id) ∨ x.st = .failed then
      .next (s.modMem (fun m => { m with xfers := m.xfers.filter (fun y => y.id != id),
                                         ports := m.ports.filter (fun r => r.xfer != id || r.whole) }))
    else .next s

/-- A walk's result reaches one of the slots that waited on it (R254, R257, R258). -/
def State.walkReaches (s : State) (m : Miss) (r : WalkOut) (w : Nat × Nat × Nat) : State :=
  match s.xfer w.2.1, r with
  | none, _ => s
  | some x, .ok e _ => s.modXfer x.id (fun y => { y with held := y.held ++ [⟨m.page, e.tgt, e.w, e.target (m.page * 4096)⟩] })
  | some x, .fault f => if x.st = .failed then s else s.xlFault.failXfer x (xlateFault w.1 m.cls w.2.2 f.dpa f)

/-- PAGE_WALK (R253): the walk on which transfer `id` of translation unit `xu` waits for a page completes. A translation fills its entries and
goes to each slot that waits; a fault faults their transfers and fills nothing (R258). -/
def execPageWalk (t xu dva id : Nat) (ue : Option Nat) (s : State) : Host.Outcome State Fault Refusal :=
  let s := s.atB t
  match s.walking xu dva id with
  | none => .next s
  | some m =>
    let r := (s.endMiss m).pageWalk m.die (m.slots.map (fun w => w.1)).eraseDups m.stale (m.page * 4096) ue
    .next (m.slots.foldl (fun x w => x.walkReaches m r.2 w) r.1)

/-! ### DM.SKIM and DM.COPY (R154, R156) -/

/-- Length in bytes, destination and source of a local move. -/
def dlLen (f : DmLocal) : Nat := (f.lenm1.toNat + 1) * 128
def dlDst (f : DmLocal) : Nat := f.daddr.toNat * 128
def dlSrc (f : DmLocal) : Nat := f.saddr.toNat * 128
/-- Chunks of 512 B. -/
def dlChunks (f : DmLocal) : Nat := cdiv (dlLen f) 512
/-- Whether each 512 B chunk of a range lies in one bank (R156). -/
def chunksOneBank (a len : Nat) : Bool :=
  decide (a + len ≤ spmSize) && (List.range (cdiv len 512)).all (fun i => oneBank (a + 512 * i) (min 512 (len - 512 * i)))

/-- One access per chunk, at the CCLK given for it. -/
def chunkRuns (t a len w : Nat) (time : Nat → Nat) : List Access :=
  (List.range (cdiv len 512)).map (fun i => accessRun .dl .dl (a + 512 * i) (t + time i) 1 1 t w)

/-- The bytes of DM.SKIM: PAT repeated, least significant byte first (R156). -/
def skimBytes (pat : W32) (n : Nat) : List Byte := (List.range n).map (fun i => (leBytes 4 pat.toNat).getD (i % 4) 0)

/-- The writes of a local move, chunk `i` at `time i` after `t`; the blocks at offsets `whole` become FRESH with their last chunk (R154,
R156). -/
def moveActs (t dst : Nat) (bs : List Byte) (time : Nat → Nat) (whole : List Nat) : List (Nat × List SpmAct) :=
  (List.range (cdiv bs.length 512)).map (fun i =>
    (t + time i, .bytes (dst + 512 * i) ((bs.drop (512 * i)).take 512) ::
      (whole.filter (fun o => (o + 4095) / 512 == i)).map (fun o => .fresh ((dst + o) / 4096) (crc32c ((bs.drop o).take 4096)))))

/-- Offsets of the whole blocks of `len` bytes at `dst`. -/
def wholeBlocks (dst len : Nat) : List Nat :=
  let o := (4096 - dst % 4096) % 4096
  (List.range ((len - o) / 4096)).map (fun i => o + 4096 * i)

/-- DM_SKIM (R156). -/
def execDmSkim (t p : Nat) (f : DmLocal) (s : State) : Host.Outcome State Fault Refusal :=
  s.issue t p .dl (.dmSkim f) (fun c => c.portFree.get .dl)
    (fun c => [(f.rsv != 0 || f.saddr != 0 || !(chunksOneBank (dlDst f) (dlLen f)), .illegalEncoding),
               (c.inCacheUnit (dlDst f) (dlLen f), .cacheUnitAccess)])
    (fun _ w => chunkRuns t (dlDst f) (dlLen f) w (fun i => i)) .ok
    (fun s _ => s.modCore p (fun c =>
      (c.addDue .dl t (moveActs t (dlDst f) (skimBytes f.pat (dlLen f)) (fun i => i) (wholeBlocks (dlDst f) (dlLen f)))).issued .dl t
        (t + dlChunks f) (t + dlChunks f - 1)))

/-- Whether the block copied at offset `i` is a whole block from a FRESH source (R154, R156). -/
def Core.copyFresh (c : Core) (src dst i len : Nat) : Bool :=
  (dst + i) % 4096 == 0 && (src + i) % 4096 == 0 && decide (i + 4096 ≤ len) && (c.block ((src + i) / 4096)).fresh

/-- Offsets of the whole blocks a DM.COPY takes from FRESH source blocks. -/
def copyWhole (f : DmLocal) (c : Core) : List Nat :=
  (wholeBlocks (dlDst f) (dlLen f)).filter (fun o => c.copyFresh (dlSrc f) (dlDst f) o (dlLen f))

/-- The first FRESH source block that fails its Seal: nothing from it on is written (R156). -/
def copyStop (f : DmLocal) (c : Core) : Option Nat :=
  (copyWhole f c).find? (fun o => (c.block ((dlSrc f + o) / 4096)).sealVal != crc32c (c.spm.readBytes (dlSrc f + o) 4096))

/-- The CCLK, from issue, in which chunk `i` of a DM.COPY is read, or written: each read is followed by its write, but a whole FRESH block
reads eight chunks and then writes eight (R156). -/
def copyTime (f : DmLocal) (c : Core) (wr : Bool) (i : Nat) : Nat :=
  match (copyWhole f c).find? (fun o => decide (o ≤ 512 * i) && decide (512 * i < o + 4096)) with
  | some o => let k := i - o / 512; 2 * (i - k) + k + (if wr then 8 else 0)
  | none => 2 * i + (if wr then 1 else 0)

/-- Chunk accesses of a DM.COPY (R156). -/
def copyAccesses (t : Nat) (f : DmLocal) (c : Core) (w : Nat) : List Access :=
  chunkRuns t (dlSrc f) (dlLen f) w (copyTime f c false) ++ chunkRuns t (dlDst f) (dlLen f) w (copyTime f c true)

/-- The bytes a DM.COPY writes: all of them, or those before the block that fails its Seal (R156). -/
def copyBytes (f : DmLocal) (c : Core) : List Byte := c.spm.readBytes (dlSrc f) ((copyStop f c).getD (dlLen f))

/-- DM_COPY (R156). -/
def execDmCopy (t p : Nat) (f : DmLocal) (ecc : Ecc) (s : State) : Host.Outcome State Fault Refusal :=
  s.issue t p .dl (.dmCopy f) (fun c => c.portFree.get .dl)
    (fun c => [(f.rsv != 0 || f.pat != 0 || !(chunksOneBank (dlDst f) (dlLen f)) || !(chunksOneBank (dlSrc f) (dlLen f)) ||
                 (decide (dlDst f < dlSrc f + dlLen f) && decide (dlSrc f < dlDst f + dlLen f)), .illegalEncoding),
               (c.inCacheUnit (dlDst f) (dlLen f) || c.inCacheUnit (dlSrc f) (dlLen f), .cacheUnitAccess),
               (c.lostRead (dlSrc f) (dlLen f), .uncorrectable)])
    (copyAccesses t f) ecc
    (fun s w =>
      let c := s.core p
      let bs := copyBytes f c
      let s1 := s.setCore p ((c.addDue .dl t (moveActs t (dlDst f) bs (copyTime f c true)
        ((copyWhole f c).filter (fun o => decide (o + 4096 ≤ bs.length))))).issued .dl t (t + 2 * dlChunks f) (t + 2 * dlChunks f - 1))
      if (copyStop f c).isNone then s1 else s1.coreFault p .seal .dl w)

end Sys2Proof.Machine
end

