-- ==== Sys2Proof/Machine/VxMath.lean ====
section
/-!
DEFINITION. The per-lane functions of the vector engine (04_vector_engine.md R117-R119, R125-R127, R133): FP32 and INT32
arithmetic with their flags, comparisons, conversions, reductions and the transcendentals.
-/
namespace Sys2Proof.Machine

/-- A lane result: 32 bits and the flags raised. -/
abbrev LaneRes := W32 × VFlags

/-- A result that raises no flag. -/
def quiet (n : Nat) : LaneRes := (BitVec.ofNat 32 n, ({ } : VFlags))
/-- The canonical NaN with IV. -/
def invalid : LaneRes := (BitVec.ofNat 32 nan32, ({ iv := true } : VFlags))
/-- Round an exact value to FP32. -/
def rounded (num : Int) (den : Nat) (e : Int) (negZero : Bool := false) : LaneRes :=
  let r := round32 num den e negZero
  (BitVec.ofNat 32 r.1, r.2)

/-- The exact sum of two read values, rounded once; zero signs as IEEE 754 (R117). -/
def addFp (x y : Fp) : LaneRes :=
  match x, y with
  | .nan, _ => quiet nan32
  | _, .nan => quiet nan32
  | .inf a, .inf b => if a = b then quiet (inf32 a) else invalid
  | .inf a, _ => quiet (inf32 a)
  | _, .inf b => quiet (inf32 b)
  | .num a v, .num b w =>
    let s := Dy.add v w
    rounded s.m 1 s.e (a && b)

/-- The sign-changed value. -/
def negFp : Fp → Fp
  | .nan => .nan
  | .inf a => .inf (!a)
  | .num a v => .num (!a) v.neg

/-- The exact product of two read values, or invalid (R119). -/
def mulExact (x y : Fp) : Option Fp :=
  match x, y with
  | .nan, _ => some .nan
  | _, .nan => some .nan
  | .inf a, .inf b => some (.inf (a != b))
  | .inf a, .num b w => if w.m = 0 then none else some (.inf (a != b))
  | .num a v, .inf b => if v.m = 0 then none else some (.inf (a != b))
  | .num a v, .num b w => some (.num (a != b) (Dy.mul v w))

/-- ADD of FP32 lanes. -/
def fpAdd (a b : W32) : LaneRes := addFp (fp32 a) (fp32 b)
/-- SUB of FP32 lanes. -/
def fpSub (a b : W32) : LaneRes := addFp (fp32 a) (negFp (fp32 b))
/-- MUL of FP32 lanes. -/
def fpMul (a b : W32) : LaneRes :=
  match mulExact (fp32 a) (fp32 b) with
  | none => invalid
  | some .nan => quiet nan32
  | some (.inf s) => quiet (inf32 s)
  | some (.num s v) => rounded v.m 1 v.e s
/-- FMA: A × B + C rounded once; `neg` negates the product (R125). -/
def fpFma (neg : Bool) (a b c : W32) : LaneRes :=
  match fp32 c with
  | .nan => quiet nan32
  | z => match mulExact (fp32 a) (fp32 b) with
    | none => invalid
    | some p => addFp (if neg then negFp p else p) z
/-- DIV of FP32 lanes (R119). -/
def fpDiv (a b : W32) : LaneRes :=
  match fp32 a, fp32 b with
  | .nan, _ => quiet nan32
  | _, .nan => quiet nan32
  | .inf _, .inf _ => invalid
  | .inf x, .num y _ => quiet (inf32 (x != y))
  | .num x _, .inf y => quiet (fmtFP32.signed (x != y) 0)
  | .num x v, .num y w =>
    if w.m = 0 then (if v.m = 0 then invalid else (BitVec.ofNat 32 (inf32 (x != y)), ({ dz := true } : VFlags)))
    else rounded (if w.m < 0 then -v.m else v.m) w.m.natAbs (v.e - w.e) (x != y)
/-- RCP of an FP32 lane. -/
def fpRcp (a : W32) : LaneRes :=
  match fp32 a with
  | .nan => quiet nan32
  | .inf x => quiet (fmtFP32.signed x 0)
  | .num x v =>
    if v.m = 0 then (BitVec.ofNat 32 (inf32 x), ({ dz := true } : VFlags))
    else rounded (if v.m < 0 then -1 else 1) v.m.natAbs (-v.e)
/-- SQRT of an FP32 lane: the root to far more bits than one rounding needs, with a sticky bit. -/
def fpSqrt (a : W32) : LaneRes :=
  match fp32 a with
  | .nan => quiet nan32
  | .inf x => if x then invalid else quiet (inf32 false)
  | .num x v =>
    if v.m = 0 then quiet (fmtFP32.signed x 0)
    else if x then invalid
    else
      let odd := v.e % 2 ≠ 0
      let m := (if odd then v.m.natAbs * 2 else v.m.natAbs) * 2 ^ 120
      let e := (if odd then v.e - 1 else v.e) - 120
      let r := isqrt m
      rounded (2 * r + (if r * r = m then 0 else 1) : Nat) 1 (e / 2 - 1)
/-- SCALE2: A × 2^IMM with one rounding. -/
def fpScale2 (a : W32) (k : Int) : LaneRes :=
  match fp32 a with
  | .nan => quiet nan32
  | .inf x => quiet (inf32 x)
  | .num x v => rounded v.m 1 (v.e + k) x

/-- `x` at or below `y` in the order of MIN and MAX, in which −0 lies below +0 (R125). -/
def fpLe (x y : Fp) : Bool :=
  match x, y with
  | .inf a, .inf b => a || !b
  | .inf a, _ => a
  | _, .inf b => !b
  | .num a v, .num b w => if v.m = 0 ∧ w.m = 0 then a || !b else Dy.le v w
  | _, _ => false
/-- MIN and MAX of FP32 lanes: a NaN input gives the other input (R125). -/
def fpMinMax (isMax : Bool) (a b : W32) : LaneRes :=
  match fp32 a, fp32 b with
  | .nan, .nan => quiet nan32
  | .nan, _ => (b, ({ } : VFlags))
  | _, .nan => (a, ({ } : VFlags))
  | x, y => (if fpLe x y != isMax then a else b, ({ } : VFlags))
/-- ABS and NEG act on the sign bit only (R125); of a NaN they give the canonical NaN, as R117 has every NaN result
(DEDUCED: log 23). -/
def fpAbs (a : W32) : LaneRes :=
  match fp32 a with
  | .nan => quiet nan32
  | _ => quiet (a.toNat % 2 ^ 31)
/-- NEG of an FP32 lane. -/
def fpNeg (a : W32) : LaneRes :=
  match fp32 a with
  | .nan => quiet nan32
  | _ => (a ^^^ 0x80000000#32, ({ } : VFlags))
/-- RELU: MAX(A, +0), so −0 and a NaN give +0. -/
def fpRelu (a : W32) : LaneRes := fpMinMax true a 0#32

/-- Saturating INT32 arithmetic (R118). -/
def intSat (x : Int) : LaneRes := sat32 x
/-- ADD, SUB, MUL, ABS and NEG of INT32 lanes. -/
def intAdd (a b : W32) : LaneRes := intSat (a.toInt + b.toInt)
def intSub (a b : W32) : LaneRes := intSat (a.toInt - b.toInt)
def intMul (a b : W32) : LaneRes := intSat (a.toInt * b.toInt)
def intAbs (a : W32) : LaneRes := intSat a.toInt.natAbs
def intNeg (a : W32) : LaneRes := intSat (-a.toInt)
/-- MIN and MAX of INT32 lanes. -/
def intMinMax (isMax : Bool) (a b : W32) : LaneRes :=
  (if (decide (a.toInt ≤ b.toInt)) != isMax then a else b, ({ } : VFlags))
/-- The shifts of R118: the count is the low 8 bits of B. -/
def intShl (a b : W32) : LaneRes :=
  let n := b.toNat % 256
  (if 32 ≤ n then 0 else a <<< n, ({ } : VFlags))
def intShrl (a b : W32) : LaneRes :=
  let n := b.toNat % 256
  (if 32 ≤ n then 0 else a >>> n, ({ } : VFlags))
def intShra (a b : W32) : LaneRes :=
  let n := b.toNat % 256
  (a.sshiftRight (min n 31), ({ } : VFlags))

/-- The comparisons of R125. -/
inductive CmpFn
  | eq | ne | lt | le | gt | ge | unord
  deriving DecidableEq, Repr

/-- Compare two FP32 lanes: with a NaN, false but for NE and UNORD, and the ordered compares raise IV. -/
def fpCmp (c : CmpFn) (a b : W32) : Bool × VFlags :=
  match fp32 a, fp32 b with
  | .nan, _ => (decide (c = .ne) || decide (c = .unord), ({ iv := c = .lt || c = .le || c = .gt || c = .ge } : VFlags))
  | _, .nan => (decide (c = .ne) || decide (c = .unord), ({ iv := c = .lt || c = .le || c = .gt || c = .ge } : VFlags))
  | x, y =>
    let zz := match x, y with | .num _ v, .num _ w => decide (v.m = 0) && decide (w.m = 0) | _, _ => false
    let le := zz || fpLe x y
    let ge := zz || fpLe y x
    (match c with
     | .eq => le && ge | .ne => !(le && ge) | .lt => !ge | .le => le | .gt => !le | .ge => ge | .unord => false,
     ({ } : VFlags))

/-- Compare two INT32 lanes. -/
def intCmp (c : CmpFn) (a b : W32) : Bool × VFlags :=
  let x := a.toInt
  let y := b.toInt
  (match c with
   | .eq => decide (x = y) | .ne => decide (x ≠ y) | .lt => decide (x < y) | .le => decide (x ≤ y)
   | .gt => decide (y < x) | .ge => decide (y ≤ x) | .unord => false, ({ } : VFlags))

/-- F2I (R125). -/
def fpToInt (a : W32) : LaneRes :=
  match fp32 a with
  | .nan => (0, ({ iv := true } : VFlags))
  | .inf s => intSat (if s then -(2 ^ 31) - 1 else 2 ^ 31)
  | .num _ v =>
    let r := roundInt v.m 1 v.e
    if inInt32 r then (BitVec.ofInt 32 r, ({ pe := !(scaleExact v.m.natAbs 1 v.e 0) } : VFlags)) else intSat r

/-- I2F: INT32 × 2^(TAG − 127), one rounding (R125). -/
def intToFp (a : W32) (tag : Nat) : LaneRes := rounded a.toInt 1 ((tag : Int) - 127)

/-- The exact sum of FP32 lanes, rounded once (R127). A sum whose terms are all −0 is −0. -/
def fpSum (l : List W32) : LaneRes :=
  if l.isEmpty then (0, ({ } : VFlags))
  else
    let xs := l.map fp32
    if xs.any (fun x => decide (x = .nan)) then quiet nan32
    else
      let pos := xs.any (fun x => decide (x = .inf false))
      let neg := xs.any (fun x => decide (x = .inf true))
      if pos && neg then invalid
      else if pos then quiet (inf32 false)
      else if neg then quiet (inf32 true)
      else
        let s := Dy.sum (xs.map (fun x => match x with | .num _ v => v | _ => Dy.zero))
        rounded s.m 1 s.e (xs.all (fun x => match x with | .num n v => n && decide (v.m = 0) | _ => false))

/-- The saturated exact sum of INT32 lanes (R127). -/
def intSum (l : List W32) : LaneRes := intSat (l.foldl (fun acc x => acc + x.toInt) 0)

/-- MAX or MIN over FP32 lanes; empty gives −∞ or +∞ (R127). -/
def fpExtreme (isMax : Bool) (l : List W32) : LaneRes :=
  match l with
  | [] => quiet (inf32 isMax)
  | x :: xs =>
    let r := xs.foldl (fun acc y => (fpMinMax isMax acc y).1) x
    match fp32 r with
    | .nan => quiet nan32
    | _ => (r, ({ } : VFlags))

/-- MAX or MIN over INT32 lanes; empty gives the bounds (R127). -/
def intExtreme (isMax : Bool) (l : List W32) : LaneRes :=
  match l with
  | [] => (if isMax then BitVec.ofInt 32 (-(2 ^ 31)) else BitVec.ofInt 32 (2 ^ 31 - 1), ({ } : VFlags))
  | x :: xs => (xs.foldl (fun acc y => (intMinMax isMax acc y).1) x, ({ } : VFlags))

/-- BF16 to FP32, exact; a NaN becomes canonical (R117, R133). -/
def bf16ToFp32 (h : Nat) : W32 :=
  match fmtBF16.decode h with
  | .nan => BitVec.ofNat 32 nan32
  | _ => BitVec.ofNat 32 (h * 2 ^ 16)

/-- FP32 to BF16 under R117 (R133). -/
def fp32ToBf16 (a : W32) : Nat × VFlags :=
  match fp32 a with
  | .nan => (0x7FC0, ({ } : VFlags))
  | .inf s => (fmtBF16.signed s 0x7F80, ({ } : VFlags))
  | .num s v =>
    if v.m = 0 then (fmtBF16.signed s 0, ({ } : VFlags))
    else
      let r := fmtBF16.round v.m.natAbs 1 v.e
      if r.overflow then (fmtBF16.signed s 0x7F80, ({ ovf := true, pe := true } : VFlags))
      else (fmtBF16.signed s r.code, ({ pe := r.inexact, uf := r.inexact && r.tiny } : VFlags))

/-! ### Transcendentals (R126)

The exact result is enclosed in fixed point with `P` fraction bits, far below one ulp of any FP32 result. The returned
value is one of the values within the function's ulp bound of it; which one is the free value `Config.trnChoice`. -/

/-- Fraction bits of the fixed-point enclosure. -/
def trnP : Nat := 640

/-- Fixed-point product. -/
def fxMul (a b : Int) : Int := (a * b) / 2 ^ trnP

/-- A dyadic value in fixed point (rounded down). -/
def fxOf (v : Dy) : Int :=
  if 0 ≤ v.e + trnP then v.m * 2 ^ (v.e + trnP).toNat else v.m / 2 ^ (-(v.e + trnP)).toNat

/-- Taylor series of exp on fuel: term, index, argument, sum. -/
def fxExpLoop : Nat → Int → Int → Int → Int → Int
  | 0, _, _, _, acc => acc
  | k + 1, i, x, term, acc => let t := fxMul term x / i; fxExpLoop k (i + 1) x t (acc + t)

/-- exp of a fixed-point value in [-1, 1]. -/
def fxExpSmall (x : Int) : Int := fxExpLoop 160 1 x (2 ^ trnP) (2 ^ trnP)

/-- Series of atanh: odd powers. -/
def fxAtanhLoop : Nat → Int → Int → Int → Int → Int
  | 0, _, _, _, acc => acc
  | k + 1, i, x2, pw, acc => fxAtanhLoop k (i + 2) x2 (fxMul pw x2) (acc + pw / i)

/-- atanh of a small fixed-point value. -/
def fxAtanh (x : Int) : Int := fxAtanhLoop 420 1 (fxMul x x) x 0

/-- ln 2 in fixed point: 2 atanh(1/3). -/
def fxLn2 : Int := 2 * fxAtanh (2 ^ trnP / 3)

/-- e^x as m × 2^k with m in fixed point, for any fixed-point x. -/
def fxExp (x : Int) : Int × Int :=
  let k := x / fxLn2
  (fxExpSmall (x - k * fxLn2), k)

/-- ln of a positive dyadic value, in fixed point. -/
def fxLn (v : Dy) : Int :=
  let k := ilog2 v.m.natAbs 1 v.e
  let f := fxOf ⟨v.m, v.e - k⟩
  let one : Int := 2 ^ trnP
  k * fxLn2 + 2 * fxAtanh (((f - one) * 2 ^ trnP) / (f + one))

/-- Series of erf: sum of (-1)^n x^(2n+1) / (n! (2n+1)). -/
def fxErfLoop : Nat → Int → Int → Int → Int → Int
  | 0, _, _, _, acc => acc
  | k + 1, n, x2, term, acc =>
    let t := -(fxMul term x2) / (n + 1)
    fxErfLoop k (n + 1) x2 t (acc + t / (2 * n + 3))

/-- Machin's series for arctan(1/n). -/
def fxAtanInvLoop : Nat → Int → Int → Int → Int → Int
  | 0, _, _, _, acc => acc
  | k + 1, i, n2, pw, acc => fxAtanInvLoop k (i + 2) n2 (-(pw / n2)) (acc + pw / i)

/-- π in fixed point. -/
def fxPi : Int :=
  4 * (4 * fxAtanInvLoop 300 1 25 (2 ^ trnP / 5) 0 - fxAtanInvLoop 160 1 57121 (2 ^ trnP / 239) 0)

/-- 2 / √π in fixed point. -/
def fxTwoOverSqrtPi : Int :=
  2 * 2 ^ (2 * trnP) / (isqrt (fxPi.natAbs * 2 ^ trnP) : Int)

/-- erf of a fixed-point value of magnitude up to 16. -/
def fxErf (x : Int) : Int := fxMul fxTwoOverSqrtPi (fxErfLoop 1500 0 (fxMul x x) x x)

/-- The functions of R126. -/
inductive TrnFn
  | exp2 | exp | log2 | ln | rsqrt | tanh | sigmoid | erf | silu | gelu
  deriving DecidableEq, Repr

/-- The FN code of R126. -/
def TrnFn.code : TrnFn → Nat
  | .exp2 => 0 | .exp => 1 | .log2 => 2 | .ln => 3 | .rsqrt => 4 | .tanh => 5 | .sigmoid => 6 | .erf => 7
  | .silu => 8 | .gelu => 9

/-- The bound of R126 in ulp. -/
def TrnFn.bound : TrnFn → Nat
  | .exp2 | .log2 | .rsqrt => 1
  | .exp | .ln | .tanh | .sigmoid | .erf => 2
  | .silu | .gelu => 3

/-- A value that lies just below `v` in magnitude, by a relative 2^-300: where a function's exact result differs from its argument
by less than any FP32 result can show, but does differ (R126: TANH of a tiny argument, SILU and GELU of a large one). -/
def justBelow (v : Dy) : Int × Nat × Int :=
  (v.m * 2 ^ 300 - (if v.m < 0 then -1 else 1), 1, v.e - 300)

/-- A close approximation of the exact result at a finite input where no special value applies: num / den × 2^e. -/
def trnExact (f : TrnFn) (v : Dy) : Int × Nat × Int :=
  let one : Int := 2 ^ trnP
  let x := fxOf v
  let big := Dy.lt ⟨200, 0⟩ v.abs
  let p : Int := trnP
  match f with
  | .exp2 => if big then (1, 1, if v.m < 0 then -200 else 200)
             else let r := fxExp (fxMul x fxLn2); (r.1, 1, r.2 - p)
  | .exp => if big then (1, 1, if v.m < 0 then -200 else 200) else let r := fxExp x; (r.1, 1, r.2 - p)
  | .log2 => (fxLn v, fxLn2.natAbs, 0)
  | .ln => (fxLn v, 1, -p)
  | .rsqrt =>
    let odd := v.e % 2 ≠ 0
    let m := (if odd then v.m.natAbs * 2 else v.m.natAbs) * 2 ^ 400
    let e := (if odd then v.e - 1 else v.e) - 400
    (1, isqrt m, -(e / 2))
  | .tanh => if big then (if v.m < 0 then -(one - 1) else one - 1, 1, -p)
             else if Dy.lt v.abs ⟨1, -100⟩ then justBelow v
             else let r := fxExp (2 * x)
               let g := if 0 ≤ r.2 then r.1 * 2 ^ r.2.toNat else r.1 / 2 ^ (-r.2).toNat
               (g - one, (g + one).natAbs, 0)
  | .sigmoid => if big then (if v.m < 0 then (1, 1, -200) else (one - 1, 1, -p))
                else let r := fxExp (-x)
                  let g := if 0 ≤ r.2 then r.1 * 2 ^ r.2.toNat else r.1 / 2 ^ (-r.2).toNat
                  (one, (one + g).natAbs, 0)
  | .erf => if Dy.lt ⟨12, 0⟩ v.abs then (if v.m < 0 then -(one - 1) else one - 1, 1, -p)
            else if Dy.lt v.abs ⟨1, -100⟩ then (fxTwoOverSqrtPi * v.m, 1, v.e - p)
            else (fxErf x, 1, -p)
  | .silu => if big then (if v.m < 0 then (-1, 1, -200) else justBelow v)
             else let r := fxExp (-x)
               let g := if 0 ≤ r.2 then r.1 * 2 ^ r.2.toNat else r.1 / 2 ^ (-r.2).toNat
               (v.m * one, (one + g).natAbs, v.e)
  | .gelu => if Dy.lt ⟨16, 0⟩ v.abs then (if v.m < 0 then (-1, 1, -200) else justBelow v)
             else
               let y := x * 2 ^ trnP / (isqrt (2 * 2 ^ (2 * trnP)) : Int)
               (v.m * (one + fxErf y), 1, v.e - 1 - p)

/-- The result within the bound: the exact magnitude rounded down to the ulp grid of FP32, moved by the free choice. -/
def trnNear (f : TrnFn) (bits : W32) (num : Int) (den : Nat) (e : Int) : LaneRes :=
  if num = 0 then (0, ({ } : VFlags))
  else
    let neg := decide (num < 0)
    let k := ilog2 num.natAbs den e
    if 128 ≤ k then (BitVec.ofNat 32 (inf32 neg), ({ ovf := true, pe := true } : VFlags))
    else
      let q := max k (-126) - 23
      let lo := scaleFloor num.natAbs den e q
      let c := Config.trnChoice f.code bits.toNat % (2 * f.bound)
      let u0 := lo + c + 1 - f.bound
      let u := if 2 ^ 24 < u0 ∧ u0 % 2 = 1 then u0 - 1 else u0
      let code := if u < 2 ^ 23 ∧ q = -149 then u
        else if u < 2 ^ 23 then (fmtFP32.round u 1 q).code
        else min ((q + 150).toNat * 2 ^ 23 + (u - 2 ^ 23)) 0x7F7FFFFF
      let same := match fmtFP32.decode code with
        | .num _ w => decide ((w.m * den * 2 ^ (w.e - min w.e e).toNat : Int) = (num.natAbs : Int) * 2 ^ (e - min w.e e).toNat)
        | _ => false
      (BitVec.ofNat 32 (fmtFP32.signed neg code), ({ pe := !same, uf := !same && decide (code < 0x00800000) } : VFlags))

/-- A transcendental of one FP32 lane: special values as the table of R126 fixes them, exact results exact where the
spec names them, any other result within the bound. -/
def trnLane (f : TrnFn) (a : W32) : LaneRes :=
  let one : Nat := 0x3F800000
  match fp32 a with
  | .nan => quiet nan32
  | .inf s =>
    match f with
    | .exp2 | .exp => quiet (if s then 0 else inf32 false)
    | .log2 | .ln => if s then invalid else quiet (inf32 false)
    | .rsqrt => if s then invalid else quiet 0
    | .tanh | .erf => quiet (fmtFP32.signed s one)
    | .sigmoid => quiet (if s then 0 else one)
    | .silu | .gelu => quiet (if s then fmtFP32.signed true 0 else inf32 false)
  | .num s v =>
    if v.m = 0 then
      match f with
      | .log2 | .ln => (BitVec.ofNat 32 (inf32 true), ({ dz := true } : VFlags))
      | .rsqrt => (BitVec.ofNat 32 (inf32 s), ({ dz := true } : VFlags))
      | .tanh | .erf | .silu | .gelu => quiet (fmtFP32.signed s 0)
      | .exp2 => quiet one
      | .exp => trnNear f a 1 1 0
      | .sigmoid => trnNear f a 1 1 (-1)
    else
      match f with
      | .exp2 =>
        if scaleExact v.m.natAbs 1 v.e 0 ∧ Dy.le ⟨-149, 0⟩ v ∧ Dy.le v ⟨127, 0⟩ then rounded 1 1 (roundInt v.m 1 v.e)
        else let r := trnExact f v; trnNear f a r.1 r.2.1 r.2.2
      | .log2 =>
        if s then invalid
        else
          let k := ilog2 v.m.natAbs 1 v.e
          if scaleExact v.m.natAbs 1 v.e k ∧ scaleRound v.m.natAbs 1 v.e k = 1 then rounded k 1 0
          else let r := trnExact f v; trnNear f a r.1 r.2.1 r.2.2
      | .ln =>
        if s then invalid
        else if v = ⟨1, 0⟩ ∨ Dy.eq v ⟨1, 0⟩ then quiet 0
        else let r := trnExact f v; trnNear f a r.1 r.2.1 r.2.2
      | .rsqrt => if s then invalid else let r := trnExact f v; trnNear f a r.1 r.2.1 r.2.2
      | _ => let r := trnExact f v; trnNear f a r.1 r.2.1 r.2.2

end Sys2Proof.Machine
end

