-- ==== Sys2Proof/Machine/Atomics.lean ====
section
/-!
DEFINITION. Memory-side atomics (08_memory_system.md R239), and the arrival of a transfer's unit (05_core_programs.md R144), which is how
their requests reach the atomic port (09_address_translation.md R248).
-/
namespace Sys2Proof.Machine

/-- The header of an atomic request (R239), as its first 64 bytes. -/
structure AtomHdr where
  op : Nat
  ty : Nat
  ret : Bool
  clr : Bool
  count : Nat
  target : Nat
  anchor : Int
  osh : Int
  fmto : Nat
  raddr : Nat
  rcnt : Nat
  rcen : Bool
  rsv : Nat
  deriving DecidableEq, Repr

/-- Word `i` of a request. -/
def reqWord (b : List Byte) (i : Nat) : Nat := leNat ((b.drop (8 * i)).take 8)

/-- Decode a header (R239). -/
def atomHdr (b : List Byte) : AtomHdr :=
  let w0 := reqWord b 0
  let w1 := reqWord b 1
  { op := bits w0 63 60, ty := bits w0 59 58, ret := bitAt w0 57, clr := bitAt w0 56, count := bits w0 51 40 + 1,
    target := bits w0 39 0, anchor := signedOf 10 (bits w1 63 54), osh := signedOf 7 (bits w1 53 47), fmto := bits w1 46 43,
    raddr := bits w1 42 18, rcnt := bits w1 17 12, rcen := bitAt w1 11,
    rsv := bits w0 55 52 + bits w1 10 0 + reqWord b 2 + reqWord b 3 + reqWord b 4 + reqWord b 6 + reqWord b 7 }

/-- Element size in bytes (R239). -/
def atomSize (ty : Nat) : Nat := if ty = 1 then 8 else if ty = 3 then 16 else 4
/-- Operand bytes of a request (R239): pairs for CAS, none for FIN. -/
def atomOperands (h : AtomHdr) : Nat := if h.op = 8 then 0 else (if h.op = 7 then 2 else 1) * h.count * atomSize h.ty

/-- Whether the header's fields are legal (R239). R239 gives FIN's anchor its 10 bits and no range: every value is taken (DESIGN CHOICE, log
108). -/
def atomLegal (h : AtomHdr) : Bool :=
  decide (h.op ≤ 8) && h.rsv == 0 && (decide (h.op < 6) || h.ret) && (h.op == 8 || !h.clr) &&
  (if h.op = 8 then decide (2 ≤ h.fmto) && decide (h.fmto ≤ 6) else h.anchor == 0 && h.osh == 0 && h.fmto == 0) &&
  h.target % atomSize h.ty == 0

/-- Whether the operation allows the type (R239). -/
def atomType (h : AtomHdr) : Bool :=
  match h.op with
  | 0 => h.ty == 0 || h.ty == 1 || h.ty == 3
  | 1 | 2 => h.ty == 0 || h.ty == 1 || h.ty == 2
  | 8 => h.ty == 3
  | _ => h.ty == 0 || h.ty == 1

/-- Whether the target is one the atomics reach (R239). -/
def State.atomTarget (s : State) (h : AtomHdr) : Bool :=
  atomType h && decide (h.target % 4096 + h.count * atomSize h.ty ≤ 4096) && !(s.inEmbArea h.target) &&
  (match s.region h.target with | .hbm _ _ => true | _ => false)

/-- The new value of one element from the old and its operands (R239). -/
def atomApply (h : AtomHdr) (old a b : Nat) : Nat :=
  let w := 8 * atomSize h.ty
  match h.op with
  | 0 => (old + a) % 2 ^ w
  | 1 | 2 =>
    if h.ty = 2 then (fpMinMax (h.op == 2) (BitVec.ofNat 32 old) (BitVec.ofNat 32 a)).1.toNat
    else if (decide (signedOf w old ≤ signedOf w a)) != (h.op == 2) then old else a
  | 3 => Nat.land old a
  | 4 => Nat.lor old a
  | 5 => Nat.xor old a
  | 6 => a
  | 7 => if old = a then b else old
  | _ => if h.clr then 0 else old

/-- The bytes returned (R239): the old values, or for FIN the words converted once to FMTO. -/
def atomReturn (h : AtomHdr) (old : List Nat) : List Byte :=
  if h.op = 8 then
    match fpFmtOf h.fmto with
    | some f =>
      let w := fmtWidth h.fmto
      let codes := old.map (fun v => (f.writeOut (signedOf 128 v) 1 (h.anchor - h.osh)).1)
      leBytes (cdiv (codes.length * w) 8) (codes.foldr (fun x acc => x + acc * 2 ^ w) 0)
    | none => []
  else old.flatMap (fun v => leBytes (atomSize h.ty) v)

/-- Deliver bytes into a core's SPM in units of 4 KiB, counting each on a counter (R144). -/
def State.deliverSpm (s : State) (tc core off : Nat) (cnt : Option Nat) (bs : List Byte) : State :=
  let s1 := (splitBlocks (bs.length / 4096 + 2) off bs).foldl (fun y b => y.bgWrite core b.1 b.2) s
  match cnt with
  | none => s1
  | some k => (List.range (cdiv bs.length 4096)).foldl (fun y _ => y.countArrival tc core k) s1

/-- A request in the atomic port. -/
def State.portReq (s : State) (x : Nat) : Option PortReq := s.mem.ports.find? (fun r => r.xfer == x)
/-- Take a request out of its port. -/
def State.dropPort (s : State) (x : Nat) : State := s.modMem (fun m => { m with ports := m.ports.filter (fun r => r.xfer != x) })

/-- A fault of a port request faults the command that posted it. -/
def State.failPort (s : State) (r : PortReq) (c : Cause) (dpa : Nat) (detail : List Nat := []) : State :=
  let s1 := s.dropPort r.xfer
  if s1.taskRef r.pos = r.ref then s1.coreFault r.pos c .dt 0 detail 0 0 dpa
  else s1.faultCommand { cause := c, engine := .dt, cmdref := r.ref, pos := r.pos, dpa := dpa, detail := detail }

/-- Whether an earlier whole request waits for the same block: requests to one block are applied in their order of arrival. -/
def State.atomEarlier (s : State) (r : PortReq) : Bool :=
  let before := s.mem.ports.takeWhile (fun q => q.xfer != r.xfer)
  before.any (fun q => q.port == 32 && q.whole && (atomHdr q.bytes).target / 4096 == (atomHdr r.bytes).target / 4096)

/-- Apply the waiting atomic request of transfer `x`, when its operation is `op` (R239): one whole-block event. -/
def atomicRow (op t tc x : Nat) (e : Ecc) (s : State) : Host.Outcome State Fault Refusal :=
  let s := { s.atB t with cclk := max s.cclk tc }
  if s.stopped then .next s else
  match s.portReq x with
  | none => .next s
  | some r =>
    let h := atomHdr r.bytes
    if r.port ≠ 32 ∨ ¬ r.whole ∨ h.op ≠ op ∨ s.atomEarlier r then .next s
    else if ¬ s.atomTarget h then .next (s.failPort r .atomicTarget h.target)
    else
      let sz := atomSize h.ty
      let n := h.count * sz
      let bi := s.biNeeded h.target n true
      let f := s.foundAt h.target e
      let s1 := f.1
      if bi ≠ [] then .next (s.askBi bi true)
      else if f.2 = .uncorrectable ∨ s.isBad h.target then .next (s1.failPort r .uncorrectable h.target (s1.dpaDetail h.target))
      else
        let old := (List.range h.count).map (fun i => s1.mem.dram.readNat (h.target + i * sz) sz)
        let arg (i k m : Nat) : Nat := leNat ((r.bytes.drop (64 + (i * m + k) * sz)).take sz)
        let new := (old.zipIdx).map (fun v => if op = 7 then atomApply h v.1 (arg v.2 0 2) (arg v.2 1 2) else atomApply h v.1 (arg v.2 0 1) 0)
        let s2 := ((s1.writeDram h.target (new.flatMap (leBytes sz))).cacheWrite h.target true).endBi h.target n
        let s3 := (s2.dropPort x).modCmd r.ref (fun d => { d with effects := true })
        .next (if h.ret then s3.deliverSpm tc r.pos h.raddr (if h.rcen then some h.rcnt else none) (atomReturn h old) else s3)

/-- ATOMIC_ADD (R239). -/
def execAtomicAdd (t tc x : Nat) (e : Ecc) (s : State) : Host.Outcome State Fault Refusal := atomicRow 0 t tc x e s
/-- ATOMIC_MIN (R239). -/
def execAtomicMin (t tc x : Nat) (e : Ecc) (s : State) : Host.Outcome State Fault Refusal := atomicRow 1 t tc x e s
/-- ATOMIC_MAX (R239). -/
def execAtomicMax (t tc x : Nat) (e : Ecc) (s : State) : Host.Outcome State Fault Refusal := atomicRow 2 t tc x e s
/-- ATOMIC_AND (R239). -/
def execAtomicAnd (t tc x : Nat) (e : Ecc) (s : State) : Host.Outcome State Fault Refusal := atomicRow 3 t tc x e s
/-- ATOMIC_OR (R239). -/
def execAtomicOr (t tc x : Nat) (e : Ecc) (s : State) : Host.Outcome State Fault Refusal := atomicRow 4 t tc x e s
/-- ATOMIC_XOR (R239). -/
def execAtomicXor (t tc x : Nat) (e : Ecc) (s : State) : Host.Outcome State Fault Refusal := atomicRow 5 t tc x e s
/-- ATOMIC_SWAP (R239). -/
def execAtomicSwap (t tc x : Nat) (e : Ecc) (s : State) : Host.Outcome State Fault Refusal := atomicRow 6 t tc x e s
/-- ATOMIC_CAS (R239). -/
def execAtomicCas (t tc x : Nat) (e : Ecc) (s : State) : Host.Outcome State Fault Refusal := atomicRow 7 t tc x e s
/-- ATOMIC_FIN (R239). -/
def execAtomicFin (t tc x : Nat) (e : Ecc) (s : State) : Host.Outcome State Fault Refusal := atomicRow 8 t tc x e s

/-- A request that has arrived whole at the atomic port is checked before it is routed (R239, R248): its length, its fields. -/
def State.checkAtomic (s : State) (x : Nat) : State :=
  match s.portReq x with
  | none => s
  | some r =>
    if r.port ≠ 32 ∨ ¬ r.whole then s
    else
      let h := atomHdr r.bytes
      if r.bytes.length < 64 then s.failPort r .requestFormat 0
      else if ¬ atomLegal h then s.failPort r .illegalEncoding h.target
      else if r.bytes.length ≠ 64 + atomOperands h then s.failPort r .requestFormat h.target
      else s

/-- UNIT_ARRIVAL (R144): the next unit of transfer `id` is moved. `fnd` and `oldBad` are what the checks find. -/
def execUnitArrival (t tc id : Nat) (fnd : UnitFinding) (oldBad : Bool) (s : State) : Host.Outcome State Fault Refusal :=
  let s := { s.atB t with cclk := max s.cclk tc }
  match s.xfer id with
  | none => .next s
  | some x =>
    if x.st = .moving ∧ x.next < x.units then .next ((s.moveUnit tc x fnd oldBad).checkAtomic id) else .next s

end Sys2Proof.Machine
end

