-- ==== Sys2Proof/Machine/Flags.lean ====
section
/-!
DEFINITION. The vector engine's flags and masks: sticky flags and traps (04_vector_engine.md R119-R121), lane masks, zeroing and
the TAG rule (R112, R113, R123), pending writes (R116).
-/
namespace Sys2Proof.Machine

/-- Lanes of a tile register (R111). -/
def nLanes : Nat := 1024
/-- A register of +0 (R112). -/
def zeroReg : List W32 := List.replicate 1024 0
/-- Every mask bit set: what M0 reads as (R113). -/
def allMask : Nat := 2 ^ 1024 - 1

/-- A tile register. -/
def Core.vreg (c : Core) (r : Nat) : List W32 := Table.get zeroReg c.vregs r
/-- A register's scale tag (R112). -/
def Core.vtag (c : Core) (r : Nat) : Nat := Table.get 127 c.vtags r
/-- A mask register (R113). -/
def Core.mask (c : Core) (m : Nat) : Nat := if m = 0 then allMask else Table.get 0 c.masks m

/-- Whether a register or mask has a pending write at `t` (R116). -/
def Core.vPending (c : Core) (mask : Bool) (r t : Nat) : Bool :=
  c.vpend.any (fun v => v.mask == mask && v.reg == r && decide (t < v.upto))
/-- Set a pending write to `upto`; writes that have completed by `t` are dropped. -/
def Core.setPending (c : Core) (mask : Bool) (r t upto : Nat) : Core :=
  { c with vpend := c.vpend.filter (fun v => decide (t < v.upto)) ++ [⟨mask, r, upto⟩] }

/-- R119, R121: the flags of an instruction issued at `t` become sticky; they are kept with that CCLK, in which a write of 1 does not
clear them (R12); a flag that TRAPEN enables is a trap in the CCLK in
which the results become readable. -/
def Core.raise (c : Core) (t lat w : Nat) (f : VFlags) : Core :=
  { c with vxstat := c.vxstat ||| BitVec.ofNat 32 f.bits,
           vxNew := (t, if c.vxNew.1 = t then Nat.lor c.vxNew.2 f.bits else f.bits),
           vtraps := if Nat.land f.bits (bits c.vxstat.toNat 21 16) = 0 then c.vtraps else c.vtraps ++ [⟨t + lat, w, f.bits⟩] }

/-- The flags of the unmasked lanes together. -/
def orFlags (l : List VFlags) : VFlags := l.foldl VFlags.or {}

/-- R123: the lanes written: a masked-off lane keeps its value, or is +0 with MZ. -/
def maskMerge (mask : Nat) (mz : Bool) (old new : List W32) : List W32 :=
  (List.range nLanes).map (fun l => if bitAt mask l then new.getD l 0 else if mz then 0 else old.getD l 0)

/-- Write a register under a mask (R112, R123): the TAG stays only when every lane is masked off and MZ = 0. -/
def Core.writeReg (c : Core) (vd : Nat) (mask : Nat) (mz : Bool) (new : List W32) (tag : Nat) : Core :=
  { c with vregs := Table.set zeroReg c.vregs vd (maskMerge mask mz (c.vreg vd) new),
           vtags := if mask % 2 ^ 1024 = 0 ∧ ¬ mz then c.vtags else Table.set 127 c.vtags vd tag }

/-- Write a mask register under a mask (R123); M0 is never a destination (R113). -/
def Core.writeMask (c : Core) (md : Nat) (mask : Nat) (mz : Bool) (new : Nat) : Core :=
  let kept := if mz then 0 else Nat.land (c.mask md) (allMask - mask % 2 ^ 1024)
  { c with masks := Table.set 0 c.masks md (Nat.lor (Nat.land new mask) kept) }

/-- A mask from lane truth values, lane 0 first. -/
def maskOf : List Bool → Nat
  | [] => 0
  | b :: l => b2n b + 2 * maskOf l

/-- ARITH_FLAG_TRAP (R121): the first trap whose results have become readable faults the command with its instruction and the
flags it raised. -/
def execArithFlagTrap (t p : Nat) (s : State) : Host.Outcome State Fault Refusal :=
  let s := s.atC t
  match (s.core p).vtraps.find? (fun v => decide (v.time ≤ t)) with
  | none => .next s
  | some v =>
    if (s.core p).st = .halted ∨ (s.core p).st = .idle then .next s
    else .next (s.coreFault p .arithFlag .vx v.word [v.flags])

end Sys2Proof.Machine
end

