-- ==== Sys2Proof/Machine/Operands.lean ====
section
/-!
DEFINITION. The operand forms of the matrix engines: held tiles with their scales (R53-R56, R83), streamed rows, the
convolution window (R86-R88), packed MVP blocks (R99); and one pass over them with its contributions, triggers and
check values (R58, R65, R79, R89, R104).
-/
namespace Sys2Proof.Machine

/-- A signed field of `w` bits. -/
def sfield {w : Nat} (b : BitVec w) : Int := b.toInt

/-- One scaled operand: element × group scale × tensor scale, exact (R56); none for an invalid operand (R51). -/
def scaledElem (fmt code : Nat) (scale tensor : Option Dy) : Option Dy :=
  match elemValue fmt code, scale, tensor with
  | some v, some sc, some ts => some ((v.mul sc).mul ts)
  | _, _, _ => none

/-- All present, or none. -/
def allSome {α : Type} : List (Option α) → Option (List α)
  | [] => some []
  | none :: _ => none
  | some x :: l => (allSome l).map (fun r => x :: r)

/-- One row of `n` scaled elements at byte `a`, its scale row at byte `sa`; element `i` uses group `i` div G. -/
def Core.scaledRow (c : Core) (fmt scl gsz tsc a sa n : Nat) : Option (List Dy) :=
  allSome ((List.range n).map (fun i =>
    scaledElem fmt (c.elem fmt a i) (c.scaleAt scl sa (i / groupSize gsz)) (e8m0 tsc)))

/-- KV and NV of an MX.LDW. -/
def ldwKv (f : MxLdw) : Nat := f.kvm1.toNat + 1
def ldwNv (f : MxLdw) : Nat := f.nvm1.toNat + 1
/-- Byte address of a tile's row 0, and its stride in bytes. -/
def ldwBase (f : MxLdw) : Nat := f.waddr.toNat * 128
def ldwStride (f : MxLdw) : Nat := f.wstr.toNat * 64

/-- The tile an MX.LDW loads (R83): W[i][j] takes the group scale s[j][i div G] (R55). -/
def Core.loadTile (c : Core) (f : MxLdw) : Option Held :=
  let rows := (List.range (ldwKv f)).map (fun i =>
    allSome ((List.range (ldwNv f)).map (fun j =>
      scaledElem f.fmt.toNat (c.elem f.fmt.toNat (ldwBase f + i * ldwStride f) j)
        (c.scaleAt f.scl.toNat (f.wsaddr.toNat + j * f.sstr.toNat) (i / groupSize f.gsz.toNat)) (e8m0 f.tsc.toNat))))
  (allSome rows).map (fun r =>
    { fmt := f.fmt.toNat, scl := f.scl.toNat, gsz := f.gsz.toNat, tsc := f.tsc.toNat, kv := ldwKv f, nv := ldwNv f,
      rows := r, ldw := f })

/-- Convolution width (R86). -/
def mulW (f : MxMul) : Nat := if f.cw then 3 else 2
/-- Channels per tap group (R86). -/
def mulC (f : MxMul) : Nat := 128 / mulW f
/-- Output rows M. -/
def mulM (f : MxMul) : Nat := f.mm1.toNat + 1
/-- Rows streamed (R88). -/
def mulRows (f : MxMul) : Nat := if f.halo then mulM f + mulW f - 1 else mulM f
/-- Elements of each streamed row: KV, or NV transposed, or C in convolution (R86, R89). -/
def mulLen (f : MxMul) (h : Held) : Nat := if f.conv then mulC f else if f.tr then h.nv else h.kv

/-- The streamed rows. -/
def Core.streamRows (c : Core) (f : MxMul) (h : Held) : Option (List (List Dy)) :=
  allSome ((List.range (mulRows f)).map (fun m =>
    c.scaledRow f.fmta.toNat f.scla.toNat f.gsza.toNat f.tsca.toNat (f.aaddr.toNat * 128 + m * (f.astr.toNat * 64))
      (f.asaddr.toNat + m * (f.asstr.toNat * 4)) (mulLen f h)))

/-- The elements each output row's products use, along the reduction axis of the held tile (R87, R88). -/
def mulActs (f : MxMul) (rows : List (List Dy)) : List (List Dy) :=
  if f.conv then
    (List.range (mulM f)).map (fun m =>
      (List.range (mulW f)).flatMap (fun (tau : Nat) =>
        let s : Int := if f.halo then ((m + mulW f - 1 : Nat) : Int) - (tau : Int) else (m : Int) - (tau : Int)
        if s < 0 then List.replicate (mulC f) Dy.zero else rows.getD s.toNat []))
  else rows

/-- The transposed reading of a tile (R89). -/
def transposeRows (n : Nat) (l : List (List Dy)) : List (List Dy) :=
  (List.range n).map (fun j => l.map (fun r => r.getD j Dy.zero))

/-- Truncated sum of products of two vectors: the integer sum, whether bits were lost, whether a product triggers (R58,
R65). -/
def dotTrunc (anchor : Int) : List Dy → List Dy → Int × Bool × Bool
  | a :: as, b :: bs =>
    let t := (a.mul b).trunc anchor
    let r := dotTrunc anchor as bs
    (t.1 + r.1, t.2 || r.2.1, decide (2 ^ 103 ≤ t.1.natAbs) || r.2.2)
  | _, _ => (0, false, false)

/-- What one pass adds: contributions by slot of the tile, flags, and check values by row and by column. -/
structure PassRes where
  adds : List (Nat × Int)
  trunc : Bool
  trigger : Bool
  rowChk : List (Nat × Int)
  colChk : List (Nat × Int)
  deriving DecidableEq, Repr

/-- One pass: output row m, column j is the sum over i of trunc(acts[m][i] × w[i][j]) (R79); rows start at `row0`, columns at
`col0`. The row check multiplies each row by the row sums of w, the column check the column sums of the rows by w (R104). -/
def passOf (anchor : Int) (acts w : List (List Dy)) (cols row0 col0 : Nat) : PassRes :=
  let wt := transposeRows cols w
  let cells := (acts.zipIdx).flatMap (fun am => (wt.zipIdx).map (fun bj => (am.2, bj.2, dotTrunc anchor am.1 bj.1)))
  let rsum := w.map Dy.sum
  let csum := (List.range w.length).map (fun i => Dy.sum (acts.map (fun a => a.getD i Dy.zero)))
  { adds := cells.map (fun x => ((row0 + x.1) * 128 + col0 + x.2.1, x.2.2.1)),
    trunc := cells.any (fun x => x.2.2.2.1),
    trigger := cells.any (fun x => x.2.2.2.2),
    rowChk := (acts.zipIdx).map (fun am => (row0 + am.2, (dotTrunc anchor am.1 rsum).1)),
    colChk := (wt.zipIdx).map (fun bj => (col0 + bj.2, (dotTrunc anchor csum bj.1).1)) }

/-- The pass of an MX.MUL against a held tile; none for an invalid streamed operand. -/
def Core.mulPass (c : Core) (f : MxMul) (h : Held) (anchor : Int) : Option PassRes :=
  (c.streamRows f h).map (fun rows =>
    passOf anchor (mulActs f rows) (if f.tr then transposeRows h.nv h.rows else h.rows) (if f.tr then h.kv else h.nv) 0
      (if f.noff then 64 else 0))

/-- Round up to 128 B. -/
def up128 (n : Nat) : Nat := (n + 127) / 128 * 128
/-- KV, NV and V of an MV.MUL. -/
def mvKv (f : MvMul) : Nat := f.kvm1.toNat + 1
def mvNv (f : MvMul) : Nat := f.nvm1.toNat + 1
def mvV (f : MvMul) : Nat := f.vm1.toNat + 1
/-- Pitches of the packed blocks (R99). -/
def mvWPitch (f : MvMul) : Nat := up128 (rowBytes f.fmtw.toNat (mvNv f))
def mvAPitch (f : MvMul) : Nat := up128 (rowBytes f.fmta.toNat (mvKv f))
/-- Bytes of the packed weight tile and of the packed vector block with their scales (R99). -/
def mvWBytes (f : MvMul) : Nat :=
  mvKv f * mvWPitch f + mvNv f * (cdiv (mvKv f) (groupSize f.gszw.toNat) * scaleBytes f.sclw.toNat)
def mvABytes (f : MvMul) : Nat :=
  mvV f * mvAPitch f + mvV f * (cdiv (mvKv f) (groupSize f.gsza.toNat) * scaleBytes f.scla.toNat)

/-- The packed weight tile (R99). -/
def Core.mvWeights (c : Core) (f : MvMul) : Option (List (List Dy)) :=
  let base := f.waddr.toNat * 128
  let sbase := base + mvKv f * mvWPitch f
  let ng := cdiv (mvKv f) (groupSize f.gszw.toNat)
  allSome ((List.range (mvKv f)).map (fun i =>
    allSome ((List.range (mvNv f)).map (fun j =>
      scaledElem f.fmtw.toNat (c.elem f.fmtw.toNat (base + i * mvWPitch f) j)
        (c.scaleAt f.sclw.toNat sbase (j * ng + i / groupSize f.gszw.toNat)) (e8m0 f.tscw.toNat)))))

/-- The packed vectors (R99). -/
def Core.mvVectors (c : Core) (f : MvMul) : Option (List (List Dy)) :=
  let base := f.aaddr.toNat * 128
  let sbase := base + mvV f * mvAPitch f
  let ng := cdiv (mvKv f) (groupSize f.gsza.toNat)
  allSome ((List.range (mvV f)).map (fun v =>
    allSome ((List.range (mvKv f)).map (fun i =>
      scaledElem f.fmta.toNat (c.elem f.fmta.toNat (base + v * mvAPitch f) i)
        (c.scaleAt f.scla.toNat sbase (v * ng + i / groupSize f.gsza.toNat)) (e8m0 f.tsca.toNat)))))

/-- The pass of an MV.MUL; none for an invalid operand. -/
def Core.mvPass (c : Core) (f : MvMul) (anchor : Int) : Option PassRes :=
  match c.mvWeights f, c.mvVectors f with
  | some w, some a => some (passOf anchor a w (mvNv f) (8 * f.row0.toNat) 0)
  | _, _ => none

end Sys2Proof.Machine
end

