-- ==== Sys2Proof/Machine/Mx.lean ====
section
/-!
DEFINITION. The matrix array and the matrix-vector path (03_matrix_array.md): MX.LDW, MX.MUL, MX.WO, MV.MUL, and the judgement of
an operation at its LAST pass with the accumulation replay (02_numerics.md R65, R66).
-/
namespace Sys2Proof.Machine

/-- A tile of the ACM. -/
def Core.tile (c : Core) (k : Nat) : Tile := Table.get {} c.tiles k
/-- Replace a tile's state. -/
def Core.setTile (c : Core) (k : Nat) (v : Tile) : Core := { c with tiles := Table.set {} c.tiles k v }
/-- ACM slot of tile `k`, row m, column j (R81). -/
def slotOf (k m j : Nat) : Nat := k * 16384 + m * 128 + j
/-- The value V of a slot (R59). -/
def Core.slotVal (c : Core) (k m j : Nat) : Int := (Table.get (0 : W128) c.acm (slotOf k m j)).toInt
/-- Skim a tile's slots to zero. -/
def Core.skimTile (c : Core) (k : Nat) : Core := { c with acm := Table.clearRange c.acm (k * 16384) 16384 }
/-- Add integers into slots of a tile (R79). -/
def Core.addSlots (c : Core) (k : Nat) (l : List (Nat × Int)) : Core :=
  { c with acm := l.foldl (fun a x => Table.modify (0 : W128) a (k * 16384 + x.1) (fun v => v + BitVec.ofInt 128 x.2)) c.acm }

/-- A weight buffer. -/
def Core.wb (c : Core) (b : Bool) : WBuf := if b then c.wb1 else c.wb0
/-- Replace a weight buffer. -/
def Core.setWb (c : Core) (b : Bool) (v : WBuf) : Core := if b then { c with wb1 := v } else { c with wb0 := v }

/-! ### MX.LDW -/

/-- Field values outside the stated ranges, and regions that leave the SPM or cross a bank (R95, R148). -/
def ldwIllegal (f : MxLdw) : Bool :=
  let fmt := f.fmt.toNat
  let g := cdiv (ldwKv f) (groupSize f.gsz.toNat)
  decide (5 < fmt) || f.scl == 3 || f.gsz == 3 || f.rsv != 0 ||
  (fmt == 5 && (f.scl != 0 || f.tsc != 127)) ||
  decide ((if fmtWidth fmt = 4 then 256 else if fmt = 5 then 64 else 128) < ldwKv f) ||
  (fmt == 5 && decide (64 < ldwNv f)) ||
  decide (ldwStride f < rowBytes fmt (ldwNv f)) ||
  (f.scl == 0 && f.wsaddr != 0) ||
  !(oneBank (ldwBase f) (extent (ldwKv f) (rowBytes fmt (ldwNv f)) (ldwStride f))) ||
  (f.scl != 0 && !(oneBank f.wsaddr.toNat (extent (ldwNv f) (g * scaleBytes f.scl.toNat) f.sstr.toNat)))

/-- Load port time and issue-to-ready time (R84). -/
def ldwBusy (f : MxLdw) : Nat := if f.fmt = 5 then 16 else 32
def ldwReady (f : MxLdw) : Nat := if f.fmt = 5 then 22 else 38

/-- The checks of MX.LDW in the order of their cause codes (R95, R109, R51, R155). -/
def ldwChecks (t : Nat) (f : MxLdw) (c : Core) : List (Bool × Cause) :=
  [(ldwIllegal f, .illegalEncoding),
   (decide (t < (c.wb f.wb).releaseAt), .hazard),
   ((c.loadTile f).isNone, .invalidOperand),
   (c.inCacheUnit (ldwBase f) (extent (ldwKv f) (rowBytes f.fmt.toNat (ldwNv f)) (ldwStride f)) ||
     (f.scl != 0 && c.inCacheUnit f.wsaddr.toNat (extent (ldwNv f) (scaleBytes f.scl.toNat) f.sstr.toNat)), .cacheUnitAccess),
   (c.lostRead (ldwBase f) (extent (ldwKv f) (rowBytes f.fmt.toNat (ldwNv f)) (ldwStride f)) ||
     (f.scl != 0 && c.lostRead f.wsaddr.toNat (extent (ldwNv f) (scaleBytes f.scl.toNat) f.sstr.toNat)), .uncorrectable)]

/-- Its foreground accesses (R148): tile rows and, when scaled, group scales while the tile loads. -/
def ldwAccesses (t : Nat) (f : MxLdw) (_ : Core) (w : Nat) : List Access :=
  accessRun .mxLoad .mx (ldwBase f) t (ldwBusy f) 1 t w ::
  (if f.scl = 0 then [] else [accessRun .mxLoadScales .mx f.wsaddr.toNat t (ldwBusy f) 1 t w])

/-- The buffer after the load (R83, R84). -/
def ldwEffect (t : Nat) (f : MxLdw) (c : Core) : Core :=
  let c1 := { c.setWb f.wb { held := c.loadTile f, readyAt := t + ldwReady f, releaseAt := (c.wb f.wb).releaseAt } with
              loadFree := t + ldwBusy f }
  let c2 := if f.wb then { c1 with lastLdw1 := some f } else { c1 with lastLdw0 := some f }
  c2.issued .mx t (c.portFree.get .mx) (t + ldwReady f)

/-- The open operation and the closed ones of an engine. -/
def Core.openOp (c : Core) : MatEngine → Option MatOp
  | .mxa => c.mxaOpen
  | .mvp => c.mvpOpen
def Core.closedOps (c : Core) : MatEngine → List MatOp
  | .mxa => c.mxaDone
  | .mvp => c.mvpDone

/-- What a scorecard names of an MX or MV instruction (R110): its tile and buffer, and its pass index in the operation log, 0 where it
begins an operation. -/
def Core.about (c : Core) (e : MatEngine) (accum : Bool) (tile : Nat) (wb : Bool) : List Nat × Nat :=
  ([tile, b2n wb], match c.openOp e with | some o => if accum then o.passes.length else 0 | none => 0)

/-- MX.LDW (R83): fills the weight buffer it names. -/
def execMxLdw (t p : Nat) (f : MxLdw) (ecc : Ecc) (s : State) : Host.Outcome State Fault Refusal :=
  s.issue t p .mx (.mxLdw f) (fun c => c.loadFree) (ldwChecks t f) (ldwAccesses t f) ecc
    (fun s _ => s.modCore p (ldwEffect t f)) (fun c => c.about .mxa (c.openOp .mxa).isSome 0 f.wb)

/-! ### Operations -/

/-- Replace the open operation, or the closed ones. -/
def Core.setOpen (c : Core) (e : MatEngine) (o : Option MatOp) : Core :=
  match e with
  | .mxa => { c with mxaOpen := o }
  | .mvp => { c with mvpOpen := o }
def Core.setClosed (c : Core) (e : MatEngine) (l : List MatOp) : Core :=
  match e with
  | .mxa => { c with mxaDone := l }
  | .mvp => { c with mvpDone := l }
/-- Whether an engine has an operation, open or awaiting its verdict, on a tile. -/
def Core.usesTile (c : Core) (e : MatEngine) (k : Nat) : Bool :=
  (match c.openOp e with | some o => o.tile == k | none => false) || (c.closedOps e).any (fun o => o.tile == k)

/-- The hazards of R96, R109 and R116 of a pass on tile `k` by engine `e`. A tile of a rally contributor that the root accepted without
broadcast (R359) keeps DONE = 0 and has no operation: a new operation may begin on it (DESIGN CHOICE: log 101). -/
def passHazard (c : Core) (e other : MatEngine) (k : Nat) (accum : Bool) (t : Nat) : Bool :=
  (match c.openOp e with
   | some o => !accum || o.tile != k
   | none => accum) ||
  (c.closedOps e).any (fun o => o.tile == k) ||
  c.usesTile other k ||
  (!accum && decide (t < max (c.tile k).inFlight (c.tile k).rdaFlight))

/-- The illegal encodings a pass shares (R57, R96, R97, R101): anchor, ASTEP, more than 2^24 products; and of a further pass on the open
operation's tile a changed anchor, mixed operand kinds, a 513th pass. -/
def passIllegal (c : Core) (e : MatEngine) (k : Nat) (accum : Bool) (anchor : Int) (astep prods : Nat) (isInt : Bool) : Bool :=
  decide (anchor < -384) || decide (383 < anchor) || astep == 0 || decide (2 ^ 24 < prods) ||
  (match c.openOp e with
   | some o => accum && o.tile == k && (anchor != o.base || isInt != o.intOp || decide (2 ^ 24 < o.products + prods) || decide (512 ≤ o.passes.length))
   | none => false)

/-- R101: a new operation while both logs of the engine await a verdict. -/
def logsFull (c : Core) (e : MatEngine) (accum : Bool) : Bool := !accum && decide (2 ≤ (c.closedOps e).length)

/-- Begin an operation: every slot skimmed, DONE cleared, the tile's kind and RMAX kept (R72, R96, R98). -/
def Core.beginOp (c : Core) (e : MatEngine) (k : Nat) (anchor : Int) (astep rmax : Nat) (isInt : Bool) : Core :=
  ((c.skimTile k).setTile k { c.tile k with done := false, intOp := isInt, rmax := rmax, out := false }).setOpen e
    (some { tile := k, anchor := anchor, base := anchor, astep := astep, rmax := rmax, intOp := isInt })

/-- Enter check values into a table. -/
def addChk (m : Table Int) (l : List (Nat × Int)) : Table Int := l.foldl (fun a x => Table.modify 0 a x.1 (fun v => v + x.2)) m

/-- What an operation gains from a pass (R97, R104, R409): products, triggers, check values and their bounds. -/
def MatOp.addPass (o : MatOp) (r : PassRes) (k nv m : Nat) : MatOp :=
  { o with products := o.products + k, trigger := o.trigger || r.trigger, trunc := o.trunc || r.trunc,
           rowChk := addChk o.rowChk r.rowChk, colChk := addChk o.colChk r.colChk,
           rowBound := o.rowBound + k * (nv + 1), colBound := o.colBound + k * (m + 1) }

/-- Add one pass to the open operation and close it when the pass is its last. `ups` are upsets of the adder path, by slot:
physical disturbances the checksums are there to find (R104). -/
def Core.doPass (c : Core) (e : MatEngine) (pass : Pass) (r : PassRes) (k nv m : Nat) (ups : List (Nat × Int)) (last : Bool)
    (judge : Nat) : Core :=
  match c.openOp e with
  | none => c
  | some o =>
    let o1 := { o.addPass r k nv m with passes := o.passes ++ [pass] }
    let c1 := (c.addSlots o.tile r.adds).addSlots o.tile ups
    if last then (c1.setOpen e none).setClosed e (c1.closedOps e ++ [{ o1 with judgeAt := judge }])
    else c1.setOpen e (some o1)

/-! ### MX.MUL -/

/-- The reduction extent: products summed into each output by the pass (R97). An operation has one count: every pass adds its extent, also
where passes feed different outputs (NOFF halves) or a convolution masks rows (DESIGN CHOICE: log 102). -/
def mulK (f : MxMul) (h : Held) : Nat := if f.tr then h.nv else h.kv

/-- Illegal encodings of MX.MUL (R90, R95-R97, R148) against the held tile. -/
def mulIllegal (c : Core) (f : MxMul) : Bool :=
  f.scla == 3 || f.gsza == 3 || (f.fmta == 5 && (f.scla != 0 || f.tsca != 127)) || decide (5 < f.fmta.toNat) ||
  (f.scla == 0 && f.asaddr != 0) || (!f.conv && (f.cw || f.halo)) || (f.noff && f.fmta != 5) ||
  (f.tr && f.conv) ||
  (match (c.wb f.wb).held with
   | none => passIllegal c .mxa f.acc.toNat f.accum (sfield f.anchor) f.astep.toNat 0 (fmtIsInt f.fmta.toNat)
   | some h =>
     !(fmtPair f.fmta.toNat h.fmt) || (!(fmtPair4 f.fmta.toNat h.fmt) && decide (128 < h.kv)) || (f.tr && (fmtPair4 f.fmta.toNat h.fmt || decide (128 < h.kv))) ||
     passIllegal c .mxa f.acc.toNat f.accum (sfield f.anchor) f.astep.toNat (mulK f h) (fmtIsInt f.fmta.toNat) ||
     !(oneBank (f.aaddr.toNat * 128) (extent (mulRows f) (rowBytes f.fmta.toNat (mulLen f h)) (f.astr.toNat * 64))) ||
     (f.scla != 0 && !(oneBank f.asaddr.toNat (extent (mulRows f)
        (cdiv (mulLen f h) (groupSize f.gsza.toNat) * scaleBytes f.scla.toNat) (f.asstr.toNat * 4)))))

/-- Whether a position is reversible (R21): K0 and K1. -/
def reversible (p : Nat) : Bool := decide (p % 18 < 2)
/-- Whether the core `p` works as a reversible core: not where it stands for another position, for a substitute is a standard core
(R23, R91). -/
def State.reverses (s : State) (p : Nat) : Bool := reversible p && s.posOf p == p

/-- Bytes that the streamed rows, and their scales, reach over (R148). -/
def mulExtent (f : MxMul) (h : Held) : Nat := extent (mulRows f) (rowBytes f.fmta.toNat (mulLen f h)) (f.astr.toNat * 64)
def mulScaleExtent (f : MxMul) (h : Held) : Nat :=
  extent (mulRows f) (cdiv (mulLen f h) (groupSize f.gsza.toNat) * scaleBytes f.scla.toNat) (f.asstr.toNat * 4)
/-- Whether a test holds of the streamed rows or of their scales. -/
def mulReads (f : MxMul) (h : Option Held) (bad : Nat → Nat → Bool) : Bool :=
  match h with
  | some h => bad (f.aaddr.toNat * 128) (mulExtent f h) || (f.scla != 0 && bad f.asaddr.toNat (mulScaleExtent f h))
  | none => false

/-- The checks of MX.MUL (R91, R96, R101, R109, R51); `rev` says that the core works as a reversible one. -/
def mulChecks (t : Nat) (rev : Bool) (f : MxMul) (c : Core) : List (Bool × Cause) :=
  let b := c.wb f.wb
  [(mulIllegal c f, .illegalEncoding),
   (b.held.isNone || decide (t < b.readyAt) || passHazard c .mxa .mvp f.acc.toNat f.accum t, .hazard),
   (logsFull c .mxa f.accum, .mxHazard),
   (f.tr && !rev, .absentFeature),
   ((match b.held with | some h => (c.streamRows f h).isNone | none => false), .invalidOperand),
   (mulReads f b.held c.inCacheUnit, .cacheUnitAccess),
   (mulReads f b.held c.lostRead, .uncorrectable)]

/-- Its accesses: one streamed row, and its scales, per CCLK (R148). -/
def mulAccesses (t : Nat) (f : MxMul) (_ : Core) (w : Nat) : List Access :=
  accessRun .mxActivation .mx (f.aaddr.toNat * 128) t (mulRows f) 1 t w ::
  (if f.scla = 0 then [] else [accessRun .mxStreamScales .mx f.asaddr.toNat t (mulRows f) 1 t w])

/-- The accumulation (R79) with the timing of R100: last request at t + rows − 1, buffer released 9 later, DONE judged 20
later. -/
def mulEffect (t w : Nat) (f : MxMul) (ups : List (Nat × Int)) (c : Core) : Core :=
  let b := c.wb f.wb
  match b.held with
  | none => c
  | some h =>
    let k := f.acc.toNat
    let c0 := if f.accum then c else c.beginOp .mxa k (sfield f.anchor) f.astep.toNat f.rmax.toNat (fmtIsInt f.fmta.toNat)
    let lastReq := t + mulRows f - 1
    let c1 := match c0.mulPass f h (sfield f.anchor) with
      | none => c0
      | some r => c0.doPass .mxa ⟨some h.ldw, .mxMul f, w⟩ r (mulK f h) (if f.tr then h.kv else h.nv) (mulM f) ups f.last (lastReq + 20)
    (c1.setWb f.wb { b with releaseAt := max b.releaseAt (lastReq + 9) }).issued .mx t (t + mulRows f) (lastReq + 16)

/-- MX.MUL (R79). -/
def execMxMul (t p : Nat) (f : MxMul) (ecc : Ecc) (ups : List (Nat × Int)) (s : State) : Host.Outcome State Fault Refusal :=
  s.issue t p .mx (.mxMul f) (fun c => c.portFree.get .mx) (mulChecks t (s.reverses p) f) (mulAccesses t f) ecc
    (fun s w => s.modCore p (mulEffect t w f ups)) (fun c => c.about .mxa f.accum f.acc.toNat f.wb)

/-! ### MV.MUL -/

/-- Illegal encodings of MV.MUL (R52, R95-R97, R148). -/
def mvIllegal (c : Core) (f : MvMul) : Bool :=
  decide (5 < f.fmta.toNat) || decide (5 < f.fmtw.toNat) || !(fmtPair f.fmta.toNat f.fmtw.toNat) ||
  f.scla == 3 || f.gsza == 3 || f.sclw == 3 || f.gszw == 3 || f.rsv != 0 ||
  (f.fmta == 5 && (f.scla != 0 || f.tsca != 127 || f.sclw != 0 || f.tscw != 127)) ||
  decide (128 < 8 * f.row0.toNat + mvV f) ||
  passIllegal c .mvp f.acc.toNat f.accum (sfield f.anchor) f.astep.toNat (mvKv f) (fmtIsInt f.fmta.toNat) ||
  !(oneBank (f.waddr.toNat * 128) (mvWBytes f)) || !(oneBank (f.aaddr.toNat * 128) (mvABytes f))

/-- The checks of MV.MUL. -/
def mvChecks (t : Nat) (f : MvMul) (c : Core) : List (Bool × Cause) :=
  [(mvIllegal c f, .illegalEncoding),
   (passHazard c .mvp .mxa f.acc.toNat f.accum t, .hazard),
   (logsFull c .mvp f.accum, .mxHazard),
   ((({ c with spm := c.before t }).mvPass f (sfield f.anchor)).isNone, .invalidOperand),
   (c.inCacheUnit (f.waddr.toNat * 128) (mvWBytes f) || c.inCacheUnit (f.aaddr.toNat * 128) (mvABytes f), .cacheUnitAccess),
   (c.lostRead (f.waddr.toNat * 128) (mvWBytes f) || c.lostRead (f.aaddr.toNat * 128) (mvABytes f), .uncorrectable)]

/-- Its narrow-port accesses: the vector stream over 4V CCLK; the weights use the wide port (R148, R149). -/
def mvAccesses (t : Nat) (f : MvMul) (_ : Core) (w : Nat) : List Access :=
  [accessRun .mvVector .mv (f.aaddr.toNat * 128) t (4 * mvV f) 1 t w]

/-- The accumulation into rows 8 × ROW0 onward (R105), with the timing of R100; its reads find what the background writes of their CCLK
replace (R151). -/
def mvEffect (t w : Nat) (f : MvMul) (ups : List (Nat × Int)) (c : Core) : Core :=
  let c0 := if f.accum then c
    else c.beginOp .mvp f.acc.toNat (sfield f.anchor) f.astep.toNat f.rmax.toNat (fmtIsInt f.fmta.toNat)
  let c1 := match ({ c0 with spm := c0.before t }).mvPass f (sfield f.anchor) with
    | none => c0
    | some r => c0.doPass .mvp ⟨none, .mvMul f, w⟩ { r with colChk := [] } (mvKv f) (mvNv f) (mvV f) ups f.last (t + 4 * mvV f + 17)
  c1.issued .mv t (t + 4 * mvV f) (t + 4 * mvV f + 13)

/-- MV.MUL (R99, R105). -/
def execMvMul (t p : Nat) (f : MvMul) (ecc : Ecc) (ups : List (Nat × Int)) (s : State) : Host.Outcome State Fault Refusal :=
  s.issue t p .mv (.mvMul f) (fun c => c.portFree.get .mv) (mvChecks t f) (mvAccesses t f) ecc
    (fun s w => s.modCore p (mvEffect t w f ups)) (fun c => c.about .mvp f.accum f.acc.toNat false)

/-! ### Judgement and replay -/

/-- Whether a completed sum lies outside the window (R65). -/
def outOfWindow (v : Int) : Bool := decide (v < -(2 ^ 103)) || decide (2 ^ 103 - 1 < v)
/-- The sum trigger over a tile (R65). -/
def Core.sumTrigger (c : Core) (k : Nat) : Bool :=
  (Table.slice c.acm (k * 16384) 16384).any (fun e => outOfWindow e.2.toInt)

/-- The checksum comparisons of R104 under the bound of R409: exact when nothing was truncated. -/
def Core.checksOk (c : Core) (e : MatEngine) (o : MatOp) : Bool :=
  let rb : Nat := if o.trunc then o.rowBound else 0
  let cb : Nat := if o.trunc then o.colBound else 0
  let rowOk := (List.range 128).all (fun m =>
    let sum := (List.range 128).foldl (fun a j => a + c.slotVal o.tile m j) (0 : Int)
    decide ((Table.get 0 o.rowChk m - sum).natAbs ≤ rb))
  let colOk := (List.range 128).all (fun j =>
    let sum := (List.range 128).foldl (fun a m => a + c.slotVal o.tile m j) (0 : Int)
    decide ((Table.get 0 o.colChk j - sum).natAbs ≤ cb))
  rowOk && (e = .mvp || colOk)

/-- Re-run the logged passes at a new anchor from the unchanged SPM operands (R66 step 4, R102); none if an operand is now
invalid (R51). -/
def Core.rerun (c : Core) (e : MatEngine) (anchor : Int) : List Pass → MatOp → Option (Core × MatOp)
  | [], o => some (c, o)
  | x :: l, o =>
    match x.mul with
    | .mxMul f =>
      match (match x.ldw with | some g => c.loadTile g | none => none) with
      | none => none
      | some h => match c.mulPass f h anchor with
        | none => none
        | some r => Core.rerun (c.addSlots o.tile r.adds) e anchor l
            (o.addPass r (mulK f h) (if f.tr then h.kv else h.nv) (mulM f))
    | .mvMul f =>
      match c.mvPass f anchor with
      | none => none
      | some r => Core.rerun (c.addSlots o.tile r.adds) e anchor l (o.addPass { r with colChk := [] } (mvKv f) (mvNv f) (mvV f))
    | _ => Core.rerun c e anchor l o

/-- The time of the logged passes of a replay (R100, R102): each pass after its load, one after the other. That a load does not overlap
the pass before it is the model's reading of 'at their own timings' (DESIGN CHOICE: log 100). -/
def replayTime : List Pass → Nat
  | [] => 0
  | x :: l => (match x.mul, x.ldw with
      | .mxMul f, some g => ldwReady g + mulRows f
      | .mxMul f, none => mulRows f
      | .mvMul f, _ => 4 * mvV f
      | _, _ => 0) + replayTime l

/-- The time of the reloads of R102 step 4, from the last row request: the buffer's release, then the loads one behind the other. -/
def Core.reloadTime (c : Core) (e : MatEngine) : Nat :=
  match e, c.lastLdw0, c.lastLdw1 with
  | .mxa, some f, some g => 9 + ldwBusy f + ldwReady g
  | .mxa, some f, none => 9 + ldwReady f
  | .mxa, none, some g => 9 + ldwReady g
  | _, _, _ => 0

/-- The other matrix engine. -/
def otherEngine : MatEngine → MatEngine
  | .mxa => .mvp
  | .mvp => .mxa

/-- The replay that an engine is in. -/
def Core.replayOf (c : Core) (e : MatEngine) : Option Replaying := (c.closedOps e).findSome? (fun o => o.replaying)

/-- The CCLK of the first pass of a replay triggered in CCLK `t` (R66): the decision in the next CCLK, the skim in the one after. While the
other engine replays it waits for it, but the MXA goes before an MVP that triggered in the same CCLK (R103). -/
def Core.replayStart (c : Core) (e : MatEngine) (t : Nat) : Nat :=
  match c.replayOf (otherEngine e) with
  | some r => if e = .mxa ∧ r.since = t then t + 3 else max (t + 3) (r.stop + 2)
  | none => t + 3

/-- The MVP's replay gives way to the MXA's of the same CCLK (R103): it begins when that one has ended. -/
def Core.delayMvp (c : Core) (t stop : Nat) : Core :=
  c.setClosed .mvp ((c.closedOps .mvp).map (fun o => match o.replaying with
    | some r => if r.since = t then
        let d := stop + 2 - r.start
        { o with judgeAt := o.judgeAt + d, replaying := some ⟨r.since, r.start + d, r.stop + d⟩ }
      else o
    | none => o))

/-- Start a replay of a closed operation with its anchor raised (R66 step 3): the whole core halts, TCK stops. DONE comes as after the last
pass of R100; the engines resume after it and the reloads. -/
def Core.startReplay (c : Core) (e : MatEngine) (o : MatOp) (anchor : Int) (t : Nat) : Option Core :=
  let o0 : MatOp := { o with anchor := anchor, replays := o.replays + 1, products := 0, trigger := false, trunc := false, judged := false,
                             rowChk := [], colChk := [], rowBound := 0, colBound := 0 }
  match (c.skimTile o.tile).rerun e anchor o.passes o0 with
  | none => none
  | some (c1, o1) =>
    let start := c.replayStart e t
    let last := start + replayTime o.passes - 1
    let judge := last + (if e = .mxa then 20 else 18)
    let stop := max judge (last + c.reloadTime e)
    let o2 := { o1 with judgeAt := judge, replaying := some ⟨t, start, stop⟩ }
    let reload (x : Core) (g : Option MxLdw) (b : Bool) : Core :=
      match g with
      | some f => if e = .mxa then x.setWb b { x.wb b with held := x.loadTile f } else x
      | none => x
    let c2 := reload (reload c1 c1.lastLdw0 false) c1.lastLdw1 true
    let c3 := c2.setClosed e ((c2.closedOps e).map (fun y => if y.tile = o.tile then o2 else y))
    some { (if e = .mxa then c3.delayMvp t stop else c3) with
           st := .replay, replaySince := match c3.replaySince with | some r => some r | none => some t }

/-- An operation's replay has its verdict: it is over, and once no engine replays the halted engines resume at its end (R102 step 5); the
replay's duration is not counted in TCK. -/
def Core.endReplay (c : Core) (e : MatEngine) (o : MatOp) (t : Nat) : Core :=
  match o.replaying with
  | none => c
  | some r =>
    let c := c.setClosed e ((c.closedOps e).map (fun y => if y.tile = o.tile then { y with replaying := none } else y))
    if (c.replayOf .mxa).isSome ∨ (c.replayOf .mvp).isSome ∨ c.st ≠ .replay then c
    else
      let stop := max t r.stop
      match c.replaySince, c.pause with
      | none, _ => c
      | some _, some _ => { c with replaySince := none, st := .wait, replayEnd := stop }
      | some b, none => { c with replaySince := none, st := .run, resumeAt := stop, replayEnd := stop, pausedTotal := c.pausedTotal + (stop - b) }

/-- The tile after a completed operation (R61): anchor, replays, TRUNC, DONE. -/
def Core.complete (c : Core) (e : MatEngine) (o : MatOp) : Core :=
  (c.setTile o.tile { c.tile o.tile with anchor := o.anchor, replays := o.replays, trunc := o.trunc, done := true }).setClosed e
    ((c.closedOps e).filter (fun y => y.tile != o.tile))

/-- The instruction, tile and buffer, and pass index of an operation's last pass, which its judgement's faults name (R110). -/
def MatOp.blame (o : MatOp) : Nat × List Nat × Nat :=
  match o.passes.getLast? with
  | some x => (x.word, [o.tile, match x.mul with | .mxMul f => b2n f.wb | _ => 0], o.passes.length - 1)
  | none => (0, [o.tile], 0)

/-- An operation faults at its judgement (R66, R104, R64). -/
def State.opFault (s : State) (p : Nat) (e : MatEngine) (o : MatOp) (cause : Cause) : State :=
  s.coreFault p cause (match e with | .mxa => .mx | .mvp => .mv) o.blame.1 o.blame.2.1 o.blame.2.2

/-- R66 steps 2 and 3 for a trigger found by the core itself. -/
def State.replayOrFault (s : State) (t p : Nat) (e : MatEngine) (o : MatOp) : State :=
  if o.replays = o.rmax ∨ 383 < o.anchor + o.astep then s.opFault p e o .replayExhausted
  else match (s.core p).startReplay e o (o.anchor + o.astep) t with
    | none => s.opFault p e o .invalidOperand
    | some c =>
      let ref := s.taskRef p
      ((s.setCore p c).modCmd ref (fun d => { d with arepl := min (d.arepl + 1) 15 })).recordReason ref 0x01

/-- The checks of a judgement that found no trigger: checksums, then DONE (R104, R410). -/
def State.completeOp (s : State) (t p : Nat) (e : MatEngine) (o : MatOp) : State :=
  let c := s.core p
  if c.checksOk e o then s.setCore p ((c.endReplay e o t).complete e o)
  else s.opFault p e o .checksum

/-! ### Histogram unit (R74-R76) -/

/-- Fields of HGCTL (R74). -/
def hgEnabled (h : W64) : Bool := h.getLsbD 0 && !h.getLsbD 57
def hgBins (h : W64) : Nat := if h.getLsbD 16 then 256 else 64

/-- The edges in force (R75): in power-of-two mode those of HGCTL as it stands; in explicit mode those read when ENABLE went to 1, also
where HG_ERR has since been cleared with ENABLE kept 1 (DESIGN CHOICE: log 103). -/
def Core.edges (c : Core) : List Dy :=
  if bits c.hgctl.toNat 19 18 = 1 then
    (List.range (hgBins c.hgctl - 1)).map (fun (i : Nat) => ⟨1, signedOf 8 (bits c.hgctl.toNat 15 8) + (i : Int)⟩)
  else c.hgEdges

/-- Count exact values into the bins in CCLK `t` (R75, R76): a counter that has reached 0xFFFFFFFF counts no further and sets HG_OVF. -/
def Core.histCount (c : Core) (t : Nat) (vals : List Dy) : Core :=
  vals.foldl (fun x v =>
    let u := if x.hgctl.getLsbD 17 then v.abs else v
    let b := (x.edges.filter (fun e => Dy.le e u)).length
    let n := min (Table.get 0 x.hist b + 1) 0xFFFFFFFF
    let y := { x with hist := Table.set 0 x.hist b n }
    if n = 0xFFFFFFFF then { y with hgctl := y.hgctl ||| (1#64 <<< 56), hgOvfAt := some t } else y) c

/-! ### MX.WO -/

/-- Rows and columns of a write-out, and its row stride in bytes. -/
def woNv (f : MxWo) : Nat := f.nvm1.toNat + 1
def woStride (f : MxWo) : Nat := f.ostr.toNat * 64
def woBase (f : MxWo) : Nat := f.oaddr.toNat * 128

/-- Illegal encodings of MX.WO (R72, R95, R148). -/
def woIllegal (c : Core) (f : MxWo) : Bool :=
  let fmt := f.fmto.toNat
  let isInt := fmt == 7
  decide (fmt < 2) || decide (7 < fmt) || isInt != (c.tile f.acc.toNat).intOp ||
  (if isInt then f.ostep == 0 else f.ostep != 0 || f.tsaddr != 0) ||
  decide (128 < f.vrows.toNat) || f.rsv != 0 ||
  !(oneBank (woBase f) (extent 128 (rowBytes fmt (woNv f)) (woStride f))) ||
  (isInt && decide (spmSize ≤ f.tsaddr.toNat))

/-- The rounded INT32 elements of a block at shift `osh` (R69, R72); none when one saturates (R73). -/
def intBlock (vals : List Int) (anchor osh : Int) : Option (List Int) :=
  let r := vals.map (fun v => roundInt v 1 (anchor - osh))
  if r.all inInt32 then some r else none

/-- The saturation replays of an INT32 write-out (R73): the first shift at which nothing saturates, with the replays taken;
none when exhausted. `n` bounds the search by RMAX. -/
def satSearch (vals : List Int) (anchor : Int) (ostep : Nat) : Nat → Int → Nat → Option (Int × Nat × List Int)
  | n, osh, k =>
    match intBlock vals anchor osh with
    | some r => some (osh, k, r)
    | none =>
      match n with
      | 0 => none
      | m + 1 => if 63 < osh + ostep then none else satSearch vals anchor ostep m (osh + ostep) (k + 1)

/-- Values of the tile rows below VROWS, row-major over the columns written. -/
def woVals (c : Core) (f : MxWo) : List Int :=
  (List.range (min f.vrows.toNat 128)).flatMap (fun m => (List.range (woNv f)).map (fun j => c.slotVal f.acc.toNat m j))

/-- The outcome of an MX.WO's conversion: shift, saturation replays, element codes of the valid rows, OSAT. -/
def woConvert (c : Core) (f : MxWo) : Option (Int × Nat × List Nat × Bool) :=
  let t := c.tile f.acc.toNat
  let osh := sfield f.osh
  match fpFmtOf f.fmto.toNat with
  | some ff =>
    let r := (woVals c f).map (fun v => ff.writeOut v 1 (t.anchor - osh))
    some (osh, 0, r.map (·.1), r.any (·.2))
  | none =>
    match satSearch (woVals c f) t.anchor f.ostep.toNat t.rmax osh 0 with
    | some (o, k, r) => some (o, k, r.map (fun x => (x % 2 ^ 32).toNat), t.osat)
    | none => none

/-- Pack a row of element codes (R49). -/
def packRow (w : Nat) (l : List Nat) : List Byte :=
  leBytes (cdiv (l.length * w) 8) (l.foldr (fun x acc => x + acc * 2 ^ w) 0)

/-- The checks of MX.WO. -/
def woChecks (t : Nat) (f : MxWo) (c : Core) : List (Bool × Cause) :=
  let tl := c.tile f.acc.toNat
  [(woIllegal c f, .illegalEncoding),
   (!tl.done || decide (t < max tl.inFlight tl.rdaFlight), .hazard),
   ((woConvert c f).isNone, .satExhausted),
   (c.inCacheUnit (woBase f) (extent 128 (rowBytes f.fmto.toNat (woNv f)) (woStride f)) ||
     (f.fmto == 7 && c.inCacheUnit f.tsaddr.toNat 1), .cacheUnitAccess)]

/-- Replays of a write-out. -/
def woReplays (c : Core) (f : MxWo) : Nat := match woConvert c f with | some (_, k, _, _) => k | none => 0

/-- The CCLK of the first row of the last write of the tile (R100). -/
def woFirst (t : Nat) (f : MxWo) (c : Core) : Nat := t + 10 + 128 * woReplays c f

/-- Its accesses: one row per CCLK from issue + 10, and again for each saturation replay (R100); the tile scale byte with the last row
(DESIGN CHOICE: log 104). -/
def woAccesses (t : Nat) (f : MxWo) (c : Core) (w : Nat) : List Access :=
  accessRun .mxWriteOut .mx (woBase f) (t + 10) (128 * (1 + woReplays c f)) 1 t w ::
  (if f.fmto = 7 then [accessRun .mxWriteOut .mx f.tsaddr.toNat (woFirst t f c + 127) 1 1 t w] else [])

/-- The rows of a write-out, row `m` in its CCLK: valid rows converted, rows at or beyond VROWS as +0 (R94), and the tile scale byte of
R72. -/
def woActs (t : Nat) (f : MxWo) (c : Core) (osh : Int) (codes : List Nat) : List (Nat × List SpmAct) :=
  let w := fmtWidth f.fmto.toNat
  let nv := woNv f
  (List.range 128).map (fun m =>
    (woFirst t f c + m,
     .bytes (woBase f + m * woStride f) (packRow w (if m < f.vrows.toNat then (codes.drop (m * nv)).take nv else List.replicate nv 0)) ::
       (if m = 127 ∧ f.fmto = 7 then [.bytes f.tsaddr.toNat [BitVec.ofNat 8 (127 + osh).toNat]] else [])))

/-- The write-out (R69-R74): rows, the tile's OSH, SAT_REPLAYS and OSAT, the histogram. Values are counted once, at the final OSH, also
when saturation replays write the tile again (DESIGN CHOICE: log 104). -/
def woEffect (t : Nat) (f : MxWo) (c : Core) : Core :=
  match woConvert c f with
  | none => c
  | some (osh, k, codes, osat) =>
    let c2 := c.addDue .mx t (woActs t f c osh codes)
    let tl := c2.tile f.acc.toNat
    let c3 := c2.setTile f.acc.toNat { tl with osh := osh, satReplays := k, osat := osat, out := true, inFlight := t + 138 + 128 * k }
    let c4 := if hgEnabled c3.hgctl && !c3.hgctl.getLsbD 2 then
      c3.histCount t ((woVals c f).map (fun v => ⟨v, tl.anchor - osh⟩)) else c3
    { c4.issued .mx t (c4.portFree.get .mx) (t + 137 + 128 * k) with woFree := t + 128 * (1 + k) }

/-- MX.WO (R69): converts a completed tile once and writes it to the SPM. -/
def execMxWo (t p : Nat) (f : MxWo) (s : State) : Host.Outcome State Fault Refusal :=
  s.issue t p .mx (.mxWo f) (fun c => c.woFree) (woChecks t f) (woAccesses t f) .ok
    (fun s _ =>
      let k := woReplays (s.core p) f
      let s1 := s.modCore p (woEffect t f)
      if k = 0 then s1
      else (s1.modCmd (s.taskRef p) (fun d => { d with srepl := min (d.srepl + k) 15 })).recordReason (s.taskRef p) 0x01)
    (fun c => c.about .mxa false f.acc.toNat false)

end Sys2Proof.Machine
end

