-- ==== Sys2Proof/Machine/Ct.lean ====
section
/-!
DEFINITION. Control instructions, the control page and tasks (05_core_programs.md R152, R155, R164-R172; 02_numerics.md R74-R76):
CT.*, the arrival of task records, the end of a task, overruns, and the release of a HALTED core (11_command_front_end.md R320).
-/
namespace Sys2Proof.Machine

/-- When the CT queue may issue: not while a CACHECTL write waits or the task is ending (R155, R164). -/
def Core.ctFree (c : Core) (t : Nat) : Nat := if c.cacheWait.isSome || c.ending then t + 1 else c.portFree.ct

/-- Finish a CT instruction of occupancy `n`. -/
def Core.ctDone (c : Core) (t n : Nat) : Core := c.issued .ct t (t + n) (t + n - 1)

/-- CT_END (R164): the end of the task is issued; it retires when R170's conditions hold. -/
def execCtEnd (t p : Nat) (f : CtBare) (s : State) : Host.Outcome State Fault Refusal :=
  s.issue t p .ct (.ctEnd f) (fun c => c.ctFree t) (fun _ => [(f.rsv != 0, .illegalEncoding)]) (fun _ _ => []) .ok
    (fun s _ => s.modCore p (fun c => { c.ctDone t 1 with ending := true }))

/-- CT_NOP (R164). -/
def execCtNop (t p : Nat) (f : CtBare) (s : State) : Host.Outcome State Fault Refusal :=
  s.issue t p .ct (.ctNop f) (fun c => c.ctFree t) (fun _ => [(f.rsv != 0, .illegalEncoding)]) (fun _ _ => []) .ok
    (fun s _ => s.modCore p (fun c => c.ctDone t 1))

/-! ### CT.WRC -/

/-- Whether a control-page offset takes a 32-bit write (R165). -/
def wrc32 (o : Nat) : Bool := o == 0x014 || o == 0x020 || (decide (0x100 ≤ o) && decide (o ≤ 0x1FC) && o % 4 == 0)

/-- Illegal encodings of CT.WRC (R164, R165). -/
def wrcIllegal (f : CtWrc) : Bool :=
  let o := f.offset.toNat
  f.rsv != 0 || !(wrc32 o || o == 0x018) || (wrc32 o && f.value.toNat / 2 ^ 32 != 0)

/-- VXSTAT after a write: TRAPEN takes the value, a 1 clears a sticky flag (R120), but not one of the bits `new` that hardware sets in the
same CCLK (R12, R121). -/
def vxstatWrite (old v : W32) (new : Nat) : W32 :=
  let n := old.toNat
  BitVec.ofNat 32 (bits v.toNat 21 16 * 2 ^ 16 + Nat.lor (n % 64 - Nat.land (n % 64) (v.toNat % 64)) (Nat.land (n % 64) new))
/-- The sticky flags set in CCLK `t` (R12). -/
def Core.newFlags (c : Core) (t : Nat) : Nat := if c.vxNew.1 = t then c.vxNew.2 else 0

/-- Bytes of the edge table read at a start: 63 or 255 FP32 edges (R75). -/
def hgEdgeCount (v : W64) : Nat := hgBins v - 1

/-- Whether a write takes ENABLE to 1: counting starts. -/
def hgStarts (c : Core) (v : W64) : Bool := v.getLsbD 0 && !c.hgctl.getLsbD 0

/-- Whether a CT.WRC reads an edge table: a start in explicit mode (R75). -/
def wrcEdges (f : CtWrc) (c : Core) : Bool := f.offset == 0x018 && hgStarts c f.value && bits f.value.toNat 19 18 == 0
/-- Address and bytes of that table. -/
def wrcTable (f : CtWrc) : Nat := bits f.value.toNat 55 38 * 128
def wrcTableLen (f : CtWrc) : Nat := 4 * hgEdgeCount f.value

/-- The edges of a start (R75): none when the mode is reserved, or the table is not finite or not strictly ascending. -/
def hgStartEdges (c : Core) (v : W64) : Option (List Dy) :=
  let n := hgEdgeCount v
  match bits v.toNat 19 18 with
  | 0 =>
    let a := bits v.toNat 55 38 * 128
    let l := (List.range n).map (fun i => match fp32 (BitVec.ofNat 32 (c.spm.readNat (a + 4 * i) 4)) with
      | .num _ x => some x
      | _ => none)
    match allSome l with
    | none => none
    | some es => if (es.zip (es.drop 1)).all (fun p => Dy.lt p.1 p.2) then some es else none
  | 1 => some ((List.range n).map (fun (i : Nat) => ⟨1, signedOf 8 (bits v.toNat 15 8) + (i : Int)⟩))
  | _ => none

/-- HGCTL after a write in CCLK `t` (R74, R75): CLEAR zeroes the counters and the two status bits, a 1 clears a status bit but not an HG_OVF
set in the same CCLK (R12), a start reads the edges and sets HG_ERR when they are not usable. -/
def Core.writeHg (c : Core) (t : Nat) (v : W64) : Core :=
  let clear := v.getLsbD 1
  let err := c.hgctl.getLsbD 57 && !v.getLsbD 57 && !clear
  let ovf := c.hgctl.getLsbD 56 && (!v.getLsbD 56 || c.hgOvfAt == some t) && !clear
  let rw := BitVec.ofNat 64 (bits v.toNat 55 8 * 2 ^ 8 + b2n (v.getLsbD 2) * 4 + b2n (v.getLsbD 0))
  let word (e o : Bool) : W64 := rw ||| (if e then 1#64 <<< 57 else 0) ||| (if o then 1#64 <<< 56 else 0)
  let c1 := { c with hist := if clear then [] else c.hist }
  if hgStarts c v then
    match hgStartEdges c v with
    | some es => { c1 with hgEdges := es, hgctl := word err ovf }
    | none => { c1 with hgctl := word true ovf }
  else { c1 with hgctl := word err ovf }

/-- Arrivals counted on a counter in CCLK `t`. -/
def Core.newArrivals (c : Core) (cnt t : Nat) : Nat := if (Table.get (0, 0) c.arrNew cnt).1 = t then (Table.get (0, 0) c.arrNew cnt).2 else 0

/-- The registers a CT.WRC writes in CCLK `t`, but for CACHECTL (R165); arrivals of that CCLK count after the write (R145). -/
def Core.writeReg32 (c : Core) (t o : Nat) (v : W64) : Core :=
  if o = 0x014 then { c with vxstat := vxstatWrite c.vxstat (v.setWidth 32) (c.newFlags t) }
  else if o = 0x018 then c.writeHg t v
  else if 0x100 ≤ o then
    let k := (o - 0x100) / 4
    { c with arr := Table.set 0 c.arr k (v.setWidth 32 + BitVec.ofNat 32 (c.newArrivals k t)) }
  else c

/-- CT_WRC (R164, R75, R148, R153): a start of the histogram reads its edge table; a write of CACHECTL occupies the queue until it applies (R155). -/
def execCtWrc (t p : Nat) (r : WrcRead) (s : State) : Host.Outcome State Fault Refusal :=
  let f := r.op
  s.issue t p .ct (.ctWrc f) (fun c => c.ctFree t)
    (fun c => [(wrcIllegal f || (wrcEdges f c && !(oneBank (wrcTable f) (wrcTableLen f))), .illegalEncoding),
               (wrcEdges f c && c.inCacheUnit (wrcTable f) (wrcTableLen f), .cacheUnitAccess),
               (wrcEdges f c && c.lostRead (wrcTable f) (wrcTableLen f), .uncorrectable)])
    (fun c w =>
      if wrcEdges f c then [accessRun .ct .ct (wrcTable f) t (if hgBins f.value = 64 then 2 else 8) 1 t w] else [])
    r.ecc
    (fun s _ => s.modCore p (fun c =>
      if f.offset = 0x020 then { c.ctDone t 1 with cacheWait := some (f.value.toNat % 64) }
      else (c.writeReg32 t f.offset.toNat f.value).ctDone t 1))

/-- Lines of the cache units in a mask are dropped (R155). -/
def Core.dropUnits (c : Core) (mask : Nat) : Core := { c with cache := c.cache.filter (fun e => !(bitAt mask (e.1 / 2 ^ 45))) }

/-- CACHECTL_APPLY (R155): with no cached transfer outstanding the waiting write applies: a unit enabled starts empty, a unit
disabled is discarded. -/
def execCachectlApply (t p : Nat) (s : State) : Host.Outcome State Fault Refusal :=
  let s := s.atC t
  let c := s.core p
  match c.cacheWait with
  | none => .next s
  | some v =>
    if s.cachedOut p then .next s
    else
      let changed := Nat.xor v (c.cachectl.toNat % 64)
      .next (s.setCore p { c.dropUnits changed with
        cachectl := BitVec.ofNat 32 v, cacheWait := none, portFree := c.portFree.set .ct (t + 1), completeAt := max c.completeAt t })

/-- CT_CINV (R164): invalidates the named units; it waits while a cached transfer is outstanding. -/
def execCtCinv (t p : Nat) (f : CtCinv) (s : State) : Host.Outcome State Fault Refusal :=
  if s.cachedOut p then .next (s.atC t)
  else s.issue t p .ct (.ctCinv f) (fun c => c.ctFree t) (fun _ => [(f.rsv != 0, .illegalEncoding)]) (fun _ _ => []) .ok
    (fun s _ => s.modCore p (fun c => (c.dropUnits f.units.toNat).ctDone t 4))

/-- CT_RTAG (R152): the granule takes its tag and is skimmed to zero, 512 CCLK of the DL port on its bank; for R149 a DL access. -/
def execCtRtag (t p : Nat) (f : CtRtag) (s : State) : Host.Outcome State Fault Refusal :=
  let a := f.gran.toNat * 0x40000
  s.issue t p .ct (.ctRtag f) (fun c => max (c.ctFree t) c.portFree.dl)
    (fun c => [(f.rsv != 0 || decide (95 < f.gran.toNat) || f.tag == 3, .illegalEncoding), (c.inCacheUnit a 0x40000, .cacheUnitAccess)])
    (fun _ w => [accessRun .dl .ct a t 512 1 t w]) .ok
    (fun s _ => s.modCore p (fun c =>
      let c1 := (c.addDue .ct t ((List.range 512).map (fun i =>
        (t + i, (if i = 0 then [.tag f.gran.toNat f.tag.toNat] else []) ++ [.zero (a + 512 * i) 512])))).ctDone t 512
      { c1 with portFree := c1.portFree.set .dl (t + 512) }))

/-- CT_STS (R164): stores a tile status word. -/
def execCtSts (t p : Nat) (f : CtSts) (s : State) : Host.Outcome State Fault Refusal :=
  s.issue t p .ct (.ctSts f) (fun c => c.ctFree t)
    (fun c => [(f.rsv != 0 || f.addr.toNat % 4 != 0 || decide (spmSize < f.addr.toNat + 4), .illegalEncoding),
               (c.inCacheUnit f.addr.toNat 4, .cacheUnitAccess)])
    (fun _ w => [accessRun .ct .ct f.addr.toNat t 1 1 t w]) .ok
    (fun s _ => s.modCore p (fun c =>
      (c.addDue .ct t [(t, [.bytes f.addr.toNat (leBytes 4 (c.tile f.acc.toNat).word.toNat)])]).ctDone t 1))

/-- The counters, 4 bytes each in bin order (R76). -/
def Core.histBytes (c : Core) : List Byte := (List.range (hgBins c.hgctl)).flatMap (fun i => leBytes 4 (Table.get 0 c.hist i))

/-- CT_HGDUMP (R76): writes the counters to OUT_PTR, 128 B in each CCLK. -/
def execCtHgdump (t p : Nat) (f : CtBare) (s : State) : Host.Outcome State Fault Refusal :=
  let out (c : Core) : Nat := bits c.hgctl.toNat 37 20 * 128
  let occ (c : Core) : Nat := if hgBins c.hgctl = 64 then 2 else 8
  s.issue t p .ct (.ctHgdump f) (fun c => c.ctFree t)
    (fun c => [(f.rsv != 0 || !(oneBank (out c) (4 * hgBins c.hgctl)), .illegalEncoding),
               (c.inCacheUnit (out c) (4 * hgBins c.hgctl), .cacheUnitAccess)])
    (fun c w => [accessRun .ct .ct (out c) t (occ c) 1 t w]) .ok
    (fun s _ => s.modCore p (fun c =>
      (c.addDue .ct t ((List.range (occ c)).map (fun i => (t + i, [.bytes (out c + 128 * i) ((c.histBytes.drop (128 * i)).take 128)])))).ctDone t
        (occ c)))

/-! ### Tasks -/

/-- R170: what CT.END waits for; it retires in a CCLK after the last write (the worked kernel writes at 1,357 and retires at 1,358). -/
def Core.mayRetire (c : Core) (t : Nat) : Bool :=
  c.ending && decide (c.st = .run) && allQueues.all (fun q => (c.queue q).isEmpty) && decide (c.completeAt < t) &&
  c.mxaOpen.isNone && c.mvpOpen.isNone && c.mxaDone.isEmpty && c.mvpDone.isEmpty && c.cacheWait.isNone && c.vtraps.isEmpty

/-- The command that a task belongs to learns of the task's end (R121, R171 step 1). -/
def State.taskEnded (s : State) (p : Nat) : State :=
  let c := s.core p
  (s.modCmd (s.taskRef p) (fun d => { d with vxf := Nat.lor d.vxf (c.vxstat.toNat % 64), tasks := d.tasks - 1 })).modFix
    (fun f => { f with held := f.held.erase (s.posOf p) })

/-- CT_END_RETIRE (R170, R171): the task ends and the on-deck task starts, or the core is IDLE. -/
def execCtEndRetire (t p : Nat) (s : State) : Host.Outcome State Fault Refusal :=
  let s := s.atC t
  if (s.core p).mayRetire t then .next ((s.taskEnded p).modCore p (fun c => c.nextTask t)) else .next s

/-- A task state record from its 16 words (R167). -/
def taskRecOf (w : List Nat) : TaskRec :=
  { code := bits (w.getD 0 0) 24 0, trapen := bits (w.getD 1 0) 5 0, creset := w.getD 2 0 % 2 ^ 64, budget := bits (w.getD 3 0) 31 0,
    cmdref := w.getD 4 0 % 2 ^ 64 }

/-- The plan of a command, for records (R390). -/
def State.planOf (s : State) (ref : Nat) : Nat :=
  match s.cfe.find ref with
  | some c => (match c.cost with | some x => x.planid | none => 0)
  | none => 0

/-- A record reaches a core (R168, R171): an IDLE core takes it; a core with a record on deck keeps the first and posts an on-deck
overrun record. -/
def State.takeRecord (s : State) (t p : Nat) (k : TaskRec) : State :=
  let c := s.core p
  match c.ondeck with
  | some _ => s.postErr { cls := .schedule, sev := .degraded, cause := 0x01, ukind := .position, unit := p,
                          cmdref := k.cmdref, info6 := s.planOf k.cmdref, info7 := c.etk t }
  | none =>
    if c.st = .idle then s.setCore p (c.loadTask k (t + 1))
    else s.setCore p { c with ondeck := some k }

/-- ONDECK_RECORD (R168, R171): a record arrives. -/
def execOndeckRecord (t p : Nat) (w : List Nat) (s : State) : Host.Outcome State Fault Refusal :=
  .next ((s.atC t).takeRecord t p (taskRecOf w))

/-- TASK_OVERRUN (R169, R291): ETK has passed BUDGET. The core goes on; the command is marked, a record names the position and the
plan, and the next phase on the position is held. -/
def execTaskOverrun (t p : Nat) (s : State) : Host.Outcome State Fault Refusal :=
  let s := s.atC t
  let c := s.core p
  match c.task with
  | none => .next s
  | some k =>
    if (c.st = .run ∨ c.st = .wait ∨ c.st = .replay) ∧ ¬ c.overrun ∧ k.budget < c.etk t then
      let s1 := s.setCore p { c with overrun := true }
      let s2 := (s1.recordReason k.cmdref 0x05).modFix (fun f => { f with overruns := satInc f.overruns 64, held := f.held ++ [s.posOf p] })
      .next (s2.postErr { cls := .schedule, sev := .degraded, cause := 0x02, ukind := .position, unit := p, cmdref := k.cmdref,
                          info6 := s.planOf k.cmdref, info7 := c.etk t })
    else .next s

/-- Whether a placement of a command on a position has not ended (R320). -/
def State.placedOn (s : State) (ref p : Nat) : Bool :=
  s.fix.ledger.any (fun l => bits ref 47 40 == l.q && bits ref 31 0 == l.cseq && l.positions.contains (s.posOf p) && decide (s.absSlot < l.first + l.slots))

/-- The faulted task leaves its core (R172): its unjudged operations and its queues are discarded, then the on-deck task starts. -/
def Core.release (c : Core) (t : Nat) : Core :=
  ({ c with mxaOpen := none, mvpOpen := none, mxaDone := [], mvpDone := [], qMx := [], qMv := [], qVx := [], qDt := [], qDl := [],
            qCt := [], fetchBuf := [], vtraps := [], pause := none, replaySince := none, ending := false, cacheWait := none }).nextTask t

/-- HALTED_CORE_RELEASE (R172, R320): at the end of its command's placement on the position the core is released. -/
def execHaltedCoreRelease (t tb p : Nat) (s : State) : Host.Outcome State Fault Refusal :=
  let s := { s.atC t with bclk := max s.bclk tb }
  let c := s.core p
  if c.st = .halted ∧ ¬ s.placedOn (s.taskRef p) p then
    let ref := s.taskRef p
    let pos := s.posOf p
    let s1 := (s.modFix (fun f => { f with held := f.held.erase pos })).modLinks
      (fun l => { l with rally := l.rally.filter (fun r => !(r.2.pos == p && r.2.ref == ref && r.2.ref != 0)) })
    .next (s1.setCore p (c.release t))
  else .next s

end Sys2Proof.Machine
end

