-- ==== Sys2Proof/Machine/EmbTable.lean ====
section
/-!
DEFINITION. Embedding tables, home maps and training (07_embedding_engine.md R192-R198, R211-R217, R227): descriptors, where a row
lies, the combine banks, the apply at a step boundary, and the copies that moves of stripes keep (R222, R224).
-/
namespace Sys2Proof.Machine

/-- Change the embedding engines. -/
def State.modEmb (s : State) (f : Emb → Emb) : State := { s with emb := f s.emb }
/-- An EMB. -/
def State.embUnit (s : State) (st : Nat) : EmbUnit := Table.get {} s.emb.units st
/-- Change an EMB. -/
def State.modEmbUnit (s : State) (st : Nat) (f : EmbUnit → EmbUnit) : State :=
  s.modEmb (fun e => { e with units := Table.modify {} e.units st f })

/-! ### Descriptors (R193, R194) -/

/-- Bits [hi:lo] of word `i` of a descriptor. -/
def dword (d i hi lo : Nat) : Nat := bits d (64 * i + hi) (64 * i + lo)
def tdFmt (d : Nat) : Nat := dword d 0 51 48
def tdTsc (d : Nat) : Nat := dword d 0 47 40
/-- Row bytes B. -/
def tdB (d : Nat) : Nat := 32 * 2 ^ dword d 0 39 36
def tdMaster (d : Nat) : Nat := dword d 0 35 34
def tdTrain (d : Nat) : Bool := bitAt d 33
def tdRepl (d : Nat) : Bool := bitAt d 32
def tdRows (d : Nat) : Nat := dword d 0 31 0 + 1
def tdPanchor (d : Nat) : Int := signedOf 10 (dword d 1 63 54)
def tdPastep (d : Nat) : Nat := dword d 1 53 48
def tdPrmax (d : Nat) : Nat := dword d 1 47 44
def tdUanchor (d : Nat) : Int := signedOf 10 (dword d 1 43 34)
def tdHmap (d par : Nat) : Nat := dword d (2 + par) 51 0
def tdHeat (d : Nat) : Nat := dword d 4 51 0
/-- Elements D of a row (R194). -/
def tdD (d : Nat) : Nat := tdB d * 8 / fmtWidth (tdFmt d)
/-- The width of a master element. -/
def masterWidth (d : Nat) : Nat := if tdMaster d = 1 then 16 else if tdMaster d = 2 then 32 else 0
/-- Further frames k of a stripe (R194). -/
def tdK (d : Nat) : Nat := masterWidth d / fmtWidth (tdFmt d)
/-- Rows of a stripe (R194). -/
def tdRps (d : Nat) : Nat := 65536 / tdB d
/-- Stripes of a table. -/
def tdStripes (d : Nat) : Nat := cdiv (tdRows d) (tdRps d)

/-- The descriptor of a table; 0 where there is none (R227). -/
def State.tdesc (s : State) (t : Nat) : Nat := if t < 3840 then s.obj (0x5000 + t) 1 else 0

/-- Whether a descriptor keeps R193; all zero removes the table. -/
def descriptorLegal (t d : Nat) : Bool :=
  d == 0 ||
  (dword d 0 63 52 == t && decide (2 ≤ tdFmt d) && decide (tdFmt d ≤ 6) && decide (tdTsc d ≤ 254) && decide (dword d 0 39 36 ≤ 5) &&
   (tdMaster d == 0 || (tdMaster d == 1 && decide (fmtWidth (tdFmt d) ≤ 8)) || (tdMaster d == 2 && tdFmt d != 6)) &&
   decide (-384 ≤ tdPanchor d) && decide (tdPanchor d ≤ 383) && decide (1 ≤ tdPastep d) && decide (-384 ≤ tdUanchor d) &&
   decide (tdUanchor d ≤ 383) && dword d 1 33 0 == 0 && dword d 2 63 52 == 0 && dword d 3 63 52 == 0 && dword d 4 63 52 == 0 &&
   bits d 511 320 == 0)

/-- The key of a row or stripe of a table. -/
def rowKey (table n : Nat) : Nat := table * 2 ^ 32 + n
/-- The generation of a table's home map (R197). -/
def State.gen (s : State) (t : Nat) : Nat := (Table.get 0 s.emb.gens t).toNat
/-- The open step (R211). -/
def State.stepNo (s : State) : Nat := s.obj 0x5F00 1

/-! ### Home maps (R196-R198, R231) -/

/-- Where a stripe lives; `bad`: why it cannot be told (R226, R258). -/
inductive RowHome
  | here (st frame : Nat)
  | away (m : Nat)
  | bad (f : XferFault)
  | lost
  deriving DecidableEq, Repr

/-- The first and last bytes of a stack that frames may use (R231, R232): the embedding area without its spill area, in the live range. -/
def State.areaLo (s : State) : Nat := s.obj 0x2400 2 * gib + s.obj 0x5F01 1 * 2 ^ 20
def State.areaHi (s : State) (st : Nat) : Nat := min ((s.obj 0x2400 3 + 1) * gib) ((32 - (s.stack st).m) * 2 ^ 31)
/-- Whether the 1 + k frames from `frame` lie in the area of a stack (R231). -/
def State.framesOk (s : State) (st d frame : Nat) : Bool :=
  decide (s.areaLo ≤ frame * 65536) && decide ((frame + 1 + tdK d) * 65536 ≤ s.areaHi st)

/-- The DPA of `n` bytes at a DVA that the EMB of stack `st` reads or writes in class 1 (R240, R252); a fault where they are not memory of
this module, or, read, are uncorrectable (R226, R238, R266). -/
def State.embPlace (s : State) (st dva n : Nat) (wr : Bool) (ue : Option Nat) : State × Except XferFault Nat :=
  match s.translate (144 + st) dva wr ue with
  | (s1, .fault f) => (s1, .error (xlateFault (144 + st) 1 dva f.dpa f))
  | (s1, .ok tgt a) =>
    if tgt = .local' ∧ s1.tableAt a n then (if s1.isBad a then (s1, .error (s1.ueFault dva a)) else (s1.cacheRead a 1, .ok a))
    else (s1.xlFault, .error (xlateFault (144 + st) 1 dva a { case := 6 }))

/-- An entry of a home map array, read by the EMB of stack `st`; why not, where it cannot be read. -/
def State.readHome (s : State) (st d par stripe : Nat) (ue : Option Nat) : State × Except XferFault Nat :=
  match s.embPlace st (tdHmap d par + 8 * stripe) 8 false ue with
  | (s1, .ok a) => (s1, .ok (s1.mem.dram.readNat a 8))
  | (s1, .error f) => (s1, .error f)

/-- The home map entry of a stripe under a generation, through the EMB's home map cache for the current one (R191, R197). -/
def State.homeEntry (s : State) (st table d gen stripe : Nat) (ue : Option Nat) : State × Except XferFault Nat :=
  let key := rowKey table stripe
  let put (x : State) (e : Nat) : State :=
    x.modEmbUnit st (fun u => { u with hmap := ((key, e) :: u.hmap.filter (fun p => p.1 != key)).take 16384 })
  if gen = s.gen table then
    match (s.embUnit st).hmap.find? (fun p => p.1 == key) with
    | some p => (put s p.2, .ok p.2)
    | none =>
      match s.readHome st d (gen % 2) stripe ue with
      | (s1, .ok e) => (put s1 e, .ok e)
      | r => r
  else s.readHome st d (gen % 2) stripe ue

/-- What a home map entry says of a stripe (R196, R198, R223, R231). -/
def State.homeOfEntry (s : State) (d key : Nat) : Except XferFault Nat → RowHome
  | .error f => .bad f
  | .ok e =>
    if s.emb.lost.contains key then .lost
    else if ¬ bitAt e 47 then .bad { cause := .xlate }
    else if bits e 39 32 ≠ s.modId then .away (bits e 39 32)
    else if s.framesOk (bits e 31 28) d (bits e 19 0) then .here (bits e 31 28) (bits e 19 0)
    else .bad { cause := .xlate }

/-- The home of a stripe, as the EMB of stack `st` finds it. -/
def State.stripeHome (s : State) (st table d gen stripe : Nat) (ue : Option Nat) : State × RowHome :=
  let r := s.homeEntry st table d gen stripe ue
  (r.1, r.1.homeOfEntry d (rowKey table stripe) r.2)

/-- The stack of this module whose EMB finds a stripe at home with itself, with the frame. -/
def State.ownHome (s : State) (table d stripe : Nat) : Option (State × Nat × Nat) :=
  (List.range 16).findSome? (fun st =>
    match s.stripeHome st table d (s.gen table) stripe none with
    | (s1, .here h f) => if h = st then some (s1, h, f) else none
    | _ => none)

/-- The DPA of byte `off` of the frames from `frame` of a stack (R194, R231). -/
def State.frameDpa (s : State) (st frame off : Nat) : Nat := localDpa s.spreadSegs st (frame * 65536 + off)
/-- Byte offset of a row's serving and master copies within its stripe's frames (R194). -/
def servOff (d row : Nat) : Nat := row % tdRps d * tdB d
def masterOff (d row : Nat) : Nat := 65536 + row % tdRps d * tdB d * tdK d

/-- Element codes of a row (R49). -/
def codesOf (w n : Nat) (bs : List Byte) : List Nat :=
  let v := leNat bs
  (List.range n).map (fun i => v / 2 ^ (w * i) % 2 ^ w)
/-- The exact element values of a row (R194); none where an element is a NaN or an infinity (R226). -/
def rowVals (d : Nat) (bs : List Byte) : Option (List Dy) :=
  allSome ((codesOf (fmtWidth (tdFmt d)) (tdD d) bs).map (fun c => (elemValue (tdFmt d) c).map (fun v => v.scale2 ((tdTsc d : Int) - 127))))

/-- Whether some stripe of a table has a valid entry in this module's active map (R195). -/
def State.tableHomed (s : State) (t d : Nat) : Bool :=
  d != 0 && (List.range (tdStripes d)).any (fun i =>
    match (s.readHome 0 d (s.gen t % 2) i none).2 with | .ok e => bitAt e 47 | .error _ => false)

/-! ### Faults of requests (R226) -/

/-- A request of an EMB faults its command. -/
def State.failEmb (s : State) (st ref : Nat) (f : XferFault) : State :=
  s.faultCommand { cause := f.cause, engine := .emb, cmdref := ref, unit := st, dva := f.dva, dpa := f.dpa, detail := f.detail }
/-- A command completes LATE for a reason (R212, R214, R215). -/
def State.markLate (s : State) (ref code : Nat) : State :=
  (s.recordReason ref code).modCmd ref (fun d => { d with late := true })

/-! ### Farast control (R353, R355) -/

/-- Word 1 of an embedding packet. -/
def embWord1 (table st tag : Nat) : Nat := table * 2 ^ 52 + st * 2 ^ 48 + tag % 2 ^ 32

/-- What an EMB_CTL packet says: its code, its product-trigger bit and its COUNT (R353). -/
structure CtlMsg where
  code : Nat
  ptrig : Bool := false
  count : Nat := 0
  deriving DecidableEq, Repr

/-- Send an EMB_CTL (R353). -/
def State.embCtl (s : State) (o : ReqOwner) (dst table st tag ref step gen round : Nat) (m : CtlMsg) : State :=
  s.sendRequest { op := 0x13, dst := dst, w1 := embWord1 table st tag, w6 := m.code * 2 ^ 60 + b2n m.ptrig * 2 ^ 59 + m.count % 2 ^ 32,
                  cmdref := ref, step := step, gen := gen, round := round } o

/-- A home tells the entry EMB of another module about a request. -/
def State.tellEntry (s : State) (f : Feed) (table step gen round : Nat) (m : CtlMsg) : State :=
  s.embCtl (.embHome f.src f.st f.tag) f.src table f.st f.tag f.ref step gen round m

/-! ### Copies of moving stripes (R222-R224) -/

/-- Whether a block cannot be read, or fails its Seal (R223). -/
def State.blockBad (s : State) (dpa : Nat) : Bool := s.isBad dpa || s.sealFails (.dram dpa) 4096

/-- A stripe is LOST, and its move ends (R223, R227). -/
def State.loseStripe (s : State) (key : Nat) : State :=
  s.modEmb (fun e => { e with lost := if e.lost.contains key then e.lost else e.lost ++ [key], migs := e.migs.filter (fun m => m.key != key),
                              migLast := if e.migKey = some key then .lost else e.migLast })

/-- Send block `blk` of a stripe's frames to another module (R353); one that fails its Seal or cannot be read makes the stripe LOST instead
(R223). -/
def State.sendMigBlock (s : State) (dst key st frame blk : Nat) : State :=
  let at' := s.frameDpa st frame (4096 * blk)
  if s.blockBad at' then s.loseStripe key
  else s.sendRequest { op := 0x14, dst := dst, w1 := key / 2 ^ 32 * 2 ^ 52 + key % 2 ^ 32, w6 := blk, gen := s.gen (key / 2 ^ 32), step := s.stepNo,
                       pseal := true, payload := s.mem.dram.readBytes at' 4096 } (.mig (key / 2 ^ 32) (key % 2 ^ 32) blk)

/-- Write bytes of a stripe's other copy at byte `off` of its frames; where they are part of a bad block the stripe is LOST (R223, R237). -/
def State.writeCopy (s : State) (key st frame off : Nat) (bs : List Byte) : State :=
  let at' := s.frameDpa st frame off
  if s.badPart at' bs.length then s.loseStripe key else s.writeDpa at' bs

/-- An apply at stack `st` also writes the other copy of a moving stripe (R222 step 4, R224): `off` is the byte offset in the frames. -/
def State.mirrorApply (s : State) (key off : Nat) (bs : List Byte) (st frame : Nat) : State :=
  let send (x : State) (dst : Nat) : State :=
    (List.range ((off + bs.length - 1) / 4096 + 1 - off / 4096)).foldl (fun y i => y.sendMigBlock dst key st frame (off / 4096 + i)) x
  let s1 := match s.emb.migs.find? (fun (m : Mig) => m.key == key && (m.st == MigSt.dual || (m.st == MigSt.copy && m.sent))) with
    | none => s
    | some m =>
      if m.dstMod ≠ s.modId then send s m.dstMod
      else if st = m.srcSt ∧ frame = m.srcFrame then s.writeCopy key m.dstSt m.dstFrame off bs
      else s.writeCopy key m.srcSt m.srcFrame off bs
  match s1.emb.migIns.find? (fun (m : MigIn) => m.key == key && m.st == st && m.frame == frame) with
  | none => s1
  | some m => send s1 m.src

/-! ### Combining (R214, R215) -/

/-- Slots in use of a bank (R215). -/
def bankSlots (b : Table Entry) : Nat := (b.map (fun e => e.2.vals.length)).foldl (· + ·) 0

/-- What adding a partial row to a bank leads to. -/
inductive AddRes
  | ok (b : Table Entry)
  | full
  | overflow
  deriving DecidableEq, Repr

/-- Add a partial row to its entry: at most 2^24 partials an entry, 1,048,576 slots a bank (R214, R215); the check slot gains the exact
sum (R411), off by one where the check lane is struck by an error. -/
def bankAdd (b : Table Entry) (p : Partial) : AddRes :=
  let e := Table.get ({ } : Entry) b p.key
  if e.vals.isEmpty ∧ 1048576 < bankSlots b + p.vals.length then .full
  else if 2 ^ 24 ≤ e.n then .overflow
  else
    let v := if e.vals.isEmpty then p.vals else (e.vals.zip p.vals).map (fun x => x.1 + x.2)
    .ok (Table.set {} b p.key { vals := v, chk := e.chk + p.vals.foldl (· + ·) 0 + (if p.chkBad then 1 else 0), n := e.n + 1,
                                feeds := if e.feeds.contains p.feed then e.feeds else e.feeds ++ [p.feed] })

/-- The distance of a stamp from the open step (R18, R214): same, next, late, or ahead. -/
inductive StepCase
  | same | next | late | ahead
  deriving DecidableEq, Repr

/-- Judge a stamp against the open step (R212, R214). -/
def stepCase (openStep stamp : Nat) : StepCase :=
  let d := (stamp + 2 ^ 32 - openStep % 2 ^ 32) % 2 ^ 32
  if d = 0 then .same else if d = 1 then .next else if d ≤ 2 ^ 31 then .ahead else .late

/-- A home (a stack of this module, or 256 + a module) has combined `n` partial rows of an update request: the counts of its entry EMB fall, and
the command lists a home that has combined them all (R216, R226). -/
def State.ackHome (s : State) (tag home n : Nat) : State :=
  match s.emb.upds.find? (fun u => u.tag == tag) with
  | none => s
  | some u =>
    let u1 := { u with left := u.left - n, homes := Table.modify 0 u.homes home (fun x => x - n) }
    let word := (if home < 256 then s.modId * 2 ^ 24 + home * 2 ^ 20 else (home - 256) * 2 ^ 24) + 1
    (s.modEmb (fun e => { e with upds := (e.upds.map (fun x => if x.tag = tag then u1 else x)).filter (fun x => x.left != 0) })).modCmd u.ref (fun d =>
      { d with effects := true, homes := if Table.get 0 u1.homes home = 0 ∧ ¬ d.homes.contains word then d.homes ++ [word] else d.homes })

/-- A home whose open step is `step` has combined a partial row of this module's (R214-R216): late for its stamp, its command is LATE. -/
def State.noteCombined (s : State) (tag home n step : Nat) (waited : Bool) : State :=
  let s1 := match s.emb.upds.find? (fun u => u.tag == tag) with
    | none => s
    | some u => if waited then s.markLate u.ref 0x04 else if stepCase step u.step = StepCase.late then s.markLate u.ref 0x02 else s
  s1.ackHome tag home n

/-- The packets that brought a partial row are answered (R350). -/
def State.answerAll (s : State) (l : List Packet) : State := l.foldl (fun x k => x.answer k 0) s

/-- A partial row has been combined by a home whose open step is `step` (R216): told to its entry EMB. The product-trigger bit of COMBINED says
that it waited for the next open bank (DESIGN CHOICE, log 109). -/
def State.ackPartial (s : State) (p : Partial) (home step : Nat) : State :=
  if p.feed.src = s.modId then s.noteCombined p.feed.tag home 1 step p.waited
  else (s.tellEntry p.feed (p.key / 2 ^ 32) step (s.gen (p.key / 2 ^ 32)) 0 { code := 4, ptrig := p.waited, count := 1 }).answerAll p.acks

/-- An update request fails at a home: its command faults, or FAULT is sent to its entry EMB (R226, R355). -/
def State.failFeed (s : State) (f : Feed) (home key : Nat) (x : XferFault) : State :=
  if f.src = s.modId then
    (s.modEmb (fun e => { e with upds := e.upds.filter (fun u => u.tag != f.tag) })).failEmb home f.ref
      { x with detail := if x.detail = [] then [key] else x.detail }
  else s.tellEntry f (key / 2 ^ 32) s.stepNo (s.gen (key / 2 ^ 32)) 0 { code := 5, count := x.cause.code }
def State.failPartial (s : State) (p : Partial) (home : Nat) (x : XferFault) : State := (s.failFeed p.feed home p.key x).answerAll p.acks

/-- The home tells local senders of a full bank at once; others when the partial is combined (R215). -/
def State.deferPartial (s : State) (home : Nat) (p : Partial) : State :=
  (if p.feed.src = s.modId then s.markLate p.feed.ref 0x04 else s).modEmbUnit home (fun x => { x with defer := x.defer ++ [{ p with waited := true }] })

/-- Combine one partial row at a home (R214, R215), into the next bank where `next`; a full bank makes it wait for the next open bank. -/
def State.combine (s : State) (home : Nat) (p : Partial) (next : Bool) : State :=
  let u := s.embUnit home
  match bankAdd (if next then u.nextBank else u.bank) p with
  | .ok b => (s.modEmbUnit home (fun x => if next then { x with nextBank := b } else { x with bank := b })).ackPartial p home s.stepNo
  | .full => s.deferPartial home p
  | .overflow => s.failPartial p home { cause := .combineOverflow }

/-- The combine store's entry of a row reads uncorrectable: it is lost, and every request of the step that fed it faults (R236). -/
def State.loseEntry (s : State) (home key : Nat) (next : Bool) : State :=
  let u := s.embUnit home
  let e := Table.get ({ } : Entry) (if next then u.nextBank else u.bank) key
  e.feeds.foldl (fun x f => x.failFeed f home key { cause := .embStore })
    (s.modEmbUnit home (fun x => if next then { x with nextBank := x.nextBank.filter (fun y => y.1 != key) }
                                 else { x with bank := x.bank.filter (fun y => y.1 != key) }))

/-! ### Apply (R217, R411) -/

/-- Round a value plus an update into a format at a scale; a NaN or infinite element's result is a free value. -/
def applyElem (fmt : Nat) (tsc : Int) (old : Nat) (upd : Dy) (free : Nat) : Nat × Bool :=
  match fpFmtOf fmt, elemValue fmt old with
  | some f, some v =>
    let x := (v.scale2 tsc).add upd
    f.writeOut x.m 1 (x.e - tsc)
  | _, _ => (free % 2 ^ fmtWidth fmt, false)

/-- Count saturations of a table (R217). -/
def State.addSats (s : State) (t n : Nat) : State := s.modEmb (fun e => { e with sats := Table.modify 0 e.sats t (fun v => v + n) })

/-- Where the apply at stack `st` finds a row: in the frames that a move to another module has left here, or at home (R222, R224). -/
def State.applyHome (s : State) (st t d stripe : Nat) : State × RowHome :=
  match s.emb.migs.find? (fun m => m.key == rowKey t stripe && m.dstMod != s.modId && m.switched) with
  | some m => (s, .here m.srcSt m.srcFrame)
  | none => s.stripeHome st t d (s.gen t) stripe none

/-- The bytes of a row after its update (R217): master bytes (none without a master copy), serving bytes, elements that saturated. -/
def rowUpdate (d key step : Nat) (vals : List Int) (old mold : List Byte) : List Byte × List Byte × Nat :=
  let w := fmtWidth (tdFmt d)
  let tsc : Int := (tdTsc d : Int) - 127
  let upd : List Dy := vals.map (fun v => ⟨v, tdUanchor d⟩)
  if tdMaster d = 0 then
    let new := (((codesOf w (tdD d) old).zip upd).zipIdx).map (fun x => applyElem (tdFmt d) tsc x.1.1 x.1.2 (Config.trainNan key x.2 step))
    ([], packRow w (new.map (·.1)), (new.filter (·.2)).length)
  else
    let mf := if tdMaster d = 1 then 5 else 6
    let mw := masterWidth d
    let mnew := (((codesOf mw (tdD d) mold).zip upd).zipIdx).map (fun x => applyElem mf 0 x.1.1 x.1.2 (Config.trainNan key x.2 step))
    let new := (mnew.zipIdx).map (fun x => match fpFmtOf (tdFmt d), elemValue mf x.1.1 with
      | some f, some v => f.writeOut v.m 1 (v.e - tsc)
      | _, _ => (Config.trainNan key (4096 + x.2) step % 2 ^ w, false))
    (packRow mw (mnew.map (·.1)), packRow w (new.map (·.1)), ((mnew.zip new).filter (fun x => x.1.2 || x.2.2)).length)

/-- What is found at a row when it is applied (R236). -/
def findingOf (rows : List (Nat × RowFinding)) (key : Nat) : RowFinding :=
  match rows.find? (fun r => r.1 == key) with | some r => r.2 | none => .ok

/-- Apply one entry (R217): a check mismatch leaves the row and is recorded (R411); a lost entry, and a row whose old bytes read uncorrectable,
fault the requests that fed it and leave the row (R236, R238); a row without a home here stays. -/
def State.applyRow (s : State) (st step : Nat) (rows : List (Nat × RowFinding)) (key : Nat) (e : Entry) : State :=
  let t := key / 2 ^ 32
  let row := key % 2 ^ 32
  let fnd := findingOf rows key
  let fail (x : State) (f : XferFault) : State := e.feeds.foldl (fun y g => y.failFeed g st key f) x
  if fnd = .storeBad then fail s { cause := .embStore }
  else if e.vals.foldl (· + ·) 0 ≠ e.chk then
    ((s.modErr (fun x => { x with applyCheck := satInc x.applyCheck 64 })).postErr
      { cls := .integrity, sev := .degraded, cause := 0x03, ukind := .hbmStack, unit := st, info6 := key, info7 := step })
  else
    let d := s.tdesc t
    match s.applyHome st t d (row / tdRps d) with
    | (s1, .here h frame) =>
      let at' := s1.frameDpa h frame (servOff d row)
      let mat := s1.frameDpa h frame (masterOff d row)
      let s2 := match fnd with
        | .corrected => s1.noteRead at' .corrected
        | .uncorrectable => s1.noteRead at' .uncorrectable
        | _ => s1
      if d = 0 then s2
      else if fnd = .uncorrectable ∨ s2.isBad at' ∨ (tdMaster d ≠ 0 ∧ s2.isBad mat) then fail s2 (s2.ueFault 0 at')
      else
        let u := rowUpdate d key step e.vals (s2.mem.dram.readBytes at' (tdB d)) (s2.mem.dram.readBytes mat (tdB d * tdK d))
        let sk := rowKey t (row / tdRps d)
        let s3 := if tdMaster d = 0 then s2 else (s2.writeDpa mat u.1).mirrorApply sk (masterOff d row) u.1 h frame
        ((s3.writeDpa at' u.2.1).mirrorApply sk (servOff d row) u.2.1 h frame).addSats t u.2.2
    | (s1, _) => s1

/-- Whether a share of a lookup of step `e` delays the apply of a stack's bank (R212): it fetches there, or reads replicas of rows homed
there (R220), and its request may still fetch. -/
def State.delays (s : State) (h : Share) (st e : Nat) : Bool :=
  h.eff == e && !h.ended &&
  (h.home == st || s.emb.repls.any (fun r => r.home == st && h.rows.any (fun x => rowKey h.table x.1 == r.key)))

/-- Apply the closed banks of a stack that no lookup still delays (R212): a lookup of step e delays the apply of bank e until it has
finished its fetches, replays included. -/
def State.tryApply (s : State) (rows : List (Nat × RowFinding)) (st : Nat) : State :=
  let rec go : Nat → State → State
    | 0, x => x
    | n + 1, x =>
      match (x.embUnit st).closing with
      | [] => x
      | (e, b) :: _ =>
        if x.emb.shares.any (fun h => x.delays h st e) then x
        else go n ((b.foldl (fun y p => y.applyRow st e rows p.1 p.2) x).modEmbUnit st (fun u => { u with closing := u.closing.drop 1 }))
  go (s.embUnit st).closing.length s

/-- The step boundary (R211, R214, R215): step e closes, e + 1 opens, its early partials are the open bank's, partial rows that waited
are combined, and the applies begin; `rows` is what the applies find. -/
def State.stepBoundary (s : State) (rows : List (Nat × RowFinding)) : State :=
  let e := s.stepNo
  let s1 := s.setObj 0x5F00 1 ((e + 1) % 2 ^ 32)
  (List.range 16).foldl (fun x st =>
    let d := (x.embUnit st).defer
    let x1 := x.modEmbUnit st (fun u => { u with closing := u.closing ++ [(e, u.bank)], bank := u.nextBank, nextBank := [], defer := [] })
    (d.foldl (fun y p => y.combine st p false) x1).tryApply rows st) s1

end Sys2Proof.Machine
end

