-- ==== Sys2Proof/Machine/EmbLookup.lean ====
section
/-!
DEFINITION. Lookups and updates (07_embedding_engine.md R199-R210, R212-R216, R219-R221, R225, R226): routing, shares of homes, gather,
coalesce and pool, the root's judgement and write-out, and update requests.
-/
namespace Sys2Proof.Machine

/-! ### Requests -/

/-- A byte list as 32-bit words. -/
def words32 : List Byte → List Nat
  | a :: b :: c :: d :: l => leNat [a, b, c, d] :: words32 l
  | _ => []

/-- Bytes of the offsets array of a lookup request (R201). -/
def offsetBytes (mode plan : Nat) : Nat := if mode = 2 then 0 else cdiv (4 * (plan + 1)) 64 * 64

/-- A lookup header's fields (R200), with its offsets and indices (R201). -/
structure LookHdr where
  table : Nat
  mode : Nat
  fmto : Nat
  osh : Int
  plan : Nat
  valid : Nat
  nidx : Nat
  out : Nat
  ostride : Nat
  cnt : Nat
  cen : Bool
  sclass : Nat
  rsv : Nat
  offs : List Nat
  idx : List Nat
  deriving DecidableEq, Repr

/-- Read a lookup request (R200, R201). -/
def lookHdr (b : List Byte) : LookHdr :=
  let w0 := reqWord b 0
  let w1 := reqWord b 1
  let w2 := reqWord b 2
  let w3 := reqWord b 3
  let w4 := reqWord b 4
  let mode := bits w0 51 50
  let plan := bits w1 63 44 + 1
  let n := offsetBytes mode plan
  { table := bits w0 63 52, mode := mode, fmto := bits w0 49 46, osh := signedOf 7 (bits w0 45 39), plan := plan,
    valid := bits w1 43 23, nidx := bits w2 26 0, out := bits w3 51 0, ostride := bits w4 63 32, cnt := bits w4 31 26,
    cen := bitAt w4 25, sclass := bits w4 24 22,
    rsv := bits w0 38 32 + bits w1 22 0 + bits w2 63 27 + bits w3 63 52 + bits w4 21 0 + bits (reqWord b 6) 63 16 + reqWord b 7,
    offs := words32 ((b.drop 64).take n), idx := words32 (b.drop (64 + n)) }

/-- A list never decreases. -/
def neverDecreases : List Nat → Bool
  | a :: b :: l => decide (a ≤ b) && neverDecreases (b :: l)
  | _ => true

/-- The bag lengths of a request. -/
def bagLens (h : LookHdr) : List Nat := (List.range h.valid).map (fun i => h.offs.getD (i + 1) 0 - h.offs.getD i 0)

/-- The rules of R200, R201, R205 and R248 that the request's bytes decide. -/
def lookLegal (b : List Byte) (h : LookHdr) : Bool :=
  decide (64 ≤ b.length) && h.rsv == 0 && h.mode != 3 && decide (2 ≤ h.fmto) && decide (h.fmto ≤ 6) && decide (h.valid ≤ h.plan) &&
  decide (h.nidx ≤ 2 ^ 26) && b.length == 64 + offsetBytes h.mode h.plan + 4 * h.nidx &&
  (if h.mode = 2 then h.nidx == h.valid
   else h.offs.getD 0 0 == 0 && neverDecreases (h.offs.take (h.valid + 1)) && h.offs.getD h.valid 0 == h.nidx &&
     (bagLens h).all (fun n => decide (n ≤ 2 ^ 24)))

/-- The index entries (row, bag) of a request (R201). -/
def lookEntries (h : LookHdr) : List (Nat × Nat) :=
  if h.mode = 2 then h.idx.zipIdx
  else (List.range h.valid).flatMap (fun i =>
    ((h.idx.drop (h.offs.getD i 0)).take (h.offs.getD (i + 1) 0 - h.offs.getD i 0)).map (fun r => (r, i)))

/-- Pool store slots a request claims at its entry EMB (R203 step 2). -/
def poolClaim (d : Nat) (h : LookHdr) : Nat := if h.mode = 2 then 0 else (tdD d + 1) * h.plan
/-- Pool store slots claimed at a stack. -/
def State.poolUsed (s : State) (st : Nat) : Nat := ((s.emb.looks.filter (fun l => l.st == st)).map (fun l => l.claim)).foldl (· + ·) 0

/-- Entries sorted by row, then by bag, with multiplicities (R204). -/
def groupRows (l : List (Nat × Nat)) : List (Nat × List (Nat × Nat)) :=
  l.foldl (fun a e => Table.modify [] a e.1 (fun b => Table.modify 0 b e.2 (fun m => m + 1))) []

/-- Occurrences of one row. -/
def occOf (l : List (Nat × Nat)) : Nat := (l.map (·.2)).foldl (· + ·) 0

/-- Where the route stage finds a row (R202): its home, and the stack and frame that its bytes lie in on this module. -/
structure Route where
  row : Nat
  home : RowHome
  st : Nat := 0
  frame : Nat := 0
  deriving DecidableEq, Repr

/-- A stripe's home as a route. -/
def routeOf (row : Nat) : RowHome → Route
  | .here st f => { row := row, home := .here st f, st := st, frame := f }
  | h => { row := row, home := h }

/-- The replica directory's answer for a row at a stack (R202, R220): the row is served here, from its home's bytes. -/
def State.replica (s : State) (st table d gen row : Nat) : Option Route :=
  match s.emb.repls.find? (fun x => x.key == rowKey table row && x.st != .entering) with
  | none => none
  | some r => match (s.stripeHome r.home table d gen (row / tdRps d) none).2 with
    | .here h f => some { row := row, home := .here st f, st := h, frame := f }
    | _ => none

/-- Route one index at a stack (R202, R226): its range, then its stripe's mark, its replica or its home. -/
def State.routeRow (s : State) (repl : Bool) (st table d gen : Nat) (ue : Option Nat) (row : Nat) : State × Except XferFault Route :=
  if tdRows d ≤ row then (s, .error { cause := .requestFormat })
  else if s.emb.lost.contains (rowKey table (row / tdRps d)) then (s, .error { cause := .stripeLost })
  else match (if repl then s.replica st table d gen row else none) with
    | some r => (s, .ok r)
    | none => match s.stripeHome st table d gen (row / tdRps d) ue with
      | (s1, .bad f) => (s1, .error f)
      | (s1, .lost) => (s1, .error { cause := .stripeLost })
      | (s1, h) => (s1, .ok (routeOf row h))

/-- Route every index in order, up to the first that fails (R202); `acc` are the rows routed so far. -/
def State.routeRows (s : State) (repl : Bool) (st table d gen : Nat) (ue : Option Nat) : List Nat → List Route → State × Except XferFault (List Route)
  | [], acc => (s, .ok acc)
  | r :: l, acc =>
    match s.routeRow repl st table d gen ue r with
    | (s1, .error f) => (s1, .error f)
    | (s1, .ok x) => s1.routeRows repl st table d gen ue l (if acc.any (fun y => y.row == r) then acc else acc ++ [x])

/-- Rows routed to a stack of this module, or to another module. -/
def rowsAt (l : List Route) (rows : List (Nat × List (Nat × Nat))) (p : RowHome → Bool) : List (Nat × List (Nat × Nat)) :=
  rows.filter (fun r => (l.find? (fun x => x.row == r.1)).any (fun x => p x.home))
def RowHome.isHere (st : Nat) : RowHome → Bool
  | .here h _ => h == st
  | _ => false
def RowHome.isAway (m : Nat) : RowHome → Bool
  | .away x => x == m
  | _ => false

/-- The most entries a home sorts: a window, or what its spill area holds (R205). -/
def State.sortCap (s : State) : Nat := max 1048576 (min (64 * 1048576) (s.obj 0x5F01 1 * 131072))

/-! ### Shares -/

/-- The shares of a request at this module's stacks. -/
def shareList (base : Share) (routes : List Route) (rows : List (Nat × List (Nat × Nat))) : List Share :=
  (List.range 16).filterMap (fun h =>
    let l := rowsAt routes rows (RowHome.isHere h)
    if l.isEmpty then none
    else some { base with home := h, rows := l, left := l,
                          at' := (routes.filter (fun r => r.home.isHere h)).map (fun r => (r.row, r.st, r.frame)) })

/-- Shares enter a stack's EMBs, with the number of their request in the order of routing. -/
def State.addShares (s : State) (l : List Share) : State :=
  s.modEmb (fun e => { e with nextShare := e.nextShare + 1, shares := e.shares ++ l.map (fun h => { h with seq := e.nextShare }) })

/-- Whether a share is over what its home can sort (R205). -/
def State.shareTooBig (s : State) (h : Share) : Bool := decide (s.sortCap < (h.rows.map (fun r => occOf r.2)).foldl (· + ·) 0)

/-- The anchor of a share or request in a round (R209); rows mode keeps every element exact (R210). -/
def exactAnchor (d : Nat) : Int :=
  (match fpFmtOf (tdFmt d) with | some f => 1 - (f.bias : Int) - f.mb | none => 0) + (tdTsc d : Int) - 127
def poolAnchor (d round : Nat) : Int := tdPanchor d + (tdPastep d * round : Nat)
def Share.anchor (h : Share) : Int := if h.exact then exactAnchor h.desc else poolAnchor h.desc h.round

/-- The key of a slot of a bag. -/
def slotKey (bag e : Nat) : Nat := bag * 4096 + e

/-- Pool one row into its bags (R204, R208, R411): one truncated product of each element with each multiplicity, and one of the exact
element sum into the check slot. -/
def Share.pool (h : Share) (vals : List Dy) (bags : List (Nat × Nat)) : Share :=
  let a := h.anchor
  let sum := Dy.sum vals
  bags.foldl (fun x bm =>
    let m := Dy.ofInt bm.2
    let prods := vals.map (fun v => (v.mul m).trunc a)
    let chk := (sum.mul m).trunc a
    let slots := (prods.zipIdx).foldl (fun t p => Table.modify 0 t (slotKey bm.1 p.2) (fun v => v + p.1.1)) x.slots
    { x with slots := Table.modify 0 slots (slotKey bm.1 (tdD x.desc)) (fun v => v + chk.1),
             occ := Table.modify 0 x.occ bm.1 (fun n => n + bm.2), pairs := x.pairs + 1,
             trunc := x.trunc || prods.any (fun p => p.2) || chk.2,
             trigger := x.trigger || (!x.exact && prods.any (fun p => decide (2 ^ 103 ≤ p.1.natAbs))) }) h

/-- The same share. -/
def Share.same (h : Share) (src st tag : Nat) : Bool := h.src == src && h.st == st && h.tag == tag
/-- Drop the shares of a request; the applies they delayed may begin. -/
def State.dropShares (s : State) (src st tag : Nat) : State :=
  (List.range 16).foldl (fun x h => x.tryApply [] h) (s.modEmb (fun e => { e with shares := e.shares.filter (fun h => !(h.same src st tag)) }))

/-- A lookup request fails (R226): bags not yet written stay unwritten. -/
def State.failLook (s : State) (l : Look) (f : XferFault) : State :=
  ((s.modEmb (fun e => { e with looks := e.looks.filter (fun x => x.tag != l.tag) })).dropShares s.modId l.st l.tag).failEmb l.st l.ref f

/-- The request that a share belongs to. -/
def Share.feed (h : Share) : Feed := ⟨h.src, h.st, h.tag, h.ref⟩

/-- A share fails: its request fails, or FAULT is sent to its entry EMB (R226, R355). -/
def State.failShare (s : State) (h : Share) (f : XferFault) : State :=
  if h.src = s.modId then
    match s.emb.looks.find? (fun l => l.tag == h.tag) with
    | some l => s.failLook l f
    | none => s.dropShares h.src h.st h.tag
  else (s.tellEntry h.feed h.table h.step h.gen h.round { code := 5, count := f.cause.code }).dropShares h.src h.st h.tag

/-! ### The root (R203 step 8, R209-R211, R411) -/

/-- One output bag's bytes (R69, R71, R210): +0 beyond VALID and for an empty bag. -/
def Look.bagBytes (l : Look) (bag : Nat) : List Byte :=
  let a := if l.mode = 2 then exactAnchor l.desc else poolAnchor l.desc l.round
  let n := Table.get 0 l.occ bag
  match fpFmtOf l.fmto with
  | none => []
  | some f =>
    let codes := (List.range (tdD l.desc)).map (fun e =>
      if l.valid ≤ bag ∨ n = 0 then 0
      else (f.writeOut (Table.get 0 l.slots (slotKey bag e)) (if l.mode = 1 then n else 1) (a - l.osh)).1)
    packRow (fmtWidth l.fmto) codes

/-- Whether every bag's check slot agrees with its element slots under R409 (R411); in rows mode, whose sums may be wider than the 128 bits
a check value travels in, modulo 2^128 (log 90). -/
def Look.checkOk (l : Look) : Bool :=
  !l.chkBad && l.occ.all (fun b =>
    let sum := (List.range (tdD l.desc)).foldl (fun a e => a + Table.get 0 l.slots (slotKey b.1 e)) 0
    let diff := sum - Table.get 0 l.slots (slotKey b.1 (tdD l.desc))
    if l.mode = 2 then diff % 2 ^ 128 == 0 else decide (diff.natAbs ≤ (if l.trunc then l.pairs * (tdD l.desc + 1) else 0)))

/-- The output of a request becomes a transfer to OUT whose bytes are all at hand (R203 step 9). -/
def State.writeLook (s : State) (l : Look) : State :=
  let w := tdD l.desc * fmtWidth l.fmto / 8
  let x : Xfer :=
    { id := s.mem.nextXfer, light := false, pos := l.pos, xu := some (144 + l.st), ref := l.ref, src := .spm 0, dst := .dva l.out,
      rows := l.plan, rlen := w, sstr := w, dstr := l.ostride, cnt := l.cnt, cen := l.cen, sclass := l.sclass, released := true }
  let bytes := (List.range l.plan).flatMap l.bagBytes
  let got := (List.range x.units).flatMap (fun k => (x.srcRuns k).map (fun r => (r.1, (bytes.drop r.1).take r.2)))
  ((s.modEmb (fun e => { e with looks := e.looks.filter (fun y => y.tag != l.tag) })).dropShares s.modId l.st l.tag).startXfer { x with got := got }

/-- Every home has reported: the root judges, replays, checks and writes out (R209, R411). -/
def State.judgeLook (s : State) (tag : Nat) : State :=
  match s.emb.looks.find? (fun l => l.tag == tag) with
  | none => s
  | some l =>
    if l.waiting ≠ [] then s
    else if l.trigger || (l.mode != 2 && l.slots.any (fun v => v.1 % 4096 != tdD l.desc && outOfWindow v.2)) then
      if tdPrmax l.desc ≤ l.round ∨ 383 < poolAnchor l.desc (l.round + 1) then s.failLook l { cause := .replayExhausted }
      else
        let l1 := { l with round := l.round + 1, slots := [], occ := [], pairs := 0, trunc := false, trigger := false, chkBad := false,
                           waiting := l.homes, parts := [], dones := [] }
        let s1 := s.modEmb (fun e =>
          { e with looks := e.looks.map (fun x => if x.tag = tag then l1 else x),
                   shares := e.shares.map (fun h => if h.same s.modId l.st tag then
                     { h with round := l1.round, left := h.rows, slots := [], occ := [], pairs := 0, trunc := false, trigger := false,
                              chkBad := false, pooled := false } else h) })
        let s2 := (s1.modCmd l.ref (fun d => { d with prepl := min (d.prepl + 1) 15 })).recordReason l.ref 0x01
        (l.homes.filter (fun h => decide (256 ≤ h))).foldl
          (fun x h => x.embCtl (.emb tag) (h - 256) l.table l.st tag l.ref l.step l.gen l1.round { code := 3 }) s2
    else if l.checkOk then s.writeLook l
    else s.failLook l { cause := .checksum }

/-- A home's partials enter the root's slots (R209). -/
def Look.take (l : Look) (h : Share) : Look :=
  { l with slots := h.slots.foldl (fun t v => Table.modify 0 t v.1 (fun x => x + v.2)) l.slots,
           occ := h.occ.foldl (fun t v => Table.modify 0 t v.1 (fun x => x + v.2)) l.occ, pairs := l.pairs + h.pairs,
           trunc := l.trunc || h.trunc, trigger := l.trigger || h.trigger, chkBad := l.chkBad || h.chkBad,
           waiting := l.waiting.erase h.home }

/-- Value `j` of a bag as a partial carries it (R59): in rows mode the element's code, which is exact in every format (R210; log 90). -/
def Share.partValue (h : Share) (bag j : Nat) : Nat :=
  let v := Table.get 0 h.slots (slotKey bag j)
  match h.exact && decide (j < tdD h.desc), fpFmtOf (tdFmt h.desc) with
  | true, some f => (f.writeOut v 1 (h.anchor - ((tdTsc h.desc : Int) - 127))).1
  | _, _ => (v % 2 ^ 128).toNat

/-- Send a finished share's bags to the entry EMB of another module (R203 step 7, R355, R411): up to 256 values a packet, the check slot
after the last element. -/
def State.sendParts (s : State) (h : Share) : State :=
  h.occ.foldl (fun x b =>
    (List.range (cdiv (tdD h.desc + 1) 256)).foldl (fun y i =>
      let n := min 256 (tdD h.desc + 1 - 256 * i)
      y.sendRequest { op := 0x11, dst := h.src, w1 := embWord1 h.table h.st h.tag, w6 := b.1 * 2 ^ 44 + 256 * i * 2 ^ 33 + b.2,
                      cmdref := h.ref, step := h.step, gen := h.gen, round := h.round,
                      payload := (List.range n).flatMap (fun j => leBytes 16 (h.partValue b.1 (256 * i + j))) } (.embHome h.src h.st h.tag)) x) s

/-- A share has fetched its last row of the round: it reports to the root. The STEP of DONE is the step whose values the home served (R212). -/
def State.reportShare (s : State) (h : Share) : State :=
  let s1 := s.modEmb (fun e => { e with shares := e.shares.map (fun x => if x.same h.src h.st h.tag && x.home == h.home then { h with pooled := true } else x) })
  if h.src = s.modId then
    (s1.modEmb (fun e => { e with looks := e.looks.map (fun l => if l.tag = h.tag then l.take h else l) })).judgeLook h.tag
  else
    let s2 := s1.sendParts h
    let mine := s2.emb.shares.filter (fun x => x.same h.src h.st h.tag)
    if mine.all (fun x => x.pooled) then
      s2.tellEntry h.feed h.table h.eff h.gen h.round { code := 2, ptrig := mine.any (fun x => x.trigger) }
    else s2

/-! ### Heat and replication (R219-R221) -/

/-- Occurrences of a row are served: heat of its stripe, the hot-row tracker of its home, the replica's count (R219, R220). -/
def State.noteServed (s : State) (table d home row n : Nat) (maxRun : Nat) : State :=
  let key := rowKey table row
  let s1 := s.modEmb (fun e =>
    { e with heatNow := Table.modify 0 e.heatNow (rowKey table (row / tdRps d)) (fun v => v + n),
             repls := e.repls.map (fun r => if r.key = key then { r with count := r.count + n } else r) })
  if !(tdRepl d) || s1.emb.repls.any (fun r => r.key == key) then s1
  else s1.modEmbUnit home (fun u =>
    if u.tracker.any (fun p => p.1 == key) then { u with tracker := u.tracker.map (fun p => if p.1 = key then (p.1, p.2 + n) else p) }
    else if maxRun < s1.obj 0x5F03 2 then u
    else if u.tracker.length < 4096 then { u with tracker := u.tracker ++ [(key, n)] }
    else
      match u.tracker.find? (fun p => u.tracker.all (fun q => decide (p.2 < q.2) || (p.2 == q.2 && decide (p.1 ≤ q.1)))) with
      | some low => { u with tracker := u.tracker.filter (fun p => p.1 != low.1) ++ [(key, n)] }
      | none => u)

/-- As many of a list's rows as fit in `n` bytes, the first of them first. -/
def fitBytes : Nat → List (Nat × Nat) → List (Nat × Nat)
  | _, [] => []
  | n, r :: l => if r.2 ≤ n then r :: fitBytes (n - r.2) l else []

/-- A row fetched from HBM enters the home's row cache, outside its replica region, least recently used first out (R221). -/
def State.cacheRow (s : State) (home key b : Nat) : State :=
  s.modEmbUnit home (fun u => { u with rowCache := fitBytes ((64 - s.obj 0x5F01 2) * 2 ^ 20) ((key, b) :: u.rowCache.filter (fun k => k.1 != key)) })

/-! ### Commands -/

/-- A fault of a request still in its port (R226). -/
def State.failEmbPort (s : State) (r : PortReq) (st : Nat) (f : XferFault) : State := (s.dropPort r.xfer).failEmb st r.ref f

/-- Modules other than this one that some row is routed to. -/
def awayMods (l : List Route) : List Nat :=
  l.foldl (fun a x => match x.home with | .away m => if a.contains m then a else a ++ [m] | _ => a) []

/-- Forward index entries to another module (R202, R355): up to 512 a packet, then SENT with their count. -/
def State.sendIndexes (s : State) (l : Look) (m : Nat) (entries : List (Nat × Nat)) : State :=
  let s1 := (List.range (cdiv entries.length 512)).foldl (fun x i =>
    x.sendRequest { op := 0x10, dst := m, w1 := embWord1 l.table l.st l.tag, cmdref := l.ref, step := l.step, gen := l.gen,
                    payload := ((entries.drop (512 * i)).take 512).flatMap (fun e => leBytes 8 (e.1 + e.2 * 2 ^ 32)) } (.emb l.tag)) s
  s1.embCtl (.emb l.tag) m l.table l.st l.tag l.ref l.step l.gen 0 { code := 1, count := entries.length }

/-- The next request tag of this module's EMBs; bit 31 tells a home that the request is in rows mode (DESIGN CHOICE, log 90). -/
def State.freshTag (s : State) (rows : Bool) : Nat := s.emb.nextTag % 2 ^ 31 + b2n rows * 2 ^ 31

/-- A lookup request whose indices are routed begins (R203 step 4): its shares here, its index entries for other modules. -/
def State.beginLook (s : State) (x : Nat) (l : Look) (shares : List Share) (routes : List Route) (entries : List (Nat × Nat)) : State :=
  let mods := awayMods routes
  let rowsOf (m : Nat) : List (Nat × Nat) := entries.filter (fun e => (routes.find? (fun r => r.row == e.1)).any (fun r => r.home.isAway m))
  let homes := shares.map (fun y => y.home) ++ mods.map (fun m => 256 + m)
  let l1 := { l with homes := homes, waiting := homes, sent := mods.foldl (fun a m => Table.set 0 a m (rowsOf m).length) [] }
  let s1 := (((s.dropPort x).modEmb (fun e => { e with nextTag := e.nextTag + 1, looks := e.looks ++ [l1] })).addShares shares)
  let s2 := if stepCase s.stepNo l.step = .late then s1.markLate l.ref 0x02 else s1
  (mods.foldl (fun y m => y.sendIndexes l1 m (rowsOf m)) s2).judgeLook l.tag

/-- LOOKUP_REQUEST (R203 stages 1 to 4): the whole request of transfer `x` is checked, claims its pool slots (waiting for them), is routed
under the current generation and judged by its step, and its homes begin. -/
def execLookupRequest (t tc x : Nat) (ue : Option Nat) (s : State) : Host.Outcome State Fault Refusal :=
  let s := { s.atB t with cclk := max s.cclk tc }
  if s.stopped then .next s else
  match s.portReq x with
  | none => .next s
  | some r =>
    if 16 ≤ r.port ∨ ¬ r.whole then .next s
    else
      let st := r.port
      let h := lookHdr r.bytes
      let d := s.tdesc h.table
      if ¬ lookLegal r.bytes h then .next (s.failEmbPort r st { cause := .requestFormat })
      else if d = 0 then .next (s.failEmbPort r st { cause := .xlate })
      else if h.ostride * 8 < tdD d * fmtWidth h.fmto ∨ 1048576 < poolClaim d h then .next (s.failEmbPort r st { cause := .requestFormat })
      else if 1048576 < s.poolUsed st + poolClaim d h then .next s
      else
        let gen := s.gen h.table
        match s.routeRows true st h.table d gen ue ((lookEntries h).map (·.1)) [] with
        | (s1, .error f) => .next (s1.failEmbPort r st f)
        | (s1, .ok routes) =>
          let sc := stepCase s1.stepNo r.step
          let tag := s1.freshTag (h.mode == 2)
          let base : Share :=
            { src := s.modId, st := st, tag := tag, home := 0, table := h.table, desc := d, step := r.step,
              eff := if sc = .late then s1.stepNo else r.step, gen := gen, ref := r.ref, exact := h.mode == 2, rows := [], left := [] }
          let shares := shareList base routes (groupRows (lookEntries h))
          if shares.any s1.shareTooBig then .next (s1.failEmbPort r st { cause := .requestFormat })
          else if sc = .ahead then .next (s1.failEmbPort r st { cause := .stepAhead })
          else
            let l : Look :=
              { tag := tag, st := st, pos := r.pos, ref := r.ref, table := h.table, desc := d, step := r.step, gen := gen, mode := h.mode,
                fmto := h.fmto, osh := h.osh, plan := h.plan, valid := h.valid, out := h.out, ostride := h.ostride, cnt := h.cnt,
                cen := h.cen, sclass := h.sclass, claim := poolClaim d h }
            .next (s1.beginLook x l shares routes (lookEntries h))

/-- Whether a share must wait: its step has not opened here, or its next row lies in a closed bank of an earlier step that is not yet applied
(R212, R218, R220). -/
def State.shareWaits (s : State) (h : Share) : Bool :=
  stepCase s.stepNo h.eff == .next ||
  (match h.left with
   | [] => false
   | (row, _) :: _ => (List.range 16).any (fun k => (s.embUnit k).closing.any (fun c =>
       c.1 != h.eff && serialLt c.1 h.eff 32 && c.2.any (fun e => e.1 == rowKey h.table row))))

/-- Whether a row is read from the old copy of a stripe that has moved to another module, which waits for the written-back row (R224). -/
def State.oldCopy (s : State) (table d row : Nat) : Bool :=
  s.emb.migs.any (fun m => m.key == rowKey table (row / tdRps d) && m.dstMod != s.modId && m.switched)

/-- What the error codes find on a row read (R206, R236, R238): from a row cache, it is refetched and counted as corrected. The finding that is
left for the request stands beside. -/
def State.rowFound (s : State) (h : Share) (hst key dpa : Nat) (fnd : RowFinding) : State × RowFinding :=
  let cached := hst != h.home || (s.embUnit hst).rowCache.any (fun r => r.1 == key)
  let rec' (x : State) : State :=
    x.postErr { cls := .memory, sev := .corrected, cause := 0x01, ukind := .hbmStack, unit := h.home, info6 := dpa }
  match fnd, cached with
  | .corrected, true => (rec' s, .ok)
  | .uncorrectable, true => (rec' s, .ok)
  | .corrected, false => (s.noteRead dpa .corrected, .ok)
  | .uncorrectable, false => (s.noteRead dpa .uncorrectable, .uncorrectable)
  | f, _ => (s, f)

/-- The next row of a share, read at a DPA of a stack, is pooled; the last one makes the home report (R204, R206, R208). -/
def State.poolRow (s : State) (h : Share) (row : Nat) (bags : List (Nat × Nat)) (rest : List (Nat × List (Nat × Nat))) (hst dpa : Nat)
    (fnd : RowFinding) : State :=
  match rowVals h.desc (s.mem.dram.readBytes dpa (tdB h.desc)) with
  | none => s.failShare h { cause := .invalidOperand, dpa := dpa }
  | some vals =>
    let h1 := { h.pool vals bags with left := rest, chkBad := h.chkBad || fnd == .checkBad }
    let s1 := s.noteServed h.table h.desc hst row (occOf bags) (occOf bags)
    let s2 := (if hst = h.home then s1.cacheRow hst (rowKey h.table row) (tdB h.desc) else s1).modEmb (fun e =>
      { e with shares := e.shares.map (fun y => if y.same h.src h.st h.tag && y.home == h.home then h1 else y) })
    if rest.isEmpty then s2.reportShare h1 else s2

/-- ROW_FETCH (R204, R206, R208): the next distinct row of a share arrives and is pooled into every bag that uses it. -/
def execRowFetch (t tc src st tag home : Nat) (fnd : RowFinding) (s : State) : Host.Outcome State Fault Refusal :=
  let s := { s.atB t with cclk := max s.cclk tc }
  if s.stopped then .next s else
  match s.emb.shares.find? (fun h => h.same src st tag && h.home == home) with
  | none => .next s
  | some h =>
    match h.left with
    | [] => .next s
    | (row, bags) :: rest =>
      if s.shareWaits h ∨ (fnd = .notBack ∧ s.oldCopy h.table h.desc row) then
        .next (if h.src = s.modId ∧ stepCase s.stepNo h.eff ≠ .next then s.recordReason h.ref 0x03 else s)
      else if s.emb.lost.contains (rowKey h.table (row / tdRps h.desc)) then .next (s.failShare h { cause := .stripeLost })
      else match h.at'.find? (fun r => r.1 == row) with
        | none => .next s
        | some (_, hst, frame) =>
          let dpa := s.frameDpa hst frame (servOff h.desc row)
          let f := s.rowFound h hst (rowKey h.table row) dpa fnd
          if f.2 = .uncorrectable ∨ f.1.isBad dpa then .next (f.1.failShare h (f.1.ueFault 0 dpa))
          else if f.2 = .storeBad then .next (f.1.failShare h { cause := .embStore, dpa := dpa })
          else .next (f.1.poolRow h row bags rest hst dpa f.2)

/-! ### Update requests (R213-R216) -/

/-- Header fields and parts of an update request (R213). -/
structure UpdHdr where
  table : Nat
  anchor : Int
  nrows : Nat
  rsv : Nat
  deriving DecidableEq, Repr

def updHdr (b : List Byte) : UpdHdr :=
  { table := bits (reqWord b 0) 63 52, anchor := signedOf 10 (bits (reqWord b 0) 51 42), nrows := bits (reqWord b 1) 20 0,
    rsv := bits (reqWord b 0) 41 32 + bits (reqWord b 1) 63 21 + reqWord b 2 + reqWord b 3 + reqWord b 4 +
           bits (reqWord b 6) 63 16 + reqWord b 7 }

/-- Byte at which the partial values start (R213). -/
def updVals (n : Nat) : Nat := 64 + cdiv (4 * n) 64 * 64
/-- The partial values of row `i` of a request (R59). -/
def updRow (b : List Byte) (n d i : Nat) : List Int :=
  (List.range d).map (fun j => signedOf 128 (leNat ((b.drop (updVals n + 16 * (i * d + j))).take 16)))

/-- Send one partial row to another module (R355). -/
def State.sendUpdate (s : State) (m table st tag ref step gen row : Nat) (vals : List Int) : State :=
  (List.range (cdiv vals.length 256)).foldl (fun x i =>
    x.sendRequest { op := 0x12, dst := m, w1 := embWord1 table st tag, w6 := row * 2 ^ 32 + 256 * i * 2 ^ 21, cmdref := ref, step := step, gen := gen,
                    payload := ((vals.drop (256 * i)).take 256).flatMap (fun v => leBytes 16 (v % 2 ^ 128).toNat) } (.emb tag)) s

/-- One partial row of an update request of this module goes to its home (R214, R216); rows of a request that has failed go nowhere. -/
def State.routePartial (s : State) (u : Upd) (table gen : Nat) (routes : List Route) (bad next : Bool) (row : Nat) (vals : List Int) : State :=
  if s.emb.upds.any (fun v => v.tag == u.tag) then
    match (routes.find? (fun r => r.row == row)).map Route.home with
    | some (.here k _) => s.combine k { feed := ⟨s.modId, u.st, u.tag, u.ref⟩, key := rowKey table row, vals := vals, chkBad := bad } next
    | some (.away m) => s.sendUpdate m table u.st u.tag u.ref u.step gen row vals
    | _ => s
  else s

/-- The homes of an update request's rows, with the number of rows at each. -/
def homeCounts (routes : List Route) (rows : List Nat) : Table Nat :=
  rows.foldl (fun a y => match (routes.find? (fun r => r.row == y)).map Route.home with
    | some (.here k _) => Table.modify 0 a k (fun n => n + 1)
    | some (.away m) => Table.modify 0 a (256 + m) (fun n => n + 1)
    | _ => a) []

/-- An update request whose rows are routed: its partial rows are combined or forwarded (R214, R216). -/
def State.beginUpd (s : State) (r : PortReq) (h : UpdHdr) (d gen : Nat) (routes : List Route) (rows : List Nat) (fnd : RowFinding) : State :=
  let next := stepCase s.stepNo r.step == .next
  let u : Upd := { tag := s.freshTag false, st := r.port - 16, pos := r.pos, ref := r.ref, xfer := r.xfer, step := r.step, left := h.nrows,
                   homes := homeCounts routes rows }
  let s1 := (s.dropPort r.xfer).modEmb (fun e => { e with nextTag := e.nextTag + 1, upds := e.upds ++ [u] })
  let s2 := (rows.zipIdx).foldl (fun y ri =>
    y.routePartial u h.table gen routes (fnd == .checkBad) next ri.1 (updRow r.bytes h.nrows (tdD d) ri.2)) s1
  match fnd, routes.findSome? (fun x => match x.home with | .here k _ => some (k, x.row) | _ => none) with
  | .storeBad, some (k, row) => s2.loseEntry k (rowKey h.table row) next
  | _, _ => s2

/-- UPDATE_REQUEST (R213-R216): the whole request of transfer `x` is checked, routed, judged by its step, and its partial rows are combined
or forwarded. `fnd` may be an error striking the combining check lane, or the entry of its first row here. -/
def execUpdateRequest (t tc x : Nat) (fnd : RowFinding) (ue : Option Nat) (s : State) : Host.Outcome State Fault Refusal :=
  let s := { s.atB t with cclk := max s.cclk tc }
  if s.stopped then .next s else
  match s.portReq x with
  | none => .next s
  | some r =>
    if r.port < 16 ∨ 32 ≤ r.port ∨ ¬ r.whole then .next s
    else
      let st := r.port - 16
      let h := updHdr r.bytes
      let d := s.tdesc h.table
      if r.bytes.length < 64 ∨ h.rsv ≠ 0 then .next (s.failEmbPort r st { cause := .requestFormat })
      else if d = 0 then .next (s.failEmbPort r st { cause := .xlate })
      else if h.nrows = 0 ∨ 2 ^ 20 < h.nrows ∨ r.bytes.length ≠ updVals h.nrows + 16 * h.nrows * tdD d ∨ ¬ tdTrain d ∨ h.anchor ≠ tdUanchor d then
        .next (s.failEmbPort r st { cause := .requestFormat })
      else
        let gen := s.gen h.table
        let rows := words32 ((r.bytes.drop 64).take (4 * h.nrows))
        match s.routeRows false st h.table d gen ue rows [] with
        | (s1, .error f) => .next (s1.failEmbPort r st f)
        | (s1, .ok routes) =>
          if stepCase s1.stepNo r.step = .ahead then .next (s1.failEmbPort r st { cause := .stepAhead })
          else .next (s1.beginUpd r h d gen routes rows fnd)

end Sys2Proof.Machine
end

