-- ==== Sys2Proof/Machine/Slots.lean ====
section
/-!
DEFINITION. The slot table in force (10_fixture_cadence.md R276-R278), the repair work that the management controller places in its reserved
slots (17_selftest_repair.md R481), and what a smaller capacity does to placed work (R290).
-/
namespace Sys2Proof.Machine

/-- A slot entry in force (R277). -/
def State.aslot (s : State) (k : Nat) : Nat := s.obj 0x4200 k
/-- Fields of a slot entry (R277). -/
def slotOwner (e p : Nat) : Nat := bits e (8 * p + 3) (8 * p)
def slotFill (e p : Nat) : Nat := bits e (8 * p + 7) (8 * p + 4)
def slotRsv (e : Nat) : Bool := bitAt e 1152
/-- The entry of an absolute slot. -/
def State.entryOf (s : State) (n : Nat) : Nat := s.aslot (n % s.nslots)

/-- Whether the current slot is a reserved test and repair slot (R277, R278). -/
def State.inRsv (s : State) : Bool := s.fix.lastEdge.isSome && slotRsv (s.entryOf s.absSlot)

/-- The number that stands for lane `l` of port `n` among what repair work touches; positions stand for themselves. -/
def laneTouch (n l : Nat) : Nat := 256 + 16 * n + l

/-- The order of R481. -/
def RepairKind.rank : RepairKind → Nat
  | .hardLoss => 0 | .benchCopy => 1 | .mapoutCopy => 2 | .crossCheck => 3 | .laneRetrain => 4 | .unitTest => 5

/-- Whether two works touch nothing in common. -/
def apart (a b : List Nat) : Bool := a.all (fun x => !(b.contains x))

/-- Whether a lane trains in repair slots (R337, R346): a FAILED lane asked to, or a lane of a port that went DOWN. -/
def Port.trains (p : Port) (l : Lane) : Bool := (l.rx == .train || l.tx == .train) && (l.retrain || p.repair)

/-- Whether no placement of the ledger that has yet to end lies on a position. -/
def State.posClear (s : State) (pos : Nat) : Bool :=
  s.fix.ledger.all (fun p => !(p.positions.contains pos) || decide (p.first + p.slots ≤ s.absSlot))
/-- Whether a core has no task, running or on deck. -/
def Core.vacant (c : Core) : Bool := c.task.isNone && c.ondeck.isNone
/-- The conditions under which the copy begins (R474). -/
def State.copyMay (s : State) (c : Nat) : Bool :=
  let k := s.core c
  s.posClear (s.posOf c) && k.vacant && !(s.mem.xfers.any (fun x => x.pos == c && x.xu.isNone)) &&
  k.mxaOpen.isNone && k.mvpOpen.isNone && k.mxaDone.all (fun o => o.judged) && k.mvpDone.all (fun o => o.judged)

/-- Whether a bench's copy has begun (R475 step 3): its conditions were met. -/
def State.copyBegun (s : State) (b : Bench) : Bool := b.copying || (b.sub.isSome && s.copyMay b.core)

/-- Repair work that waits for a slot, and what it touches. -/
def State.waitingRepairs (s : State) : List (RepairKind × List Nat) :=
  s.repair.lost.map (fun c => (.hardLoss, [c])) ++
  (match s.repair.bench with
   | some b => if s.copyBegun b && !b.copied then [(.benchCopy, b.core :: b.sub.toList)] else []
   | none => []) ++
  s.err.xcDue.map (fun c => (.crossCheck, [c])) ++
  s.links.ports.flatMap (fun p => (p.2.lanes.zipIdx).filterMap (fun l =>
    if p.2.trains l.1 then some (.laneRetrain, [laneTouch p.1 l.2]) else none))

/-- Whether no placement of the ledger covers what a work touches in the current slot. -/
def State.slotFree (s : State) (touch : List Nat) : Bool :=
  touch.all (fun c => decide (144 ≤ c) || s.fix.ledger.all (fun p =>
    !(p.positions.contains (s.posOf c)) || decide (s.absSlot < p.first) || decide (p.first + p.slots ≤ s.absSlot)))

/-- Whether repair work may run in the current slot (R278, R481): a reserved slot, free on what it touches, where nothing placed in the slot,
and nothing earlier in the order that waits, touches the same position or lane; work already placed goes on. -/
def State.mayRepair (s : State) (k : RepairKind) (touch : List Nat) : Bool :=
  s.fix.repairs.contains ⟨s.absSlot, k, touch⟩ ||
  (s.inRsv && s.slotFree touch &&
   s.fix.repairs.all (fun w => w.slot != s.absSlot || apart w.touch touch) &&
   s.waitingRepairs.all (fun w => decide (k.rank ≤ w.1.rank) || apart w.2 touch))

/-- Place repair work in the current slot: a TEST or REPAIR placement on the positions it touches (R278). -/
def State.placeRepair (s : State) (k : RepairKind) (touch : List Nat) : State :=
  let pos := (touch.filter (fun c => decide (c < 144))).map s.posOf
  let run : Placement := { cls := if k = .crossCheck then .test else .repair, first := s.absSlot, slots := 1, positions := pos, released := true }
  if s.fix.repairs.contains ⟨s.absSlot, k, touch⟩ then s
  else s.modFix (fun f => { f with repairs := f.repairs.filter (fun w => w.slot == s.absSlot) ++ [⟨s.absSlot, k, touch⟩],
                                   ledger := if pos = [] then f.ledger else f.ledger ++ [run] })

/-! ### Capacity lost under placed work (R290) -/

/-- Whether a placement covers a slot. -/
def Placement.at' (p : Placement) (n : Nat) : Bool := decide (p.first ≤ n) && decide (n < p.first + p.slots)
/-- Sum of a per-slot charge over the placements that cover a slot. -/
def usedAt (l : List Placement) (n : Nat) (f : Placement → Nat) : Nat := ((l.filter (fun p => p.at' n)).map f).foldl (· + ·) 0

/-- Placed work that a smaller capacity slows (R290, R292): each command with a charge in a slot to come whose charges exceed it records
CAPACITY_LOSS. -/
def State.slowed (s : State) (use : Placement → Nat) (room : Nat) : State :=
  let tooMuch (p : Placement) : Bool := use p != 0 &&
    (List.range p.slots).any (fun i => decide (s.absSlot ≤ p.first + i) && decide (room < usedAt s.fix.ledger (p.first + i) use))
  (s.cfe.cmds.filter (fun c => s.fix.ledger.any (fun p => p.q == c.q && p.cseq == c.cseq && tooMuch p))).foldl (fun x c => x.recordReason c.ref 0x0B) s

/-- Work slowed by the charged capacity of a port (R340). -/
def State.slowedPort (s : State) (n charged : Nat) : State :=
  s.slowed (fun p => if bitAt p.ports n then p.farast * 1000 else 0) (s.slotns * charged)

end Sys2Proof.Machine
end

