-- ==== Sys2Proof/Machine/EmbRemote.lean ====
section
/-!
DEFINITION. Embedding traffic between modules (12_farast_links.md R355), moves of stripes (07_embedding_engine.md R222-R224), home map
commits (R197), heat and replication at an edge (R219, R220), and the effects of writes to the objects of R227.
-/
namespace Sys2Proof.Machine

/-! ### Reception -/

/-- Whether a command of opcode `op` brings a packet: one of that opcode, or one whose opcode is reserved, which reception drops (R345). -/
def brings (k : Packet) (op : Nat) : Bool := k.op == op || vcOf k.op == none

/-- A Farast request with an opcode is received (R345, R351), applied by `f`, which answers an EACK case, and acknowledged. -/
def farRecv (t tc n : Nat) (k : Packet) (op : Nat) (f : State → State × Nat) (s : State) : Host.Outcome State Fault Refusal :=
  let s := { s.atB t with cclk := max s.cclk tc }
  if ¬ brings k op then .next s
  else match s.recvRequest n k with
    | .drop x => .next x
    | .apply x =>
      let r := f x
      .next (r.1.answer k r.2)

/-- Fields of embedding packets (R353). -/
def ekTable (k : Packet) : Nat := bits (k.word 1) 63 52
def ekStack (k : Packet) : Nat := bits (k.word 1) 51 48
def ekTag (k : Packet) : Nat := bits (k.word 1) 31 0
def ekCode (k : Packet) : Nat := bits (k.word 6) 63 60
def ekCount (k : Packet) : Nat := bits (k.word 6) 31 0

/-- Whether an inbound record or share belongs to a packet. -/
def Inbound.isOf (x : Inbound) (k : Packet) : Bool := x.src == k.src && x.st == ekStack k && x.tag == ekTag k

/-- The inbound record of a packet, made at its first arrival. -/
def State.inboundOf (s : State) (k : Packet) : Inbound :=
  match s.emb.inbound.find? (fun x => x.isOf k) with
  | some x => x
  | none => { src := k.src, st := ekStack k, tag := ekTag k, table := ekTable k, step := k.step, gen := k.gen, ref := k.cmdref }

/-- A remote home holds COUNT entries: it routes them by its own home map under the packets' generation (R198, R355) and begins. Bit 31 of the
tag says rows mode (log 90). -/
def State.startInbound (s : State) (x : Inbound) : State :=
  let fail (y : State) (c : Cause) : State := y.tellEntry ⟨x.src, x.st, x.tag, x.ref⟩ x.table x.step x.gen 0 { code := 5, count := c.code }
  let s1 := s.modEmb (fun e => { e with inbound := e.inbound.filter (fun y => !(y.src == x.src && y.st == x.st && y.tag == x.tag)) })
  let d := s1.tdesc x.table
  if d = 0 then fail s1 .xlate
  else match s1.routeRows true x.st x.table d x.gen none (x.entries.map (·.1)) [] with
    | (s2, .error f) => fail s2 f.cause
    | (s2, .ok routes) =>
      let sc := stepCase s2.stepNo x.step
      let base : Share :=
        { src := x.src, st := x.st, tag := x.tag, home := 0, table := x.table, desc := d, step := x.step,
          eff := if sc = .late then s2.stepNo else x.step, gen := x.gen, ref := x.ref, exact := bitAt x.tag 31, rows := [], left := [] }
      let shares := shareList base routes (groupRows x.entries)
      if awayMods routes ≠ [] then fail s2 .xlate
      else if shares.any s2.shareTooBig then fail s2 .requestFormat
      else if sc = .ahead then fail s2 .stepAhead
      else (s2.modEmb (fun e => { e with shares := e.shares.filter (fun h => !(h.same x.src x.st x.tag)) })).addShares shares

/-- An inbound record changes; it starts once its entries are as many as SENT said. -/
def State.putInbound (s : State) (x : Inbound) : State :=
  let s1 := s.modEmb (fun e =>
    { e with inbound := e.inbound.filter (fun y => !(y.src == x.src && y.st == x.st && y.tag == x.tag)) ++ [x] })
  if x.count = some x.entries.length then s1.startInbound x else s1

/-- 8-byte index entries of a payload (R353). -/
def idxEntries (bs : List Byte) : List (Nat × Nat) :=
  (List.range (bs.length / 8)).map (fun i => let v := leNat ((bs.drop (8 * i)).take 8); (bits v 31 0, bits v 51 32))
/-- 16-byte values of a payload (R353, R59). -/
def vals16 (bs : List Byte) : List Int := (List.range (bs.length / 16)).map (fun i => signedOf 128 (leNat ((bs.drop (16 * i)).take 16)))

/-- EMB_IDX (R355). -/
def execEmbIdx (t tc n : Nat) (k : Packet) (s : State) : Host.Outcome State Fault Refusal :=
  farRecv t tc n k 0x10 (fun x =>
    let i := x.inboundOf k
    (x.putInbound { i with entries := i.entries ++ idxEntries k.payload }, 0)) s

/-- An EMB_CTL packet with a code. -/
def ctlRow (t tc n : Nat) (k : Packet) (code : Nat) (f : State → State) (s : State) : Host.Outcome State Fault Refusal :=
  if k.op = 0x13 ∧ ekCode k ≠ code then .next { s.atB t with cclk := max s.cclk tc } else farRecv t tc n k 0x13 (fun x => (f x, 0)) s

/-- EMB_CTL_SENT (R355). -/
def execEmbCtlSent (t tc n : Nat) (k : Packet) (s : State) : Host.Outcome State Fault Refusal :=
  ctlRow t tc n k 1 (fun x => x.putInbound { x.inboundOf k with count := some (ekCount k) }) s

/-- The lookup an answer names: its round must be the lookup's (R355). -/
def State.lookOf (s : State) (k : Packet) : Option Look :=
  s.emb.looks.find? (fun l => l.tag == ekTag k && l.st == ekStack k && l.waiting.contains (256 + k.src) && k.round == l.round % 16)

/-- Change a lookup. -/
def State.setLook (s : State) (l : Look) : State := s.modEmb (fun e => { e with looks := e.looks.map (fun y => if y.tag = l.tag then l else y) })

/-- Whether another module has reported: its DONE has come, and its partials account for every index entry forwarded to it, in every chunk
of 256 values (R347, R355: packets arrive in any order; DEDUCED, log 110). -/
def Look.reported (l : Look) (m : Nat) : Bool :=
  l.dones.contains m && (List.range (cdiv (tdD l.desc + 1) 256)).all (fun i => Table.get 0 l.parts (16 * m + i) == Table.get 0 l.sent m)

/-- A lookup's packet from a module has been taken; once the module has reported the root may judge (R209). -/
def State.takePart (s : State) (l : Look) (m : Nat) : State :=
  if l.reported m then (s.setLook { l with waiting := l.waiting.erase (256 + m) }).judgeLook l.tag else s.setLook l

/-- Value `j` of a bag as it enters the root's slots: in rows mode an element's code stands for its exact value (R210; log 90). -/
def Look.partValue (l : Look) (j : Nat) (v : Int) : Int :=
  if l.mode = 2 ∧ j < tdD l.desc then
    match elemValue (tdFmt l.desc) ((v % 2 ^ 32).toNat) with
    | some x => ((x.scale2 ((tdTsc l.desc : Int) - 127)).trunc (exactAnchor l.desc)).1
    | none => 0
  else v

/-- EMB_PART (R209, R355): partials of one bag enter the root's slots. -/
def execEmbPart (t tc n : Nat) (k : Packet) (s : State) : Host.Outcome State Fault Refusal :=
  farRecv t tc n k 0x11 (fun x =>
    match x.lookOf k with
    | none => (x, 0)
    | some l =>
      let bag := bits (k.word 6) 63 44
      let e0 := bits (k.word 6) 43 33
      let occ := bits (k.word 6) 24 0
      let l1 := { l with slots := ((vals16 k.payload).zipIdx).foldl (fun a v =>
                           Table.modify 0 a (slotKey bag (e0 + v.2)) (fun y => y + l.partValue (e0 + v.2) v.1)) l.slots,
                         occ := if e0 = 0 then Table.modify 0 l.occ bag (fun y => y + occ) else l.occ,
                         pairs := if e0 = 0 then l.pairs + occ else l.pairs, trunc := true,
                         parts := Table.modify 0 l.parts (16 * k.src + e0 / 256) (fun y => y + occ) }
      (x.takePart l1 k.src, 0)) s

/-- EMB_CTL_DONE (R209, R212, R355): a home's report; served at a later step than the stamp, the command is LATE. -/
def execEmbCtlDone (t tc n : Nat) (k : Packet) (s : State) : Host.Outcome State Fault Refusal :=
  ctlRow t tc n k 2 (fun x =>
    match x.lookOf k with
    | none => x
    | some l =>
      let x1 := if stepCase k.step l.step = .late then x.markLate l.ref 0x02 else x
      x1.takePart { l with trigger := l.trigger || bitAt (k.word 6) 59, dones := l.dones ++ [k.src] } k.src) s

/-- A home's DONE has been answered: its share delays no apply from now on, but for a replay (R212; DESIGN CHOICE, log 111). -/
def State.endShares (s : State) (src st tag : Nat) : State :=
  (List.range 16).foldl (fun x h => x.tryApply [] h)
    (s.modEmb (fun e => { e with shares := e.shares.map (fun h => if h.same src st tag && h.pooled then { h with ended := true } else h) }))

/-- Whether the bank of a step is still to be applied here. -/
def State.bankOpen (s : State) (e : Nat) : Bool :=
  stepCase s.stepNo e != .late || (List.range 16).any (fun k => (s.embUnit k).closing.any (fun c => c.1 == e))

/-- EMB_CTL_REPLAY (R209, R355): the home re-runs its shares at the next ROUND; rows of a step already applied give their current values, and DONE
says so. -/
def execEmbCtlReplay (t tc n : Nat) (k : Packet) (s : State) : Host.Outcome State Fault Refusal :=
  ctlRow t tc n k 3 (fun x => x.modEmb (fun e =>
    { e with shares := e.shares.map (fun h =>
        if h.same k.src (ekStack k) (ekTag k) && decide (h.round < k.round) then
          { h with round := k.round, left := h.rows, slots := [], occ := [], pairs := 0, trunc := false, trigger := false, chkBad := false,
                   pooled := false, ended := false, eff := if x.bankOpen h.eff then h.eff else x.stepNo }
        else h) })) s

/-- A relay ends; what its new home said is passed on. -/
def State.endRelay (s : State) (r : Relay) : State := s.modEmb (fun e => { e with relays := e.relays.filter (fun y => y.tag != r.tag) })

/-- EMB_CTL_COMBINED (R214-R216): a remote home whose open step is STEP has combined COUNT partial rows; one that a relay sent is passed on. -/
def execEmbCtlCombined (t tc n : Nat) (k : Packet) (s : State) : Host.Outcome State Fault Refusal :=
  ctlRow t tc n k 4 (fun x =>
    let waited := bitAt (k.word 6) 59
    match x.emb.relays.find? (fun r => r.tag == ekTag k) with
    | some r => (x.endRelay r).ackPartial { r.part with waited := waited } r.home k.step
    | none => x.noteCombined (ekTag k) (256 + k.src) (ekCount k) k.step waited) s

/-- A request of an embedding tag fails: a lookup, an update, or a partial forwarded for another (R225, R226, R354). -/
def State.failTag (s : State) (tag : Nat) (c : Cause) : State :=
  match s.emb.relays.find? (fun r => r.tag == tag) with
  | some r => (s.endRelay r).failPartial r.part r.home { cause := c }
  | none =>
    match s.emb.looks.find? (fun l => l.tag == tag) with
    | some l => s.failLook l { cause := c }
    | none =>
      match s.emb.upds.find? (fun u => u.tag == tag) with
      | some u => (s.modEmb (fun e => { e with upds := e.upds.filter (fun y => y.tag != tag) })).failEmb u.st u.ref { cause := c }
      | none => s

/-- EMB_CTL_FAULT (R226): the request of its tag faults; the cause is the packet's COUNT where that is a code of R397. -/
def execEmbCtlFault (t tc n : Nat) (k : Packet) (s : State) : Host.Outcome State Fault Refusal :=
  ctlRow t tc n k 5 (fun x => x.failTag (ekTag k) ((Cause.ofCode (ekCount k)).getD .requestFormat)) s

/-- What a home sent to an entry EMB was not answered: the request's part here fails (R225). -/
def State.failHome (s : State) (src st tag : Nat) (c : Cause) : State :=
  match s.emb.shares.find? (fun h => h.same src st tag) with
  | some h => s.failShare h { cause := c }
  | none => s

/-- Forward a partial row to the stripe's new home on another module (R224). -/
def State.relayPartial (s : State) (m home step : Nat) (p : Partial) : State :=
  let tag := s.freshTag false
  let table := p.key / 2 ^ 32
  (s.modEmb (fun e => { e with nextTag := e.nextTag + 1, relays := e.relays ++ [⟨tag, home, p⟩] })).sendUpdate m table p.feed.st tag p.feed.ref step
    (s.gen table) (p.key % 2 ^ 32) p.vals

/-- A whole partial row has arrived (R198, R214, R224, R226): combined here, forwarded to its new home, or refused. -/
def State.arriveUpdate (s : State) (p : Partial) (step : Nat) (fnd : RowFinding) : State :=
  let table := p.key / 2 ^ 32
  let row := p.key % 2 ^ 32
  let d := s.tdesc table
  if d = 0 then s.failPartial p 0 { cause := .xlate }
  else if ¬ tdTrain d ∨ tdRows d ≤ row then s.failPartial p 0 { cause := .requestFormat }
  else match s.stripeHome p.feed.st table d (s.gen table) (row / tdRps d) none with
    | (s1, .here h _) =>
      let next := stepCase s1.stepNo step == .next
      if stepCase s1.stepNo step = .ahead then s1.failPartial p h { cause := .stepAhead }
      else if fnd = .storeBad then (s1.combine h p next).loseEntry h p.key next
      else s1.combine h p next
    | (s1, .away m) => s1.relayPartial m p.feed.st step p
    | (s1, .bad f) => s1.failPartial p 0 f
    | (s1, .lost) => s1.failPartial p 0 { cause := .stripeLost }

/-- Whether a packet is one of those whose partial row is still to be combined: it is answered then (R350). -/
def State.updPending (s : State) (k : Packet) : Bool :=
  let here (l : List Packet) : Bool := l.any (fun q => q.src == k.src && q.eseq == k.eseq)
  s.emb.pieces.any (fun p => here p.acks) || s.emb.relays.any (fun r => here r.part.acks) ||
  s.emb.units.any (fun u => u.2.defer.any (fun p => here p.acks))

/-- A piece of a partial row arrives; with its last piece the row is combined (R355). -/
def State.takePiece (s : State) (k : Packet) (fnd : RowFinding) : State :=
  let row := bits (k.word 6) 63 32
  let e0 := bits (k.word 6) 31 21
  let d := s.tdesc (ekTable k)
  let mine (p : Pieces) : Bool := p.src == k.src && p.st == ekStack k && p.tag == ekTag k && p.row == row && !(p.parts.any (fun y => y.1 == e0))
  let p0 : Pieces := (s.emb.pieces.find? mine).getD { src := k.src, st := ekStack k, tag := ekTag k, row := row }
  let p1 := { p0 with parts := p0.parts ++ [(e0, vals16 k.payload)], acks := p0.acks ++ [k] }
  let rest := s.emb.pieces.erase p0
  if d = 0 ∨ tdD d ≤ (p1.parts.map (fun y => y.2.length)).foldl (· + ·) 0 then
    let vals := (List.range (cdiv (tdD d) 256)).flatMap (fun i => match p1.parts.find? (fun y => y.1 == 256 * i) with | some y => y.2 | none => [])
    (s.modEmb (fun e => { e with pieces := rest })).arriveUpdate
      { feed := ⟨k.src, ekStack k, ekTag k, k.cmdref⟩, key := rowKey (ekTable k) row, vals := vals, chkBad := fnd == .checkBad, acks := p1.acks } k.step fnd
  else s.modEmb (fun e => { e with pieces := rest ++ [p1] })

/-- EMB_UPD (R350, R355): up to 256 partials of a row. The packets of a row are answered once it is combined, or refused. -/
def execEmbUpd (t tc n : Nat) (k : Packet) (fnd : RowFinding) (s : State) : Host.Outcome State Fault Refusal :=
  let s := { s.atB t with cclk := max s.cclk tc }
  if ¬ brings k 0x12 then .next s
  else match s.recvRequest n k with
    | .drop x => .next x
    | .apply x => .next (if x.updPending k then x else x.takePiece k fnd)

/-! ### Moves of stripes (R222-R224) -/

/-- Frames in use on a stack: those of valid entries of every table's active map, and of moves. -/
def State.usedFrames (s : State) (st : Nat) : List (Nat × Nat) :=
  (List.range 3840).flatMap (fun t =>
    let d := s.tdesc t
    if d = 0 then []
    else (List.range (tdStripes d)).filterMap (fun i =>
      match (s.readHome st d (s.gen t % 2) i none).2 with
      | .ok e => if bitAt e 47 && bits e 39 32 == s.modId && bits e 31 28 == st then some (bits e 19 0, 1 + tdK d) else none
      | .error _ => none)) ++
  s.emb.migs.flatMap (fun m => let n := 1 + tdK (s.tdesc (m.key / 2 ^ 32))
    (if m.srcSt = st then [(m.srcFrame, n)] else []) ++ (if m.dstMod = s.modId ∧ m.dstSt = st ∧ m.st ≠ .waiting then [(m.dstFrame, n)] else [])) ++
  s.emb.migIns.filterMap (fun m => if m.st = st then some (m.frame, 1 + tdK (s.tdesc (m.key / 2 ^ 32))) else none)

/-- A free run of 1 + k frames of a stack below byte `hi`: the choice among them is free (R224, R227). -/
def State.freeFrame (s : State) (st d hi : Nat) : Option Nat :=
  let used := s.usedFrames st
  let n := 1 + tdK d
  let l := (List.range (s.areaHi st / 65536)).filter (fun f =>
    s.framesOk st d f && decide ((f + n) * 65536 ≤ hi) && used.all (fun u => decide (f + n ≤ u.1) || decide (u.1 + u.2 ≤ f)))
  if l.isEmpty then none else l[Config.frameChoice s.free % l.length]?

/-- Stacks in the order a move tries them: the one asked for; for an automatic move the same stack, then the lowest-numbered (R222); where
the EMB chooses, a free choice of the first. -/
def migStacks (free : Nat) (asked src : Nat) (auto : Bool) : List Nat :=
  if auto then src :: List.range 16
  else if asked < 16 then [asked]
  else (List.range 16).map (fun i => (Config.frameChoice (free + 1) + i) % 16)

/-- The highest byte that displaced stripes may use on a stack whose channel is being mapped out (R233). -/
def State.moveHi (s : State) (st : Nat) : Nat :=
  let k := s.stack st
  (32 - k.m - (if k.mo = .drain ∨ k.mo = .copy then 1 else 0)) * 2 ^ 31

/-- Change a move; the last request's status follows it. -/
def State.setMig (s : State) (m : Mig) : State := s.modEmb (fun e => { e with migs := e.migs.map (fun x => if x.key = m.key then m else x) })
/-- End a move with a status. -/
def State.endMig (s : State) (key : Nat) (st : MigSt) : State :=
  s.modEmb (fun e => { e with migs := e.migs.filter (fun x => x.key != key), migLast := if e.migKey = some key then st else e.migLast })

/-- A move within the module takes its destination frames and enters COPY, or waits for free frames; one to another module enters COPY, its
target choosing the frames (R222, R224). -/
def State.placeMig (s : State) (m : Mig) : State :=
  let d := s.tdesc (m.key / 2 ^ 32)
  if m.dstMod = s.modId then
    match (migStacks s.free m.asked m.srcSt m.auto).findSome? (fun st => (s.freeFrame st d (s.moveHi st)).map (fun f => (st, f))) with
    | some (st, f) => { s.setMig { m with dstSt := st, dstFrame := f, st := .copy } with free := s.free + 2 }
    | none => s.setMig { m with st := .waiting }
  else s.setMig { m with st := .copy, sent := false }

/-- Begin the move of a stripe that the EMB of some stack finds at home with itself (R222 step 1). -/
def State.startMig (s : State) (table stripe dstMod asked : Nat) (auto : Bool) : State :=
  let d := s.tdesc table
  let key := rowKey table stripe
  let s0 := if auto then s else s.modEmb (fun e => { e with migKey := some key, migLast := .none })
  if d = 0 ∨ tdStripes d ≤ stripe then s0
  else match s0.ownHome table d stripe with
    | some (s1, st, frame) =>
      let m : Mig := { key := key, srcSt := st, srcFrame := frame, dstMod := dstMod, asked := asked, st := .copy, auto := auto }
      (s1.modEmb (fun e => { e with migs := e.migs ++ [m] })).placeMig m
    | none => s0

/-- The stripes of a table that stand above the new frame limit of a stack move away. -/
def State.moveTable (s : State) (st lo t : Nat) : State :=
  let d := s.tdesc t
  if d = 0 then s
  else (List.range (tdStripes d)).foldl (fun y i =>
    match (y.stripeHome st t d (y.gen t) i none).2 with
    | .here h f =>
      if h = st ∧ lo < (f + 1 + tdK d) * 65536 ∧ ¬ y.emb.migs.any (fun m => m.key == rowKey t i) then y.startMig t i y.modId 0xFF true else y
    | _ => y) s
/-- Every stripe with frames in the range a map-out removes is moved (R222, R233). -/
def State.moveDisplaced (s : State) (st : Nat) : State :=
  (s.objVals.filter (fun p => decide (0x500000 ≤ p.1) && decide (p.1 < 0x5F0000) && p.1 % 256 == 1)).foldl
    (fun x p => x.moveTable st (s.moveHi st) (p.1 / 256 % 0x1000)) s

/-- Whether some stripe still has frames in the range a map-out removes (R233). -/
def State.displaced (s : State) (st : Nat) : Bool :=
  let lo := s.moveHi st
  (s.usedFrames st).any (fun u => decide (lo < (u.1 + u.2) * 65536))

/-- Whether blocks of a stripe sent to another module await their answers. -/
def State.migOut (s : State) (key : Nat) : Bool :=
  s.links.reqs.any (fun r => match r.owner with | .mig a b _ => rowKey a b == key | _ => false) ||
  s.links.backlog.any (fun r => match r.2.2 with | .mig a b _ => rowKey a b == key | _ => false)
/-- Every block of a move to another module has been answered: DUAL (R222 step 4, R224). -/
def State.migAcked (s : State) (key : Nat) : State :=
  match s.emb.migs.find? (fun m => m.key == key && m.sent && m.st == .copy) with
  | some m => if s.migOut key then s else s.setMig { m with st := .dual }
  | none => s

/-- MIGRATION_COPY_DONE (R222 steps 2 and 4, R223, R278): in a reserved slot, the last block of a stripe is read and verified. Within the module the
blocks are copied and the move enters DUAL; between modules they are sent, and DUAL follows their last answer. `badBlock` is a block that could
not be read, which marks the stripe LOST, as a block failing its Seal does. -/
def execMigrationCopyDone (t table stripe : Nat) (badBlock : Option Nat) (s : State) : Host.Outcome State Fault Refusal :=
  let s := s.atB t
  let key := rowKey table stripe
  if s.stopped ∨ ¬ s.inRsv then .next s else
  match s.emb.migs.find? (fun m => m.key == key) with
  | none => .next s
  | some m =>
    if m.st ≠ .copy ∨ m.sent then .next s
    else
      let blocks := List.range (16 * (1 + tdK (s.tdesc table)))
      let src (b : Nat) : Nat := s.frameDpa m.srcSt m.srcFrame (4096 * b)
      if badBlock.isSome ∨ blocks.any (fun b => s.blockBad (src b)) then
        .next (s.loseStripe key)
      else if m.dstMod = s.modId then
        .next ((blocks.foldl (fun x b => x.writeDpa (x.frameDpa m.dstSt m.dstFrame (4096 * b)) (x.mem.dram.readBytes (src b) 4096)) s).setMig
          { m with st := .dual })
      else .next (blocks.foldl (fun x b => x.sendMigBlock m.dstMod key m.srcSt m.srcFrame b) (s.setMig { m with sent := true }))

/-- Stripes of a table whose home on a stack holds a bad block (R233). -/
def State.badStripes (s : State) (st t : Nat) : List Nat :=
  let d := s.tdesc t
  if d = 0 then []
  else (List.range (tdStripes d)).filter (fun i =>
    match (s.stripeHome st t d (s.gen t) i none).2 with
    | .here h f => h == st && (List.range (16 * (1 + tdK d))).any (fun b => s.isBad (s.frameDpa h f (4096 * b)))
    | _ => false)

/-- Embedding stripes of a stack that hold a bad block become LOST (R233). -/
def State.loseBad (s : State) (st : Nat) : State :=
  (s.objVals.filter (fun p => decide (0x500000 ≤ p.1) && decide (p.1 < 0x5F0000) && p.1 % 256 == 1)).foldl (fun x p =>
    let t := p.1 / 256 % 0x1000
    (x.badStripes st t).foldl (fun y i => y.loseStripe (rowKey t i)) x) s

/-- MAPOUT_COPY_DONE (R233 step 4, R278, R481): in a reserved slot the copy of stack `st` has ended; `badBlocks` are the blocks whose Seal failed or
whose read was uncorrectable. The placement switches at the next edge. -/
def execMapoutCopyDone (t st : Nat) (badBlocks : List Nat) (s : State) : Host.Outcome State Fault Refusal :=
  let s := s.atB t
  if s.stopped ∨ ¬ s.mayRepair .mapoutCopy [] then .next s
  else if (s.stack st).mo = .copy ∧ (s.stack st).copied = false then
    .next (((badBlocks.foldl (fun x b => (x.noteRead b .uncorrectable).addBad st (b / 4096 * 4096)) (s.placeRepair .mapoutCopy [])).modStack st
      (fun x => { x with copied := true })).loseBad st)
  else .next s

/-- EMB_MIG (R224): a block of a stripe that moves here is stored in the frames chosen for it; a block from the new home is written
into the old copy. With no free frames the target refuses. -/
def execEmbMig (t tc n : Nat) (k : Packet) (s : State) : Host.Outcome State Fault Refusal :=
  farRecv t tc n k 0x14 (fun x =>
    let table := ekTable k
    let stripe := ekTag k
    let key := rowKey table stripe
    let off := 4096 * bits (k.word 6) 6 0
    match x.emb.migs.find? (fun m => m.key == key && m.dstMod == k.src) with
    | some m => (x.writeDpa (x.frameDpa m.srcSt m.srcFrame off) k.payload, 0)
    | none =>
      match x.emb.migIns.find? (fun (m : MigIn) => m.key == key) with
      | some m => (x.writeDpa (x.frameDpa m.st m.frame off) k.payload, 0)
      | none =>
        let d := x.tdesc table
        match (migStacks x.free 0xFF 0 false).findSome? (fun st => (x.freeFrame st d (x.moveHi st)).map (fun f => (st, f))) with
        | some (st, f) =>
          ({ (x.modEmb (fun e => { e with migIns := e.migIns ++ [⟨key, k.src, st, f⟩] })).writeDpa (x.frameDpa st f off) k.payload with free := x.free + 2 }, 0)
        | none => (x, 0x14)) s

/-- Write part of a block that the EMB of stack `st` addresses by DVA; nothing where the block is bad (R237, R238). -/
def State.embWrite (s : State) (st dva : Nat) (bs : List Byte) : State :=
  match s.embPlace st dva bs.length true none with
  | (s1, .ok a) => s1.writeDpa a bs
  | (s1, .error _) => s1
/-- Write an entry of a home map array, by the EMB of stack `st`. -/
def State.writeHome (s : State) (st d par stripe e : Nat) : State := s.embWrite st (tdHmap d par + 8 * stripe) (leBytes 8 e)

/-- Drop a table's, or one stripe's, entries from every home map cache (R197, R222). -/
def State.dropHmap (s : State) (p : Nat → Bool) : State :=
  (List.range 16).foldl (fun x st => x.modEmbUnit st (fun u => { u with hmap := u.hmap.filter (fun e => !(p e.1)) })) s

/-- Whether a row key belongs to a stripe of a table. -/
def inStripe (d key k : Nat) : Bool := k / 2 ^ 32 == key / 2 ^ 32 && k % 2 ^ 32 / tdRps d == key % 2 ^ 32

/-- The open combining entries and waiting partials of a stripe move to another stack's EMB, exactly (R222 step 5). -/
def State.moveEntries (s : State) (d key a b : Nat) : State :=
  if a = b then s
  else
    let mine (k : Nat) : Bool := inStripe d key k
    let u := s.embUnit a
    let move (x y : Table Entry) : Table Entry := (x.filter (fun e => mine e.1)).foldl (fun t e => Table.set {} t e.1 e.2) y
    (s.modEmbUnit a (fun x => { x with bank := x.bank.filter (fun y => !(mine y.1)), nextBank := x.nextBank.filter (fun y => !(mine y.1)),
                                       defer := x.defer.filter (fun p => !(mine p.key)) })).modEmbUnit b (fun x =>
      { x with bank := move u.bank x.bank, nextBank := move u.nextBank x.nextBank, defer := x.defer ++ u.defer.filter (fun p => mine p.key) })

/-- R222 step 5: both arrays name the new stack and frame, the caches drop the stripe, and its open combining entries move; its replicated rows
have the new home. -/
def State.switchMig (s : State) (m : Mig) : State :=
  let stripe := m.key % 2 ^ 32
  let d := s.tdesc (m.key / 2 ^ 32)
  let e := 2 ^ 47 + s.modId * 2 ^ 32 + m.dstSt * 2 ^ 28 + m.dstFrame
  let s1 := ((s.writeHome m.srcSt d 0 stripe e).writeHome m.srcSt d 1 stripe e).dropHmap (fun k => k == m.key)
  let s2 := (s1.moveEntries d m.key m.srcSt m.dstSt).modEmb (fun x =>
    { x with repls := x.repls.map (fun r => if inStripe d m.key r.key then { r with home := m.dstSt } else r) })
  s2.setMig { m with switched := true, switchSeq := s2.emb.nextShare }

/-- Whether a request routed before the switch of a move still reads the old frames (R222 step 6). -/
def State.oldReaders (s : State) (m : Mig) : Bool :=
  let d := s.tdesc (m.key / 2 ^ 32)
  s.emb.shares.any (fun h => !h.ended && decide (h.seq < m.switchSeq) && h.rows.any (fun r => inStripe d m.key (rowKey h.table r.1)))

/-- Moves at a cycle edge (R222 steps 1, 5 and 6). -/
def State.migEdge (s : State) : State :=
  s.emb.migs.foldl (fun x m =>
    match m.st with
    | .waiting => x.placeMig m
    | .dual =>
      if m.dstMod ≠ x.modId then x
      else if ¬ m.switched then x.switchMig m
      else if x.oldReaders m then x
      else x.endMig m.key .done
    | _ => x) s

/-! ### Writes to the objects of R227 -/

/-- A descriptor write that changes a fixed field of a table with a valid home is refused (R195). -/
def State.tbldescBusy (s : State) (t new : Nat) : Bool :=
  let old := s.tdesc t
  (bits old 63 34 != bits new 63 34 || bits old 31 0 != bits new 31 0) && s.tableHomed t old

/-- A table has a move within the module in progress (R227). -/
def State.moveInside (s : State) (t : Nat) : Bool := s.emb.migs.any (fun m => m.key / 2 ^ 32 == t && m.dstMod == s.modId)
/-- MIGREQ is refused with BUSY (R227): a move of the stripe, or a home map commit of its table, accepted or armed. -/
def State.migreqBusy (s : State) (v : Nat) : Bool :=
  let t := bits v 15 0
  s.emb.migs.any (fun m => m.key == rowKey t (bits v 47 16)) || (Table.get none s.emb.commits t).isSome ||
  s.marmas.live.any (fun w => w.key == okey (0x5000 + t) 3)
/-- Whether any EMB holds a request (R227): of this module, or of another. -/
def State.embHolds (s : State) : Bool :=
  !s.emb.looks.isEmpty || s.emb.shares.any (fun h => !h.ended) || !s.emb.upds.isEmpty || !s.emb.inbound.isEmpty || !s.emb.pieces.isEmpty ||
  !s.emb.relays.isEmpty || s.emb.units.any (fun u => !u.2.defer.isEmpty) || s.mem.ports.any (fun r => decide (r.port < 32))

/-- A table's descriptor takes a new value: what its home map caches held of it is dropped. -/
def State.setTbldesc (s : State) (t v : Nat) : State := (s.setObj (0x5000 + t) 1 v).dropHmap (fun k => k / 2 ^ 32 == t)
/-- HMAPCOMMIT takes effect: the switch is armed for its cycle, 0 meaning the edge at which the write takes effect (R197, R227). -/
def State.armHmap (s : State) (t v : Nat) : State :=
  (s.setObj (0x5000 + t) 3 v).modEmb (fun e => { e with commits := Table.set none e.commits t (some (if v = 0 then s.cyc else v)) })
/-- MIGREQ takes effect (R222 step 1, R224). -/
def State.applyMigreq (s : State) (v : Nat) : State :=
  (s.setObj 0x5F04 1 v).startMig (bits v 15 0) (bits v 47 16) (bits v 55 48) (bits v 63 56) false
/-- MIGRELEASE takes effect: a move between modules ends, and its old frames are free (R224). -/
def State.applyMigrelease (s : State) (v : Nat) : State :=
  let key := rowKey (bits v 15 0) (bits v 47 16)
  let s1 := (s.setObj 0x5F04 2 v).modEmb (fun e => { e with migIns := e.migIns.filter (fun (m : MigIn) => m.key != key) })
  if s1.emb.migs.any (fun m => m.key == key && m.dstMod != s1.modId) then s1.endMig key .done else s1

/-- MIGSTATUS (R227). -/
def State.migStatus (s : State) : Nat :=
  match s.emb.migKey with
  | none => 0
  | some k => match s.emb.migs.find? (fun m => m.key == k) with
    | some m => m.st.code
    | none => s.emb.migLast.code

/-! ### Edges -/

/-- The partials of a stripe that has moved to another module, open and waiting, are forwarded to its new home (R224; DESIGN CHOICE, log
112). -/
def State.handOver (s : State) (m : Mig) : State :=
  let d := s.tdesc (m.key / 2 ^ 32)
  let mine (k : Nat) : Bool := inStripe d m.key k
  let u := s.embUnit m.srcSt
  let s1 := s.modEmbUnit m.srcSt (fun x =>
    { x with bank := x.bank.filter (fun y => !(mine y.1)), nextBank := x.nextBank.filter (fun y => !(mine y.1)), defer := x.defer.filter (fun p => !(mine p.key)) })
  let entry (x : State) (step : Nat) (e : Nat × Entry) : State :=
    x.relayPartial m.dstMod m.srcSt step { feed := ⟨x.modId, m.srcSt, x.freshTag false, 0⟩, key := e.1, vals := e.2.vals, chkBad := false }
  let s2 := (u.bank.filter (fun y => mine y.1)).foldl (fun x e => entry x s.stepNo e) s1
  let s3 := (u.nextBank.filter (fun y => mine y.1)).foldl (fun x e => entry x (s.stepNo + 1) e) s2
  (u.defer.filter (fun p => mine p.key)).foldl (fun x p => x.relayPartial m.dstMod m.srcSt s.stepNo p) s3

/-- A table's generation switches (R197): the caches drop the table, LOST marks of its reloaded stripes clear, a move to another module has
switched, and a stripe that moved here gets the frames its EMB chose (R224). -/
def State.switchGen (s : State) (t : Nat) : State :=
  let d := s.tdesc t
  let out := s.emb.migs.filter (fun m => m.key / 2 ^ 32 == t && m.dstMod != s.modId && m.st == .dual && !m.switched)
  let s1 := (s.modEmb (fun e =>
    { e with gens := Table.modify 0 e.gens t (fun g => g + 1), commits := Table.set none e.commits t none,
             lost := e.lost.filter (fun k => k / 2 ^ 32 != t),
             migs := e.migs.map (fun m => if out.contains m then { m with switched := true, switchSeq := e.nextShare } else m) })).dropHmap
    (fun k => k / 2 ^ 32 == t)
  let s2 := (s1.emb.migIns.filter (fun (m : MigIn) => m.key / 2 ^ 32 == t)).foldl (fun y m =>
    match (y.readHome m.st d (y.gen t % 2) (m.key % 2 ^ 32) none).2 with
    | .ok e => if bitAt e 47 && bits e 39 32 == y.modId then
        y.writeHome m.st d (y.gen t % 2) (m.key % 2 ^ 32) (2 ^ 47 + y.modId * 2 ^ 32 + m.st * 2 ^ 28 + m.frame) else y
    | .error _ => y) s1
  out.foldl State.handOver s2

/-- Home map generations whose commit names this edge switch (R197). -/
def State.switchGens (s : State) : State :=
  s.emb.commits.foldl (fun x p => if p.2 = some x.cyc then x.switchGen p.1 else x) s

/-- The heat of the stripes of a table that a stack homes is written into the table's heat array (R219). -/
def State.writeTableHeat (s : State) (t st : Nat) : State :=
  let d := s.tdesc t
  if d = 0 then s
  else (List.range (tdStripes d)).foldl (fun y i =>
    match (y.stripeHome st t d (y.gen t) i none).2 with
    | .here h _ => if h = st then y.embWrite st (tdHeat d + 4 * i) (leBytes 4 (Table.get 0 y.emb.heat (rowKey t i))) else y
    | _ => y) s
/-- Every stack's EMB in turn. -/
def State.eachEmb (s : State) (f : State → Nat → State) : State := (List.range 16).foldl f s

/-- Heat at an edge (R219): occurrences are added, then decayed at every HEATPERIOD-th edge, then written for every stripe homed here. -/
def State.heatEdge (s : State) : State :=
  let shift := s.obj 0x5F02 1
  let n := s.emb.heatEdges + 1
  let add := s.emb.heatNow.foldl (fun h p => Table.modify 0 h p.1 (fun v => min (v + p.2) 0xFFFFFFFF)) s.emb.heat
  let decay : Bool := shift != 0 && n % (s.obj 0x5F02 2) == 0
  let heat := if decay then add.foldl (fun h p => Table.set 0 h p.1 (p.2 - p.2 / 2 ^ shift)) add else add
  let s1 := s.modEmb (fun e => { e with heat := heat, heatNow := [], heatEdges := n })
  (s.objVals.filter (fun p => decide (0x500000 ≤ p.1) && decide (p.1 < 0x5F0000) && p.1 % 256 == 1)).foldl
    (fun x p => x.eachEmb (fun y st => y.writeTableHeat (p.1 / 256 % 0x1000) st)) s1

/-- Bytes replicas take in the row cache of a stack: those of rows homed elsewhere (R220). -/
def replBytes (l : List Repl) (st : Nat) : Nat := ((l.filter (fun r => r.home != st)).map (fun r => r.bytes)).foldl (· + ·) 0

/-- Rows of a home's list that are replicated now, where every other row cache has room, and those that wait for it (R220). -/
def State.promote (s : State) (st : Nat) (acc : List Repl × List Nat) : List Nat → List Repl × List Nat
  | [] => acc
  | key :: l =>
    let b := tdB (s.tdesc (key / 2 ^ 32))
    let room := (List.range 16).all (fun c => c == st || decide (replBytes acc.1 c + b ≤ s.obj 0x5F01 2 * 2 ^ 20))
    s.promote st (if acc.1.any (fun r => r.key == key) then acc
      else if room then (acc.1 ++ [{ key := key, home := st, bytes := b }], acc.2) else (acc.1, acc.2 ++ [key])) l

/-- Replication at an edge (R220): what the last edge decided takes effect; rows below a quarter of REPLTHRESH leave; each home promotes up
to 256 rows, those that have waited for space first, then those that reached REPLTHRESH; the counts of the cycle end. -/
def State.replEdge (s : State) : State :=
  let th := s.obj 0x5F03 1
  let l0 := (s.emb.repls.filter (fun r => r.st != .leaving)).map (fun r => { r with st := .serving })
  let l1 := l0.map (fun r => { r with st := if r.count * 4 < th then ReplSt.leaving else r.st, count := 0 })
  (List.range 16).foldl (fun x st =>
    let u := x.embUnit st
    let ask := (u.promote ++ ((u.tracker.filter (fun p => decide (th ≤ p.2))).map (·.1)).filter (fun k => !(u.promote.contains k))).take 256
    let r := x.promote st (x.emb.repls, []) ask
    (x.modEmbUnit st (fun v => { v with tracker := [], promote := r.2 ++ u.promote.drop 256 })).modEmb (fun e => { e with repls := r.1 }))
    (s.modEmb (fun e => { e with repls := l1 }))

/-- The step part of an edge (R211): boundaries are counted from the edge at which STEPEVERY takes a new value. -/
def State.stepEdge (s : State) (rows : List (Nat × RowFinding)) : State :=
  match s.emb.stepEdges with
  | none => s.modEmb (fun e => { e with stepEdges := some 0, opened := false })
  | some n =>
    if s.obj 0x5F00 2 ≤ n + 1 then (s.modEmb (fun e => { e with stepEdges := some 0, opened := true })).stepBoundary rows
    else s.modEmb (fun e => { e with stepEdges := some (n + 1), opened := false })

end Sys2Proof.Machine
end

