-- ==== Sys2Proof/Machine/Rally.lean ====
section
/-!
DEFINITION. The rally tree (12_farast_links.md R356-R359, 02_numerics.md R64-R66, 03_matrix_array.md R97, R101-R103): DM.RALLY, parts,
the root's judgement, verdicts, refusals and time-outs; and the judgement of operations (R65), which feeds it.
-/
namespace Sys2Proof.Machine

/-! ### Entries -/

/-- A rally entry of the dictionary (R356). -/
def State.rallyEntry (s : State) (e : Nat) : Nat := s.obj (0x2800 + e / 256) (e % 256)
def reValid (e : Nat) : Bool := bitAt e 63
def reRole (e : Nat) : Nat := bits e 62 61
def reBcast (e : Nat) : Bool := bitAt e 60
def reNin (e : Nat) : Nat := bits e 59 54 + 1
def reRows (e : Nat) : Nat := bits e 53 47 + 1
def reCols (e : Nat) : Nat := bits e 46 40 + 1
def reOwn (e : Nat) : Nat := bits e 39 32
def reOpid (e : Nat) : Nat := bits e 31 0
def rePmod (e : Nat) : Nat := bits e 127 120
def rePpos (e : Nat) : Nat := bits e 119 112
def rePentry (e : Nat) : Nat := bits e 111 100
def reTous (e : Nat) : Nat := bits e 79 64
/-- Whether a write of an entry keeps R356. -/
def rallyLegal (e : Nat) : Bool :=
  reRole e != 3 && (reRole e != 0 || reNin e == 1) && decide (reOwn e < 144) && bits e 99 80 == 0 && bits e 255 128 == 0 &&
  (reRole e != 2 || (rePmod e == 0 && rePpos e == 0 && rePentry e == 0)) && (!(reValid e) || reRole e == 0 || reTous e != 0)

/-- The state of an entry. -/
def State.rally (s : State) (e : Nat) : Rally := Table.get {} s.links.rally e
/-- Change an entry's state. -/
def State.modRally (s : State) (e : Nat) (f : Rally → Rally) : State :=
  s.modLinks (fun l => { l with rally := Table.modify {} l.rally e f })
/-- An entry is no longer in use: its transfer is complete (R160). -/
def State.endRally (s : State) (e : Nat) : State :=
  if (s.rally e).armed then
    s.modLinks (fun l => { l with rally := Table.set {} l.rally e {} })
  else s

/-- Slot `i` of a tile in row-major order of its sent columns (R356). -/
def tileSlot (cols i : Nat) : Nat := i / cols * 128 + i % cols
/-- The value of a sent slot of an entry's tile. -/
def State.rallySlot (s : State) (e i : Nat) : Int :=
  let r := s.rally e
  (Table.get (0 : W128) (s.core r.pos).acm (r.tile * 16384 + tileSlot (reCols (s.rallyEntry e)) i)).toInt
/-- Slots sent. -/
def reSlots (e : Nat) : Nat := reRows e * reCols e

/-- The operation an entry holds. -/
def State.rallyOp (s : State) (e : Nat) : Option MatOp :=
  let r := s.rally e
  ((s.core r.pos).closedOps r.eng).find? (fun o => o.rally == some e && o.tile == r.tile)

/-! ### Sending -/

/-- Word 2 of a rally packet (R353). -/
def rallyWord2 (spos sent dpos dent : Nat) : Nat := spos * 2 ^ 40 + sent * 2 ^ 28 + dpos * 2 ^ 20 + dent * 2 ^ 8

/-- Send an entry's tile to its parent: 256 slots a packet (R356, R357). A sum of counts that PCOUNT's 25 bits cannot hold is sent as the
largest they hold, which the root refuses as it would the sum (R60, R97; DESIGN CHOICE: log 106). -/
def State.sendTile (s : State) (e : Nat) : State :=
  let d := s.rallyEntry e
  let r := s.rally e
  ((List.range (cdiv (reSlots d) 256)).foldl (fun x i =>
    let n := min 256 (reSlots d - 256 * i)
    x.sendRequest { op := 0x20, dst := rePmod d, w1 := reOpid d, w2 := rallyWord2 (reOwn d) e (rePpos d) (rePentry d),
                    w6 := (r.anchor % 1024).toNat * 2 ^ 54 + min r.pcount (2 ^ 25 - 1) * 2 ^ 29 + b2n r.trigger * 2 ^ 28 + 256 * i, cmdref := r.ref,
                    round := r.round,
                    payload := (List.range n).flatMap (fun j => leBytes 16 (s.rallySlot e (256 * i + j) % 2 ^ 128).toNat) } (.rally r.pos e)) s).modRally e
    (fun x => { x with sent := true })

/-- Send a verdict to every recorded child (R359); an ACCEPT with BCAST carries the final sums. -/
def State.sendVerdict (s : State) (e verdict : Nat) (anchor : Int) (sums : Bool) : State :=
  let d := s.rallyEntry e
  let r := s.rally e
  let w6 (slot : Nat) : Nat := verdict * 2 ^ 62 + (anchor % 1024).toNat * 2 ^ 52 + slot
  r.children.foldl (fun x c =>
    let one (y : State) (slot : Nat) (payload : List Byte) : State :=
      y.sendRequest { op := 0x21, dst := c.mod, w1 := reOpid d, w2 := rallyWord2 (reOwn d) e c.pos c.entry, w6 := w6 slot, cmdref := r.ref,
                      round := r.round, payload := payload } (.rally r.pos e)
    if sums then
      (List.range (cdiv (reSlots d) 256)).foldl (fun y i =>
        one y (256 * i) ((List.range (min 256 (reSlots d - 256 * i))).flatMap (fun j => leBytes 16 (s.rallySlot e (256 * i + j) % 2 ^ 128).toNat))) x
    else one x 0 []) s

/-! ### Outcomes at a node or root -/

/-- The operation of an entry faults (R64, R358, R359); children already recorded get a FAULT verdict. -/
def State.failRally (s : State) (e : Nat) (c : Cause) : State :=
  let r := s.rally e
  let s1 := (s.sendVerdict e 2 r.anchor false).endRally e
  match s.rallyOp e with
  | none => s1
  | some o =>
    s1.opFault r.pos r.eng o c

/-- Add parts to the armed tile's slots exactly (R59). -/
def State.addTile (s : State) (e : Nat) (l : List (Nat × Int)) : State :=
  let r := s.rally e
  s.modCore r.pos (fun c => c.addSlots r.tile (l.map (fun p => (tileSlot (reCols (s.rallyEntry e)) p.1, p.2))))

/-- A contributor replays at the raised anchor (R66, R359): its log is re-run on a skimmed tile, and a node or root re-arms at the next
round. A HALTED core issues nothing more (R172), so it does not replay. -/
def State.replayRally (s : State) (t e : Nat) (anchor : Int) : State :=
  match s.rallyOp e with
  | none => s
  | some o =>
    let r := s.rally e
    if (s.core r.pos).st = .halted then s else
    match ((s.core r.pos).landed t).startReplay r.eng o anchor t with
    | none => s.failRally e .invalidOperand
    | some c =>
      let s1 := ((s.setCore r.pos c).modCmd r.ref (fun d => { d with arepl := min (d.arepl + 1) 15 })).recordReason r.ref 0x01
      s1.modRally e (fun x => { x with round := (x.round + 1) % 16, anchor := anchor, armedAt := s.bclk, pcount := 0, trigger := false, own := false,
                                       sums := [], got := 0, children := [], sent := false })

/-- A root that has every input judges (R65, R97, R103, R359). The TRUNC of its tile, and of a contributor's under BCAST, tells of the
core's own products: RALLY_PART and RALLY_VERDICT carry no TRUNC (R353; DESIGN CHOICE: log 107). -/
def State.judgeRoot (s : State) (t e : Nat) : State :=
  let r := s.rally e
  match s.rallyOp e with
  | none => s
  | some o =>
    if 2 ^ 24 < r.pcount then s.failRally e .illegalEncoding
    else if r.trigger || (s.core r.pos).sumTrigger r.tile then
      if o.replays = o.rmax ∨ 383 < r.anchor + o.astep then s.failRally e .replayExhausted
      else (s.sendVerdict e 1 (r.anchor + o.astep) false).replayRally t e (r.anchor + o.astep)
    else
      let s1 := s.sendVerdict e 0 r.anchor (reBcast (s.rallyEntry e))
      (s1.setCore r.pos ((s1.core r.pos).complete r.eng o)).endRally e

/-- An entry is complete when its own tile and every child's have arrived whole (R357): a leaf or node sends, a root judges. -/
def State.rallyCheck (s : State) (t e : Nat) : State :=
  let d := s.rallyEntry e
  let r := s.rally e
  if ¬ r.armed ∨ ¬ r.own ∨ r.sent then s
  else if reRole d = 0 then s.sendTile e
  else if (r.children.filter (fun c => c.whole)).length + 1 < reNin d then s
  else if reRole d = 1 then s.sendTile e
  else s.judgeRoot t e

/-! ### Commands of the core -/

/-- DM_RALLY (R157, R356, R357): the closed operation of tile ACC enters the rally tree by the entry. -/
def execDmRally (t tb p : Nat) (f : DmRally) (s : State) : Host.Outcome State Fault Refusal :=
  let s := { s with bclk := max s.bclk tb }
  let ent := f.entry.toNat
  let d := s.rallyEntry ent
  let pos := s.posOf p
  let opOf (c : Core) : Option (MatEngine × MatOp) :=
    match c.mxaDone.find? (fun o => o.tile == f.acc.toNat && o.rally.isNone) with
    | some o => some (.mxa, o)
    | none => (c.mvpDone.find? (fun o => o.tile == f.acc.toNat && o.rally.isNone)).map (fun o => (.mvp, o))
  if 4 ≤ s.fullOut p then .next (s.atC t)
  else s.issue t p .dt (.dmRally f) (fun c => c.portFree.get .dt)
    (fun c => [(f.rsv != 0 || !(reValid d) || reRole d == 3 || reOwn d != pos || (opOf c).isNone || (s.rally ent).armed, .illegalEncoding)])
    (fun _ _ => []) .ok
    (fun x _ =>
      match opOf (x.core p) with
      | none => x
      | some (eng, o) =>
        let ref := x.taskRef p
        let mark (l : List MatOp) : List MatOp := l.map (fun y => if y.tile = o.tile ∧ y.rally.isNone then { y with rally := some ent } else y)
        let x1 := x.modCore p (fun c => (c.setClosed eng (mark (c.closedOps eng))).issued .dt t (t + 1) t)
        x1.modRally ent (fun _ => { armed := true, pos := p, tile := o.tile, ref := ref, eng := eng, anchor := o.anchor, armedAt := x.bclk }))

/-- A rally contributor's own tile is whole: its products and trigger are counted, parts that came earlier are added (R97, R103). -/
def State.rallyOwn (s : State) (t e : Nat) (o : MatOp) : State :=
  let r := s.rally e
  let s1 := s.addTile e r.sums
  (s1.modRally e (fun x => { x with own := true, sums := [], pcount := x.pcount + o.products, trigger := x.trigger || o.trigger })).rallyCheck t e

/-- OPERATION_JUDGEMENT (R65): at the completion of a LAST pass the engine judges the product trigger and, on a tile not sent
into the rally tree, the sum trigger; a trigger replays the operation, and without one the checksums are compared and DONE
is set. A HALTED core completes what was issued and replays nothing (R172). A rally contributor judges its product trigger only, reports it, and awaits the root's verdict (R103). -/
def execOperationJudgement (t p : Nat) (e : MatEngine) (s : State) : Host.Outcome State Fault Refusal :=
  let s := (s.atC t).modCore p (fun c => c.landed t)
  let c := s.core p
  match (c.closedOps e).find? (fun o => decide (o.judgeAt ≤ t) && !o.judged) with
  | none => .next s
  | some o =>
    match o.rally with
    | some ent =>
      if c.checksOk e o then
        let c1 := c.endReplay e o t
        .next ((s.setCore p (c1.setClosed e ((c1.closedOps e).map (fun y => if y.tile = o.tile then { y with judged := true } else y)))).rallyOwn
          t ent o)
      else .next ((s.endRally ent).opFault p e o .checksum)
    | none =>
      if o.trigger || c.sumTrigger o.tile then
        if c.st = .halted then .next s else .next (s.replayOrFault t p e o)
      else .next (s.completeOp t p e o)

/-! ### Reception -/

/-- Fields of a rally packet (R353). -/
def rkSpos (k : Packet) : Nat := bits (k.word 2) 47 40
def rkSent (k : Packet) : Nat := bits (k.word 2) 39 28
def rkDpos (k : Packet) : Nat := bits (k.word 2) 27 20
def rkDent (k : Packet) : Nat := bits (k.word 2) 19 8

/-- A refusal is recorded at the receiver (R354). -/
def State.rallyRefused (s : State) (k : Packet) (case : Nat) : State × Nat :=
  (s.postErr { cls := .config, sev := .info, cause := 0x04, cmdref := k.cmdref, info6 := k.src * 2 ^ 32 + rkDent k, info7 := case }, case)

/-- Record a part of a child (R357). -/
def addChild (l : List Child) (m pos ent n total : Nat) : List Child :=
  let up (c : Child) : Child := { c with slots := c.slots + n, whole := decide (total ≤ c.slots + n) }
  if l.any (fun c => c.mod == m && c.pos == pos && c.entry == ent) then
    l.map (fun c => if c.mod = m ∧ c.pos = pos ∧ c.entry = ent then up c else c)
  else l ++ [up { mod := m, pos := pos, entry := ent }]

/-- RALLY_PART (R357, R358): a part is added exactly, answered NOT_ARMED, or refused with a mismatch that faults the operation. -/
def execRallyPart (t tc n : Nat) (k : Packet) (s : State) : Host.Outcome State Fault Refusal :=
  farRecv t tc n k 0x20 (fun x =>
    let e := rkDent k
    let d := x.rallyEntry e
    let r := x.rally e
    if ¬ reValid d ∨ reRole d = 0 ∨ reRole d = 3 ∨ reOwn d ≠ rkDpos k then x.rallyRefused k 0x21
    else if ¬ r.armed then (x, 0x01)
    else if bits (k.word 1) 31 0 ≠ reOpid d then
      let y := x.rallyRefused k 0x20
      (y.1.failRally e .rallyMismatch, y.2)
    else if k.round < r.round then (x, 0)
    else if r.round < k.round then (x, 0x01)
    else if signedOf 10 (bits (k.word 6) 63 54) ≠ r.anchor then
      let y := x.rallyRefused k 0x20
      (y.1.failRally e .rallyMismatch, y.2)
    else
      let slot0 := bits (k.word 6) 13 0
      let parts := ((vals16 k.payload).zipIdx).map (fun v => (slot0 + v.2, v.1))
      let x1 := if r.own then x.addTile e parts else x.modRally e (fun y => { y with sums := addChk y.sums parts })
      let x2 := x1.modRally e (fun y =>
        { y with children := addChild y.children k.src (rkSpos k) (rkSent k) parts.length (reSlots d),
                 pcount := if slot0 = 0 then y.pcount + bits (k.word 6) 53 29 else y.pcount,
                 trigger := y.trigger || bitAt (k.word 6) 28 })
      (x2.rallyCheck x2.cclk e, 0)) s

/-- A verdict packet with a code reaches a contributor that still awaits one; a later one is discarded (R172, R359). -/
def verdictRow (t tc n : Nat) (k : Packet) (code : Nat) (f : State → Nat → State) (s : State) : Host.Outcome State Fault Refusal :=
  if k.op = 0x21 ∧ bits (k.word 6) 63 62 ≠ code then .next { s.atB t with cclk := max s.cclk tc }
  else farRecv t tc n k 0x21 (fun x =>
    let e := rkDent k
    if (x.rally e).armed ∧ reOwn (x.rallyEntry e) = rkDpos k ∧ bits (k.word 1) 31 0 = reOpid (x.rallyEntry e) then (f x e, 0) else (x, 0)) s

/-- A node forwards a verdict packet to its children (R359). -/
def State.forwardVerdict (s : State) (e : Nat) (k : Packet) : State :=
  let d := s.rallyEntry e
  let r := s.rally e
  r.children.foldl (fun x c =>
    x.sendRequest { op := 0x21, dst := c.mod, w1 := reOpid d, w2 := rallyWord2 (reOwn d) e c.pos c.entry, w6 := k.word 6, cmdref := r.ref,
                    round := r.round, payload := k.payload } (.rally r.pos e)) s

/-- RALLY_ACCEPT (R359): the log closes; with BCAST the final sums replace the tile and DONE is set once all have come. -/
def execRallyAccept (t tc n : Nat) (k : Packet) (s : State) : Host.Outcome State Fault Refusal :=
  verdictRow t tc n k 0 (fun x e =>
    let r := x.rally e
    let d := x.rallyEntry e
    let s1 := x.forwardVerdict e k
    match x.rallyOp e with
    | none => s1.endRally e
    | some o =>
      if k.payload.isEmpty then
        (s1.modCore r.pos (fun c => c.setClosed r.eng ((c.closedOps r.eng).filter (fun y => y.tile != o.tile)))).endRally e
      else
        let slot0 := bits (k.word 6) 13 0
        let vs := vals16 k.payload
        let s2 := s1.modCore r.pos (fun c =>
          { c with acm := (vs.zipIdx).foldl (fun a v => Table.set (0 : W128) a (r.tile * 16384 + tileSlot (reCols d) (slot0 + v.2)) (BitVec.ofInt 128 v.1)) c.acm })
        let s3 := s2.modRally e (fun y => { y with got := y.got + vs.length })
        if reSlots d ≤ r.got + vs.length then (s3.modCore r.pos (fun c => c.complete r.eng o)).endRally e else s3) s

/-- RALLY_REPLAY (R359): the contributor replays at the raised anchor; a node forwards the verdict first. -/
def execRallyReplay (t tc n : Nat) (k : Packet) (s : State) : Host.Outcome State Fault Refusal :=
  verdictRow t tc n k 1 (fun x e => (x.forwardVerdict e k).replayRally x.cclk e (signedOf 10 (bits (k.word 6) 61 52))) s

/-- RALLY_FAULT (R359): the operation faults here and, through a node, at its children. -/
def execRallyFault (t tc n : Nat) (k : Packet) (s : State) : Host.Outcome State Fault Refusal :=
  verdictRow t tc n k 2 (fun x e => x.failRally e .rallyMismatch) s

/-- RALLY_TIMEOUT (R358): a node or root not complete TOUS after arming faults its operation. -/
def execRallyTimeout (t tc e : Nat) (s : State) : Host.Outcome State Fault Refusal :=
  let s := { s.atB t with cclk := max s.cclk tc }
  let r := s.rally e
  let d := s.rallyEntry e
  if r.armed ∧ reRole d ≠ 0 ∧ ¬ r.sent ∧ r.armedAt + reTous d * 1000 ≤ s.bclk then .next (s.failRally e .rallyTimeout) else .next s

end Sys2Proof.Machine
end

