-- ==== Sys2Proof/Machine/Farast.lean ====
section
/-!
DEFINITION. Window requests at their receiver (09_address_translation.md R264), their answers, refusals and time-outs
(12_farast_links.md R350, R353, R354, R358).
-/
namespace Sys2Proof.Machine

/-- The judgement of a request by its inbound window and the receiver's translation (R264 steps 2 to 4). -/
inductive Judged
  | ok (runs : List (Place × Nat × Nat))
  | refused (case : Nat)
  deriving DecidableEq, Repr

/-- A place a window may reach: HBM, SLM scratch or an SPM (R264 step 4). -/
def windowPlace : Place → Bool
  | .dram _ | .spm _ _ => true
  | _ => false

/-- Judge a request of `len` bytes arriving at port `n` (R264). -/
def State.judgeWindow (s : State) (n : Nat) (k : Packet) (len : Nat) (wr : Bool) (ue : Option Nat) : State × Judged :=
  let e := s.inWin (bits (k.word 1) 51 40)
  let off := bits (k.word 1) 39 0
  if ¬ bitAt e 63 then (s, .refused 0x10)
  else if ¬ (bitAt e 191 ∨ bits e 135 128 = k.src) then (s, .refused 0x11)
  else if ¬ (if wr then bitAt e 62 else bitAt e 61) then (s, .refused 0x12)
  else if bits e 103 64 + 1 < off + len then (s, .refused 0x13)
  else
    let xu := if n < 6 then 161 else 162
    let runs := rowRuns (bits e 51 12 * 4096 + off) len len 4 0 len
    runs.foldl (fun acc r =>
      match acc.2 with
      | .refused c => (acc.1, .refused c)
      | .ok l =>
        match acc.1.translate xu r.1 wr ue with
        | (s1, .fault _) => (s1, .refused 0x15)
        | (s1, .ok .local' d) =>
          match s1.placeOf d r.2 with
          | some pl => if windowPlace pl then (s1, .ok (l ++ [(pl, r.1, r.2)])) else (s1, .refused 0x14)
          | none => (s1.xlFault, .refused 0x15)
        | (s1, .ok _ _) => (s1, .refused 0x14)) (s, .ok [])

/-- A refused window request is recorded (R264). -/
def State.windowRefused (s : State) (k : Packet) (case : Nat) : State :=
  s.postErr { cls := .config, sev := .info, cause := 0x03, cmdref := k.cmdref, info6 := k.src * 2 ^ 32 + bits (k.word 1) 51 40, info7 := case }

/-- The bytes of an accepted WRITE are written once, and counted on the counter it names (R144, R161, R264); none into a block of which a part
would be written over old bytes that read uncorrectable (R237). -/
def State.windowWrite (s : State) (tc : Nat) (k : Packet) (e : Ecc) (runs : List (Place × Nat × Nat)) : State × Nat :=
  let parts := joinRuns runs k.payload
  match s.oldBytes parts (fun _ => e == .uncorrectable) with
  | (s1, some _) => (s1, 0x30)
  | (s1, none) =>
    let z := parts.foldl (fun a r => match r.1 with
      | .spm c off => (splitBlocks 8193 off r.2.2).foldl (fun b q => b.bgWrite c q.1 q.2) a
      | .dram d => (a.writeDpa d r.2.2).endBi d r.2.2.length
      | _ => a) s1
    match parts.getLast? with
    | some (.spm c _, _, _) => (if bitAt (k.word 2) 56 then z.countArrival tc c (bits (k.word 2) 62 57) else z, 0)
    | _ => (z, 0)

/-- FARAST_WRITE (R264, R144, R161): a WRITE is verified, judged, written once, and counted on the counter it names. `fnd` is what its
walk and a read of old bytes find. One that meets lines the host holds, or a unit being skimmed, is taken once these are free. -/
def execFarastWrite (t tc n : Nat) (k : Packet) (fnd : WriteFind) (s : State) : Host.Outcome State Fault Refusal :=
  let s := { s.atB t with cclk := max s.cclk tc }
  if ¬ brings k 0x01 then .next s
  else match s.recvRequest n k with
    | .drop x => .next x
    | .apply x =>
      let j := x.judgeWindow n k k.payload.length true fnd.table
      match j.2 with
      | .refused c => .next ((j.1.windowRefused k c).answer k c)
      | .ok runs =>
        if (j.1.placesWait true runs).2 then .next (s.placesWait true runs).1
        else
          let r := j.1.windowWrite tc k fnd.old runs
          .next (r.1.answer k r.2)

/-- The bytes of an accepted READ, or the case that refuses it (R264, R354); `e` is what the error codes find on the first of them. -/
def State.windowRead (s : State) (cls : Nat) (e : Ecc) (runs : List (Place × Nat × Nat)) : State × (List Byte ⊕ Nat) :=
  let f := match runs.findSome? (fun r => r.1.dpa) with | some d => s.foundAt d e | none => (s, e)
  if f.2 = .uncorrectable ∨ runs.any (fun r => match r.1 with | .dram d => s.isBad d | _ => s.isLost r.1 r.2.2) then (f.1, .inr 0x30)
  else if runs.any (fun r => s.sealFails r.1 r.2.2) then (f.1, .inr 0x30)
  else
    let r := runs.foldl (fun acc q =>
      match q.1 with
      | .spm c off => (acc.1, acc.2 ++ (acc.1.coreNow c).spm.readBytes off q.2.2)
      | .dram d => ((acc.1.endBi d q.2.2).cacheRead d cls, acc.2 ++ acc.1.readDpa d q.2.2)
      | _ => acc) (f.1, ([] : List Byte))
    (r.1, .inl r.2)

/-- FARAST_READ (R264, R351): a READ is verified, judged and answered with READRESP; a resent READ is read again. -/
def execFarastRead (t tc n : Nat) (k : Packet) (ue : Option Nat) (e : Ecc) (s : State) : Host.Outcome State Fault Refusal :=
  let s := { s.atB t with cclk := max s.cclk tc }
  if ¬ brings k 0x02 then .next s
  else match s.recvLink n k with
    | .drop x => .next x
    | .apply x =>
      let j := x.judgeWindow n k (bits (k.word 2) 12 0) false ue
      match j.2 with
      | .refused c => .next ((j.1.windowRefused k c).eack k c)
      | .ok runs =>
        if (j.1.placesWait false runs).2 then .next (s.placesWait false runs).1
        else match j.1.windowRead (bits (k.word 2) 55 53) e runs with
          | (y, .inr c) => .next (y.eack k c)
          | (y, .inl bs) =>
            .next (y.send (y.mkPacket { op := 0x03, dst := k.src, cmdref := k.cmdref, w6 := k.eseq, payload := bs } 0 false))

/-- The command an owner's request belongs to. -/
def State.ownerRef (s : State) (o : ReqOwner) : Option Nat :=
  match o with
  | .unit x _ _ => (s.xfer x).map (·.ref)
  | .emb tag => match s.emb.looks.find? (fun l => l.tag == tag) with
    | some l => some l.ref
    | none => (s.emb.upds.find? (fun u => u.tag == tag)).map (·.ref)
  | .rally _ e => if (s.rally e).armed then some (s.rally e).ref else none
  | .embHome _ _ _ => none
  | .mig _ _ _ => none
  | .cfe ref => some ref
  | .cfeRead _ _ => none

/-- An answered request that was resent gives its command the reason LINK_RETRY (R350). -/
def State.noteRetry (s : State) (r : E2e) : State :=
  if r.resends = 0 then s else match s.ownerRef r.owner with | some ref => s.recordReason ref 0x09 | none => s

/-- A request of an owner fails (R163, R225, R354). -/
def State.failOwner (s : State) (o : ReqOwner) (c : Cause) : State :=
  match o with
  | .unit x a read => match s.xfer x with
    | some y =>
      let dva := if read then a else 0
      s.failXfer y (if c = .xlate then xlateFault y.xuOf y.sclass dva 0 { case := 8 } else { cause := c, dva := dva })
    | none => s
  | .emb tag => s.failTag tag c
  | .embHome src st tag => s.failHome src st tag c
  | .rally _ e => if (s.rally e).armed then s.failRally e c else s
  | .mig a b _ => match s.emb.migs.find? (fun m => m.key == rowKey a b) with
    | some m => if c = .xlate then s.setMig { m with st := .waiting } else s.endMig m.key .none
    | none => s
  | .cfe ref => s.faultCommand { cause := c, engine := .cfe, cmdref := ref }
  | .cfeRead a n => s.modCfe (fun f => { f with winReads := f.winReads.map (fun w => if w.dva = a ∧ w.len = n then { w with fault := some c } else w) })

/-- READRESP (R353): read data is kept for the transfer that asked for it. -/
def execReadresp (t tc n : Nat) (k : Packet) (s : State) : Host.Outcome State Fault Refusal :=
  let s := { s.atB t with cclk := max s.cclk tc }
  if ¬ brings k 0x03 then .next s
  else match s.recvLink n k with
    | .drop x => .next x
    | .apply x =>
      match x.reqOf k.src (bits (k.word 6) 23 0) with
      | none => .next x
      | some r =>
        let x1 := (x.noteRetry r).dropReq r.dst r.eseq
        match r.owner with
        | .unit id a true => .next (x1.modXfer id (fun y => { y with got := y.got ++ [(a, k.payload)] }))
        | .cfeRead a n => .next (x1.modCfe (fun f =>
            { f with winReads := f.winReads.map (fun w => if w.dva = a ∧ w.len = n then { w with bytes := some k.payload } else w) }))
        | _ => .next x1

/-- The cause of a refusal case (R354). -/
def caseCause (case : Nat) : Cause :=
  if case = 0x30 then .uncorrectable else if case = 0x20 ∨ case = 0x21 then .rallyMismatch else .xlate

/-- EACK (R350, R354): the answered request is closed, waits for its entry to be armed, or is refused. -/
def execEack (t tc n : Nat) (k : Packet) (s : State) : Host.Outcome State Fault Refusal :=
  let s := { s.atB t with cclk := max s.cclk tc }
  if ¬ brings k 0x04 then .next s
  else match s.recvLink n k with
    | .drop x => .next x
    | .apply x =>
      let case := bits (k.word 6) 31 24
      match x.reqOf k.src (bits (k.word 6) 23 0) with
      | none => .next x
      | some r =>
        if case = 0x01 then
          .next (x.modLinks (fun l => { l with reqs := l.reqs.map (fun q => if q.dst = r.dst ∧ q.eseq = r.eseq then { q with notArmed := some x.bclk } else q) }))
        else
          let x1 := (x.noteRetry r).dropReq r.dst r.eseq
          if case ≠ 0 then .next ((if caseCause case = .xlate then x1.xlFault else x1).failOwner r.owner (caseCause case))
          else match r.owner with
            | .unit id u false =>
              match x1.xfer id with
              | none => .next x1
              | some y =>
                let spm := Config.windowSpm r.dst (bits (r.pkt.word 1) 51 40) (bits (r.pkt.word 1) 39 0) r.eseq
                .next (x1.unitAcked tc y u (!spm))
            | .embHome a b g => .next (if r.pkt.op = 0x13 ∧ ekCode r.pkt = 2 then x1.endShares a b g else x1)
            | .mig a b _ => .next (x1.migAcked (rowKey a b))
            | .rally _ _ => .next (match x1.ownerRef r.owner with | some ref => x1.modCmd ref (fun d => { d with effects := true }) | none => x1)
            | _ => .next x1

/-- Send a request's packet again (R349, R350). -/
def State.resend (s : State) (r : E2e) (f : E2e → E2e) : State :=
  let k := r.pkt.restamp r.eseq true
  let s1 := (s.send k).modLinks (fun l => { l with reqs := l.reqs.map (fun x => if x.dst = r.dst ∧ x.eseq = r.eseq then f { x with port := s.portFor k, lastAt := s.bclk } else x) })
  match s.portFor k with
  | some n => if n < 12 then s1.modPort n (fun p => { p with eresends := satInc p.eresends 64 }) else s1
  | none => s1

/-- The retry bound of R350. -/
def State.retryBound (s : State) : Nat := (s.obj 0x2700 3 + 1) * s.obj 0x2700 2

/-- NOT_ARMED_RESEND (R358): 2 µs after a NOT_ARMED answer the part is sent again, without counting toward EMAX. -/
def execNotArmedResend (t dst eseq : Nat) (s : State) : Host.Outcome State Fault Refusal :=
  let s := s.atB t
  match s.reqOf dst eseq with
  | none => .next s
  | some r =>
    match r.notArmed with
    | none => .next s
    | some at' =>
      if s.bclk < at' + 2000 then .next s
      else if r.sentAt + s.retryBound ≤ s.bclk then .next ((s.dropReq dst eseq).failOwner r.owner .linkTimeout)
      else .next (s.resend r (fun x => { x with notArmed := none }))

/-- E2E_TIMEOUT (R350): an unanswered request is sent again after each ETIMEOUT, up to EMAX times; at the bound its command completes
LINK_TIMEOUT. One answered NOT_ARMED waits for its own resend (R358). -/
def execE2eTimeout (t dst eseq : Nat) (s : State) : Host.Outcome State Fault Refusal :=
  let s := s.atB t
  match s.reqOf dst eseq with
  | none => .next s
  | some r =>
    if s.bclk < r.lastAt + s.obj 0x2700 2 ∨ r.notArmed.isSome then .next s
    else if r.resends < s.obj 0x2700 3 then .next (s.resend r (fun x => { x with resends := x.resends + 1 }))
    else .next ((s.dropReq dst eseq).failOwner r.owner .linkTimeout)

end Sys2Proof.Machine
end

