-- ==== Sys2Proof/Machine/Lanes.lean ====
section
/-!
DEFINITION. Lanes and ports of the Farast links (12_farast_links.md R335-R346): control words, retry, equalization, sparing, narrowing,
widening and training. Lane and codeword findings are physical and come with the commands.
-/
namespace Sys2Proof.Machine

/-! ### Ports -/

/-- A lane of a port. -/
def Port.lane (p : Port) (l : Nat) : Lane := p.lanes.getD l {}
/-- Change a lane. -/
def Port.modLane (p : Port) (l : Nat) (f : Lane → Lane) : Port := { p with lanes := listSet p.lanes l (f (p.lane l)) }
/-- One direction of a lane; `rx` is this module's receiving direction. -/
def Lane.dir (x : Lane) (rx : Bool) : LaneSt := if rx then x.rx else x.tx
def Lane.setDir (x : Lane) (rx : Bool) (v : LaneSt) : Lane := if rx then { x with rx := v } else { x with tx := v }
/-- The lanes of the logical positions in one direction. -/
def Port.map' (p : Port) (rx : Bool) : List Nat := if rx then p.rxMap else p.txMap
def Port.setMap (p : Port) (rx : Bool) (m : List Nat) : Port := if rx then { p with rxMap := m } else { p with txMap := m }
/-- Live lanes N (R334): those of the narrower direction. -/
def Port.live (p : Port) : Nat := min p.rxMap.length p.txMap.length
/-- LSTATE of a lane (R360). -/
def Lane.lstate (x : Lane) : Nat := x.rx.code * 16 + x.tx.code
/-- Capacity of a port in bytes per microsecond (R334, R344). -/
def Port.capacity (p : Port) : Nat :=
  if ¬ p.usable then 0
  else if p.rtt ≤ 480 then 50000 * p.live else min (50000 * p.live) (400 * 491520 / p.rtt)

/-- A LINK record (R390). -/
def State.linkErr (s : State) (n cause : Nat) (sev : Sev) (l : Option Nat := none) : State :=
  let p := s.port n
  s.postErr { cls := .link, sev := sev, cause := cause, ukind := match l with | some _ => .lane | none => .farastPort,
              unit := match l with | some x => n * 16 + x | none => n,
              info6 := p.csym % 2 ^ 32 * 2 ^ 32 + p.ucw % 2 ^ 16 * 2 ^ 16 + (match l with | some x => (p.lane x).lstate | none => 0),
              info7 := Config.peerModule n % 256 * 2 ^ 56 + p.rtt % 2 ^ 32 }

/-- A port goes DOWN (R340, R343, R346): it carries nothing, its lanes stop, its packets are left to R350, and it retrains in repair slots. -/
def State.portDown (s : State) (n : Nat) : State :=
  if (s.port n).st = .down then s
  else
    (s.modPort n (fun p =>
      { p with st := .down, rxMap := [], txMap := [], held := [], waiting := [], sendCmd := none, peerCmd := none, mirror := none, txMirror := none,
               queued := [], eqOut := [], repair := true, missed := 0, nak := false, txNext := 0, rxNext := 0, credit := [256, 3072, 3072, 3072], credSeen := [0, 0, 0, 0],
               credRet := [0, 0, 0, 0], credTot := [0, 0, 0, 0], failovers := satInc p.failovers 64,
               lanes := p.lanes.map (fun x => { x with rx := if x.rx = .failed then .failed else .off, tx := if x.tx = .failed then .failed else .off,
                                                       retrain := x.retrain }) })).linkErr n 0x05 .unit

/-- The state of a port that carries packets (R360). -/
def Port.settle (p : Port) : Port :=
  if p.live < 4 then p else { p with st := if p.rxMap.length = 8 ∧ p.txMap.length = 8 then .up else .narrow }

/-- After a map changed: fewer than four live lanes take the port DOWN (R340). -/
def State.settlePort (s : State) (n : Nat) : State :=
  if (s.port n).live < 4 then s.portDown n else s.modPort n Port.settle

/-- An edge: PENABLE, training of ports that are down (never without an EPOCH, R518), lanes asked to retrain, and the capacity the Fixture charges
(R337, R340, R360). A lane shows TRAIN from the edge on; where it trains in repair slots, it passes in one. -/
def State.linkEdge (s : State) : State :=
  (List.range 12).foldl (fun x n =>
    let en := x.obj (0x3200 + n) 1 == 1
    let x1 := if en then x else (x.portDown n).modPort n (fun p => { p with repair := false })
    let x2 := if en && x1.links.trainOk && x1.start.epochOk && (x1.port n).st == .down then
        x1.modPort n (fun p => { p with st := .training, lanes := p.lanes.map (fun l =>
          { l with rx := if l.rx = .failed ∧ ¬ l.retrain then .failed else .train, tx := if l.tx = .failed ∧ ¬ l.retrain then .failed else .train }) })
      else x1
    let x3 := x2.modPort n (fun p => { p with lanes := p.lanes.map (fun l =>
        if l.retrain then { l with rx := if l.rx = .failed then .train else l.rx, tx := if l.tx = .failed then .train else l.tx } else l) })
    (x3.modPort n (fun p => { p with charged := p.capacity })).slowedPort n (x3.port n).capacity) s

/-! ### Link layer -/

/-- The control word from the copies of its fields (R343): for each field the first copy that decoded, on position i, position 4 + i, or the
SHADOW spare that mirrors one of these; none if a field has none. Field i is bits [20i+19:20i]. -/
def controlWord (l : List (Option Nat)) (spare : Option (Nat × Nat)) : Option Nat :=
  let copy (i : Nat) : Option Nat := match spare with | some (p, v) => if p % 4 = i then some v else none | none => none
  let field (i : Nat) : Option Nat := ((l.getD i none).orElse fun _ => l.getD (4 + i) none).orElse fun _ => copy i
  match field 0, field 1, field 2, field 3 with
  | some a, some b, some c, some d => some (a % 2 ^ 20 + b % 2 ^ 20 * 2 ^ 20 + c % 2 ^ 20 * 2 ^ 40 + d % 2 ^ 20 * 2 ^ 60)
  | _, _, _, _ => none

/-- The frame of 12.8 ns that runs now (R334). -/
def State.frame (s : State) : Nat := s.bclk * 5 / 64
/-- A link command first sent now (R343), to act after `lead` frames. -/
def State.linkCmd (s : State) (code pos lead : Nat) : Option LinkCmd := some ⟨code, pos, s.frame + lead⟩
/-- The frames that the model leaves open for a command. -/
def State.lead (s : State) (n : Nat) : Nat := Config.linkLead n s.frame

/-- The control word a port sends in a frame (R343), with the totals of returned credit, at most 10 units a frame more (R344). -/
def State.wordOut (s : State) (n : Nat) : Nat :=
  let p := s.port n
  let cmd : Nat := match p.sendCmd with
    | some c => c.code * 2 ^ 32 + c.pos * 2 ^ 28 + min (c.actsAt - s.frame) 255 * 2 ^ 20
    | none => 0
  let eq : Nat := match p.eqOut with
    | (l, tap, d) :: _ => l * 2 ^ 16 + tap * 2 ^ 12 + d * 2 ^ 10
    | [] => 15 * 2 ^ 16
  let cred := p.credTot.getD 3 0 * 2 ^ 56 + p.credTot.getD 2 0 * 2 ^ 49 + p.credTot.getD 1 0 * 2 ^ 42 + p.credTot.getD 0 0 * 2 ^ 35
  (p.rxNext - 1).toNat * 2 ^ 64 + b2n p.nak * 2 ^ 63 + cred + cmd + eq
/-- Credit is returned in units of 8 flits (R344). -/
def Port.returnCredit (p : Port) : Port :=
  let units (i : Nat) : Nat := min 10 (p.credRet.getD i 0 / 8)
  { p with credTot := (List.range 4).map (fun i => (p.credTot.getD i 0 + units i) % 128),
           credRet := (List.range 4).map (fun i => p.credRet.getD i 0 - 8 * units i) }
/-- A port sends its frame's control word (R343): field i on position i, copies on the positions from 4 on and on a SHADOW spare; a step for the
far transmitter's taps goes out once. -/
def State.sendControl (s : State) (n : Nat) : State :=
  let s1 := s.modPort n Port.returnCredit
  let p := s1.port n
  let w := s1.wordOut n
  let field (i : Nat) : Nat := bits w (20 * (i % 4) + 19) (20 * (i % 4))
  let spare := match p.txMirror with
    | some pos => ((List.range 9).filter (fun l => (p.lane l).tx == .shadow)).map (fun l => (l, field pos))
    | none => []
  (s1.emit (.control n (p.txMap.zipIdx.map (fun x => (x.1, field x.2)) ++ spare))).modPort n (fun q => { q with eqOut := q.eqOut.drop 1 })

/-- Resend every held packet in LSEQ order (R346). -/
def State.resendHeld (s : State) (n : Nat) : State :=
  let p := s.port n
  p.held.foldl (fun x h => x.emit (.packet n h.pkt))
    (s.modPort n (fun q => { q with held := q.held.map (fun h => { h with resends := h.resends + 1 }),
                                    lresends := min (q.lresends + q.held.length) (2 ^ 64 - 1), resentAt := s.bclk }))

/-- A link-level retry (R346): at LRMAX resends of one LSEQ, or LRTIME without an acknowledgement, the port is DOWN; else the held packets are resent,
which their commands record (R350). -/
def State.retry (s : State) (n : Nat) : State :=
  let p := s.port n
  if p.held = [] then s
  else if p.held.any (fun h => decide (s.obj 0x2700 4 ≤ h.resends)) ∨ p.progressAt + s.obj 0x2700 5 ≤ s.bclk then s.portDown n
  else p.held.foldl (fun x h => if h.pkt.cmdref = 0 then x else x.recordReason h.pkt.cmdref 0x09) (s.resendHeld n)

/-- ACKSEQ covers held packets in order (R346). -/
def State.ackHeld (s : State) (n ack : Nat) : State :=
  s.modPort n (fun q =>
    if q.held.any (fun h => h.lseq.toNat == ack) then
      { q with held := (q.held.dropWhile (fun h => h.lseq.toNat != ack)).drop 1, progressAt := s.bclk }
    else q)

/-- A lane's transmitter tap moves one step by the back-channel, unless it is pinned (R335, R343). -/
def Lane.eqStep (x : Lane) (tap dir : Nat) : Lane :=
  if x.pin ≠ 0 ∨ dir = 0 ∨ dir = 3 then x
  else { x with txffe := listSet x.txffe tap (x.txffe.getD tap 0 + (if dir = 1 then 1 else -1)) }

/-- CONTROL_WORD (R343): acknowledgements, NAK, credits, a link command and an equalizer step of one frame's word, and the word this end sends in
the frame; `fields` are the decoded 20-bit fields by logical position, then the SHADOW spare's. After 8 frames without a word the port is DOWN. -/
def execControlWord (t n : Nat) (fields : List (Option Nat)) (s : State) : Host.Outcome State Fault Refusal :=
  let s := s.atB t
  let p := s.port n
  let len := p.rxMap.length
  let spare : Option (Nat × Nat) := match p.mirror, fields.getD len none with
    | some m, some v => if (p.lane m.spare).rx = .shadow then some (m.pos, v) else none
    | _, _ => none
  if ¬ p.usable then .next s
  else match controlWord (fields.take len) spare with
    | none =>
      let s1 := s.modPort n (fun p => { p with missed := p.missed + 1 })
      .next (if 8 ≤ (s1.port n).missed then s1.portDown n else s1.sendControl n)
    | some w =>
      let s1 := (s.modPort n (fun p => { p with missed := 0 })).ackHeld n (bits w 79 64)
      let s2 := if bitAt w 63 then s1.retry n else s1
      let tot := [bits w 41 35, bits w 48 42, bits w 55 49, bits w 62 56]
      let s3 := s2.modPort n (fun p =>
        { p with credit := (p.credit.zip (tot.zip p.credSeen)).map (fun x => x.1 + (x.2.1 + 128 - x.2.2 % 128) % 128 * 8), credSeen := tot })
      let s4 := if bits w 34 32 = 0 then s3
        else s3.modPort n (fun p => { p with peerCmd := some ⟨bits w 34 32, bits w 31 28, s.frame + bits w 27 20⟩ })
      let s5 := s4.modPort n (fun p => if bits w 19 16 < 9 then p.modLane (bits w 19 16) (fun l => l.eqStep (bits w 15 12) (bits w 11 10)) else p)
      .next (if (s5.port n).usable then (s5.flushPort n).sendControl n else s2)

/-- CONTROL_WORD_LOSS (R343): no control word of the port has decoded for 8 frames, and the port is DOWN. -/
def execControlWordLoss (t n : Nat) (s : State) : Host.Outcome State Fault Refusal :=
  let s := s.atB t
  .next (if (s.port n).usable then s.portDown n else s)

/-- LINK_RETRY_TIMEOUT (R346): no acknowledgement has advanced for 2 µs, and the held packets are resent. -/
def execLinkRetryTimeout (t n : Nat) (s : State) : Host.Outcome State Fault Refusal :=
  let s := s.atB t
  let p := s.port n
  if ¬ p.usable ∨ p.held = [] ∨ s.bclk < max p.progressAt p.resentAt + 2000 then .next s else .next (s.retry n)

/-! ### Sparing (R338-R341) -/

/-- The logical position of a lane in a direction. -/
def Port.posOf (p : Port) (rx : Bool) (l : Nat) : Option Nat := (p.map' rx).findIdx? (fun x => x == l)
/-- A spare lane of a direction. -/
def Port.spare (p : Port) (rx : Bool) : Option Nat := (List.range 9).find? (fun l => (p.lane l).dir rx == .spare)

/-- The receiver starts a replacement of lane `l` (R338-R341): MIRROR, SWITCH at once, or NARROW where no spare is available. -/
def State.beginReplace (s : State) (n l pos : Nat) (reactive : Bool) : State :=
  match (s.port n).spare true with
  | none => s.modPort n (fun q => { q with sendCmd := s.linkCmd 3 pos (s.lead n) })
  | some sp =>
    if reactive then s.modPort n (fun q => { q with sendCmd := s.linkCmd 2 pos (s.lead n), mirror := some ⟨pos, l, sp, s.bclk⟩ })
    else s.modPort n (fun q =>
      ({ q with sendCmd := s.linkCmd 1 pos (s.lead n), mirror := some ⟨pos, l, sp, s.bclk⟩ }).modLane sp (fun x => { x with rx := .shadow }))

/-- A trigger of a port is taken up, or waits for the command in progress (R341). -/
def State.takeTrigger (s : State) (n : Nat) (k : Trigger) : State :=
  let p := s.port n
  if p.mirror.isSome ∨ p.sendCmd.isSome then s.modPort n (fun q => { q with queued := q.queued ++ [k] })
  else match k with
    | .replace l reactive => match p.posOf true l with | some pos => s.beginReplace n l pos reactive | none => s
    | .widen l => if p.rxMap.length < 8 then s.modPort n (fun q => { q with sendCmd := s.linkCmd 4 l (s.lead n) })
      else s.modPort n (fun q => q.modLane l (fun x => { x with rx := .spare }))

/-- What waits is taken up again, in order of detection (R341). -/
def State.nextTrigger (s : State) (n : Nat) : State :=
  ((s.port n).queued).foldl (fun x k => x.takeTrigger n k) (s.modPort n (fun p => { p with queued := [] }))

/-- FAILOVER_TRIGGER (R338, R341): in the last window lane `l` of port `n` had `csym` corrected symbols and `ucw` uncorrectable codewords, or lost
codeword lock. -/
def execFailoverTrigger (t n l csym ucw : Nat) (lockLost : Bool) (s : State) : Host.Outcome State Fault Refusal :=
  let s := s.atB t
  let p := s.port n
  let reactive := lockLost || decide (s.obj 0x2700 7 ≤ ucw)
  if ¬ p.usable ∨ ¬ (reactive ∨ s.obj 0x2700 6 < csym) then .next s
  else match (p.lane l).rx with
    | .active => .next (s.takeTrigger n (.replace l reactive))
    | .shadow =>
      match p.mirror with
      | some m => .next (s.modPort n (fun q => ({ q with mirror := none, sendCmd := s.linkCmd 3 m.pos (s.lead n) }).modLane l (fun x => { x with rx := .train })))
      | none => .next s
    | _ => .next s

/-- MIRROR_CHECK (R339 step 4, R337): all 256 mirrored codewords of the spare decoded (`ok`), and the receiver sends SWITCH; otherwise the
mirroring ends, the spare is retrained, and the lane is handled as a narrowing (R341). -/
def execMirrorCheck (t n : Nat) (ok : Bool) (s : State) : Host.Outcome State Fault Refusal :=
  let s := s.atB t
  match (s.port n).mirror with
  | none => .next s
  | some m =>
    if ((s.port n).lane m.spare).rx ≠ .shadow then .next s
    else if ok then .next (s.modPort n (fun p => { p with sendCmd := s.linkCmd 2 m.pos 256 }))
    else .next (s.modPort n (fun p => ({ p with mirror := none, sendCmd := s.linkCmd 3 m.pos (s.lead n) }).modLane m.spare (fun x => { x with rx := .train })))

/-- LCMD_MIRROR (R339 step 2): the transmitter copies the position its peer named onto the spare. -/
def execLcmdMirror (t n : Nat) (s : State) : Host.Outcome State Fault Refusal :=
  let s := s.atB t
  let p := s.port n
  match p.peerCmd, p.spare false with
  | some c, some sp =>
    if c.code = 1 then .next (s.modPort n (fun q => ({ q with peerCmd := none, txMirror := some c.pos }).modLane sp (fun x => { x with tx := .shadow }))) else .next s
  | _, _ => .next s

/-- A position is taken from the spare in one direction: the old lane is FAILED (R339 step 5). -/
def Port.switchPos (p : Port) (rx : Bool) (pos sp : Nat) : Port :=
  let old := (p.map' rx).getD pos 0
  ((p.setMap rx (listSet (p.map' rx) pos sp)).modLane old (fun x => x.setDir rx .failed)).modLane sp (fun x => x.setDir rx .active)

/-- LCMD_SWITCH (R339): at the named frame the position moves to the spare, at the receiving end (`rx`) or the transmitting end. -/
def execLcmdSwitch (t n : Nat) (rx : Bool) (s : State) : Host.Outcome State Fault Refusal :=
  let s := s.atB t
  let p := s.port n
  if rx then
    match p.mirror, p.sendCmd with
    | some m, some c =>
      if c.code ≠ 2 then .next s
      else
        let pro := decide ((p.lane m.spare).rx = .shadow)
        let s1 := s.modPort n (fun q => { q.switchPos true m.pos m.spare with mirror := none, sendCmd := none, failovers := satInc q.failovers 64 })
        .next ((s1.linkErr n (if pro then 0x01 else 0x02) (if pro then .corrected else .degraded) (some m.lane)).nextTrigger n)
    | _, _ => .next s
  else
    match p.peerCmd with
    | some c =>
      let sp := (List.range 9).find? (fun l => (p.lane l).tx == .shadow || (p.lane l).tx == .spare)
      match sp with
      | some l =>
        if c.code ≠ 2 ∨ p.txMap.length ≤ c.pos then .next s
        else
          let pro := decide ((p.lane l).tx = .shadow)
          let old := p.txMap.getD c.pos 0
          let s1 := s.modPort n (fun q => { q.switchPos false c.pos l with peerCmd := none, txMirror := none, failovers := satInc q.failovers 64 })
          .next (s1.linkErr n (if pro then 0x01 else 0x02) (if pro then .corrected else .degraded) (some old))
      | none => .next s
    | none => .next s

/-- The surviving positions are renumbered in ascending physical lane order (R340). -/
def Port.narrow (p : Port) (rx : Bool) (pos : Nat) : Port :=
  let old := (p.map' rx).getD pos 0
  (p.setMap rx ((List.range 9).filter (fun l => l != old && (p.map' rx).contains l))).modLane old (fun x => x.setDir rx .failed)

/-- A transmit spare whose mirroring has ended is retrained (R337). -/
def Port.endShadow (p : Port) : Port :=
  { p with txMirror := none, lanes := p.lanes.map (fun l => if l.tx = .shadow then { l with tx := .train } else l) }

/-- LCMD_NARROW (R340): at the named frame the position's lane is dropped; below four live lanes the port is DOWN. -/
def execLcmdNarrow (t n : Nat) (rx : Bool) (s : State) : Host.Outcome State Fault Refusal :=
  let s := s.atB t
  let p := s.port n
  match (if rx then p.sendCmd else p.peerCmd) with
  | some c =>
    if c.code ≠ 3 ∨ (p.map' rx).length ≤ c.pos then .next s
    else
      let old := (p.map' rx).getD c.pos 0
      let s1 := s.modPort n (fun q =>
        let q1 := if rx then q.narrow rx c.pos else (q.narrow rx c.pos).endShadow
        { q1 with sendCmd := if rx then none else q1.sendCmd, peerCmd := if rx then q1.peerCmd else none, failovers := satInc q1.failovers 64 })
      let s2 := (s1.linkErr n 0x03 .degraded (some old)).settlePort n
      .next (if rx then s2.nextTrigger n else s2)
  | none => .next s

/-- A lane joins a direction's positions, renumbered in ascending lane order. -/
def Port.join (p : Port) (rx : Bool) (l : Nat) : Port :=
  (p.setMap rx ((List.range 9).filter (fun x => x == l || (p.map' rx).contains x))).modLane l (fun x => x.setDir rx .active)

/-- LCMD_WIDEN (R340): at the named frame the retrained lane carries a position again. -/
def execLcmdWiden (t n : Nat) (rx : Bool) (s : State) : Host.Outcome State Fault Refusal :=
  let s := s.atB t
  let p := s.port n
  match (if rx then p.sendCmd else p.peerCmd) with
  | some c =>
    if c.code ≠ 4 ∨ 9 ≤ c.pos ∨ 8 ≤ (p.map' rx).length then .next s
    else
      let s1 := s.modPort n (fun q =>
        let q1 := q.join rx c.pos
        { q1 with sendCmd := if rx then none else q1.sendCmd, peerCmd := if rx then q1.peerCmd else none })
      let s2 := (s1.settlePort n).linkErr n 0x04 .info (some c.pos)
      .next (if rx then s2.nextTrigger n else s2)
  | none => .next s

/-! ### Training and equalization (R335-R337) -/

/-- Whether some lane of a port is still training. -/
def Port.trainingLeft (p : Port) : Bool := p.lanes.any (fun l => l.rx == .train || l.tx == .train)

/-- Lanes of a direction that hold a position or may still take one. -/
def Port.busyLanes (p : Port) (rx : Bool) : Nat := (p.lanes.filter (fun l => l.dir rx == .active || l.dir rx == .train)).length
/-- A passed lane of a port in training (R332, R337): L0 to L7 hold the positions, and L8 is the spare unless one of them has failed. -/
def Port.seat (p : Port) (rx : Bool) (l : Nat) : Port :=
  if (p.map' rx).length < 8 ∧ (l < 8 ∨ p.busyLanes rx ≤ 8) then p.join rx l else p.modLane l (fun x => x.setDir rx .spare)
/-- A position that a failed lane leaves vacant in training goes to the spare. -/
def Port.fillVacant (p : Port) (rx : Bool) : Port :=
  match p.spare rx with
  | some l => if p.busyLanes rx < 8 then p.join rx l else p
  | none => p

/-- LANE_TRAINED (R337, R340, R344): training of one direction of lane `l` ends; where it is repair work, in a reserved slot (R481). In a port being
trained the lane takes its position or is the spare; in a narrowed port it widens; otherwise it becomes the spare. `rtt` is the credit round trip
training measured. -/
def execLaneTrained (t n l : Nat) (rx pass : Bool) (rtt : Nat) (s : State) : Host.Outcome State Fault Refusal :=
  let s := s.atB t
  let p := s.port n
  let repair := p.trains (p.lane l)
  if (p.lane l).dir rx ≠ .train ∨ (repair ∧ ¬ s.mayRepair .laneRetrain [laneTouch n l]) then .next s
  else
    let s0 := if repair then s.placeRepair .laneRetrain [laneTouch n l] else s
    let left := repair && (p.lane l).dir (!rx) == .train
    let s1 := s0.modPort n (fun q => { q.modLane l (fun x => { x with retrain := x.retrain && left }) with rtt := rtt })
    let s2 :=
      if ¬ pass then s1.modPort n (fun q =>
        let q1 := q.modLane l (fun x => x.setDir rx .failed)
        if p.st = .training then q1.fillVacant rx else q1)
      else if p.st = .training then s1.modPort n (fun q => q.seat rx l)
      else if (p.map' rx).length < 8 then (if rx then s1.takeTrigger n (.widen l) else s1)
      else (s1.modPort n (fun q => q.modLane l (fun x => x.setDir rx .spare))).linkErr n 0x04 .info (some l)
    let done : Bool := p.st = .training && !(s2.port n).trainingLeft
    let s3 := if done then (s2.modPort n (fun q => { q with repair := false })).settlePort n else s2
    .next (if 480 < rtt ∧ (done ∨ p.rtt ≤ 480) then s3.linkErr n 0x06 .degraded else s3)

/-- One step of a tap: at most one least significant bit (R335). -/
def tapStep (old : Int) (d : Int) : Int := old + max (-1) (min 1 d)

/-- Steps for the far transmitter's taps, as control words carry them (R335, R343). -/
def eqSteps (l : Nat) (d : List Int) : List (Nat × Nat × Nat) :=
  (List.range 4).filterMap (fun i => if d.getD (18 + i) 0 = 0 then none else some (l, i, if 0 < d.getD (18 + i) 0 then 1 else 2))

/-- EQ_ADAPT (R335): an update of a lane's taps by at most one step each, as the adaptation finds (`d`: RXFFE, DFE, CTLE, then the far transmitter's
four taps, which the control words step); a pinned lane keeps its taps. -/
def execEqAdapt (t n l : Nat) (d : List Int) (s : State) : Host.Outcome State Fault Refusal :=
  let s := s.atB t
  let x := (s.port n).lane l
  let on : Bool := x.rx == .active || x.rx == .spare || x.rx == .shadow
  if 12 ≤ n ∨ 9 ≤ l ∨ x.pin ≠ 0 ∨ ¬ on then .next s
  else .next (s.modPort n (fun p => Port.modLane { p with eqOut := p.eqOut ++ eqSteps l d } l (fun y =>
    { y with rxffe := (y.rxffe.zipIdx).map (fun v => tapStep v.1 (d.getD v.2 0)), dfe := tapStep y.dfe (d.getD 16 0),
             ctle := (max 0 (min 31 (tapStep y.ctle (d.getD 17 0)))).toNat })))

/-- Two bytes of a signed tap. -/
def tapBytes (v : Int) : List Byte := leBytes 2 (v % 65536).toNat
/-- EQREAD bytes 16 to 59: the taps (R336). -/
def Lane.taps (x : Lane) : List Byte := x.txffe.flatMap tapBytes ++ x.rxffe.flatMap tapBytes ++ leBytes 2 x.ctle ++ tapBytes x.dfe
/-- EQPIN takes effect (R336): 2 loads the taps of EQSET, at bytes 16 to 59 as in EQREAD. -/
def Lane.pinned (x : Lane) (pin set : Nat) : Lane :=
  if pin = 2 then
    let tap (i : Nat) : Int := signedOf 16 (bits set (16 * i + 143) (16 * i + 128))
    { x with pin := pin, txffe := (List.range 4).map tap, rxffe := (List.range 16).map (fun i => tap (4 + i)), ctle := bits set 463 448 % 32,
             dfe := tap 21 }
  else { x with pin := pin }

/-- EQREAD_REFRESH (R336, R360): every 2^20 codewords the readout takes the values just measured, and the port's totals gain the window's
counts. -/
def execEqreadRefresh (t n l snr : Nat) (eyeh : List Nat) (eyew csym ucw : Nat) (s : State) : Host.Outcome State Fault Refusal :=
  let s := s.atB t
  if 12 ≤ n ∨ 9 ≤ l then .next s
  else .next (s.modPort n (fun p => { p.modLane l (fun x =>
    { x with readout := leBytes 2 snr ++ (List.range 3).flatMap (fun i => leBytes 2 (eyeh.getD i 0)) ++ leBytes 2 eyew ++ leBytes 4 csym ++ leBytes 2 ucw ++
               x.taps ++ List.replicate 4 0 }) with
    csym := min (p.csym + csym) (2 ^ 64 - 1), ucw := min (p.ucw + ucw) (2 ^ 64 - 1) }))

/-! ### Writes to the objects of R360 -/

/-- LRETRAIN is refused with BUSY unless the lane is FAILED (R360). -/
def State.retrainBusy (s : State) (n l : Nat) : Bool := ((s.port n).lane l).rx != .failed && ((s.port n).lane l).tx != .failed
/-- LRETRAIN takes effect: the lane trains from the next edge's repair slots. -/
def State.applyRetrain (s : State) (n l v : Nat) : State :=
  if v = 1 then s.modPort n (fun p => p.modLane l (fun x => { x with retrain := true })) else s
/-- EQPIN or EQSET takes effect at an edge (R336). -/
def State.applyPin (s : State) (n l : Nat) : State :=
  s.modPort n (fun p => p.modLane l (fun x => x.pinned (s.obj (0x3200 + n) (0x30 + l)) (s.obj (0x3200 + n) (0x40 + l))))
/-- MODID is refused with BUSY while any port is not DOWN (R347, R360). -/
def State.modidBusy (s : State) : Bool := (List.range 12).any (fun n => (s.port n).st != .down)
/-- MODID takes effect, and the ports may train. -/
def State.applyModid (s : State) (v : Nat) : State := (s.setObj 0x2700 1 v).modLinks (fun l => { l with trainOk := true })

end Sys2Proof.Machine
end

