-- ==== Sys2Proof/Machine/Fixture.lean ====
section
/-!
DEFINITION. The ledger and admission (10_fixture_cadence.md R274-R290), and the cadence (R267-R273, R280).
-/
namespace Sys2Proof.Machine

/-! ### The table in force (R276-R279) -/

/-- T and W (R276). -/
def State.period (s : State) : Nat := s.obj 0x4001 1
def State.window (s : State) : Nat := s.obj 0x4001 2
/-! ### Cost tables (R282-R284) -/

/-- 16 fields of 16 bits in four words. -/
def fields16 (b : List Byte) (w : Nat) : List Nat :=
  (List.range 16).map (fun i => bits (reqWord b (w + i / 4)) (16 * (i % 4) + 15) (16 * (i % 4)))

/-- A phase record (R283). -/
def phaseOf (b : List Byte) : Phase :=
  let w (i : Nat) : Nat := reqWord b i
  { rev := bitAt (w 0) 63, alt := bits (w 0) 62 56, k := bits (w 0) 55 48, cclk := bits (w 0) 31 0, ns := bits (w 1) 63 32,
    gap := bits (w 1) 31 0, emb := fields16 b 2, hcls := bits (w 6) 63 60, hbm4k := bits (w 6) 55 24, euj := bits (w 6) 23 0,
    ports := bits (w 7) 63 52, fb256 := bits (w 7) 31 0 }

/-- Whether a phase record keeps R283. -/
def phaseLegal (nphase : Nat) (b : List Byte) : Bool :=
  let p := phaseOf b
  bits (reqWord b 0) 47 32 == 0 && decide (p.k ≤ 128) && bits (reqWord b 6) 59 56 == 0 && bits (reqWord b 7) 51 32 == 0 &&
  (if p.hbm4k = 0 then p.hcls == 0 else p.hcls == 2 || p.hcls == 3 || p.hcls == 4 || p.hcls == 7) &&
  (!p.rev || p.alt == 0x7F || decide (p.alt < nphase))

/-- A cost table read from its bytes up to the end of its block; none where it breaks R282 or R283. -/
def costOf (b : List Byte) : Option CostTable :=
  let w (i : Nat) : Nat := reqWord b i
  let np := bits (w 0) 63 58
  let nq := bits (w 0) 57 52
  let seq := bitAt (w 2) 63
  let pk := bits (w 2) 62 43
  let pq := bits (w 2) 42 23
  let phs := (List.range np).map (fun i => b.drop (64 + 64 * i))
  let prs := (List.range nq).map (fun i => b.drop (64 + 64 * np + 16 * i))
  if 1 ≤ np ∧ np ≤ 48 ∧ 64 * (1 + np) + 16 * nq ≤ b.length ∧ bits (w 0) 47 32 = 0 ∧ bits (w 2) 22 0 = 0 ∧ w 3 = 0 ∧
     (if seq then [16384, 32768, 65536, 131072, 262144, 524288, 1048576].contains (pk + 1) else pk == 0 && pq == 0) ∧
     phs.all (phaseLegal np) ∧ prs.all (fun x => bits (reqWord x 0) 63 40 == 0 && reqWord x 1 == 0) then
    match Class.ofCost (bits (w 0) 51 48) with
    | none => none
    | some cls => some
      { cls := cls, plan := bits (w 0) 31 0, planid := w 1, seq := seq, pklenm1 := pk, pqm1 := pq, combine := fields16 b 4,
        phases := phs.map phaseOf, peers := prs.map (fun x => (bits (reqWord x 0) 39 32, bits (reqWord x 0) 31 0)) }
  else none

/-- Slots a phase lasts (R284); CCLK is 1.2935 per ns. -/
def State.phaseSlots (s : State) (p : Phase) : Nat := cdiv (p.cclk * 10000 + (p.ns + 64) * 12935) (12935 * s.slotns)

/-! ### Capacity (R287) -/

/-- The cycles of a run of slots. -/
def State.cyclesOf (s : State) (first d : Nat) : List Nat :=
  let a := first / s.nslots
  (List.range ((first + d - 1) / s.nslots + 1 - a)).map (fun i => a + i)
/-- Whether a cycle of the ledger opens an embedding step (R211, R287). -/
def State.opensStep (s : State) (c : Nat) : Bool :=
  let k := c - s.fix.cycle
  let ev := max 1 (s.obj 0x5F00 2)
  if k = 0 then s.emb.opened
  else match s.emb.stepEdges with
    | some n => (n + k) % ev == 0
    | none => decide (1 < k) && (k - 1) % ev == 0
/-- The embedding step of a cycle, counted from the open one; past steps are negative (R287). -/
def State.stepOf (s : State) (c : Nat) : Int :=
  let ev := max 1 (s.obj 0x5F00 2)
  match s.emb.stepEdges with
  | some n => if s.fix.cycle ≤ c then ((n + (c - s.fix.cycle)) / ev : Nat) else if s.fix.cycle - c ≤ n then 0 else -1
  | none => if s.fix.cycle < c then ((c - s.fix.cycle - 1) / ev : Nat) else 0
/-- EMB time of a stack's slot in 1/256 ns (R287). -/
def State.embCap (s : State) (n : Nat) : Nat :=
  if n % s.nslots < s.obj 0x4001 5 ∧ s.opensStep (n / s.nslots) then 0
  else s.slotns * (256 - s.obj 0x4001 6) - (if slotRsv (s.entryOf n) then 256 * s.obj 0x4001 7 else 0)
/-- The regulator share of a class for admission: the lower of old and new while a change is in progress (R243). -/
def State.shareOf (s : State) (c : Nat) : Nat :=
  let k := okey 0x2410 (c + 1)
  match Table.get none s.fix.regNew k with
  | some v => min v (s.objAt k)
  | none => s.objAt k

/-- Per-slot charges of a phase lasting `d` slots (R284). -/
def embCharge (p : Phase) (d st : Nat) : Nat := cdiv (64 * p.emb.getD st 0) d
def hbmCharge (p : Phase) (d : Nat) : Nat := cdiv (256 * p.hbm4k) d
def portCharge (p : Phase) (d : Nat) : Nat := cdiv (256 * p.fb256) d
def energyCharge (p : Phase) (d : Nat) : Nat := cdiv p.euj d

/-- Whether EMB time, HBM bytes and Farast bytes fit in a slot (R287). -/
def State.slotRoom (s : State) (l : List Placement) (p : Phase) (d n : Nat) : Bool :=
  (List.range 16).all (fun st =>
    let e := embCharge p d st
    e == 0 || decide ((usedAt l n (fun x => x.emb.getD st 0) + e) * 256 ≤ s.embCap n)) &&
  (p.hbm4k == 0 || (List.range 16).all (fun st =>
    decide ((usedAt l n (fun x => if x.hcls = p.hcls then x.hbm else 0) + hbmCharge p d) * 32 ≤
      s.slotns * s.shareOf p.hcls * 10 * (32 - max (s.stack st).m (s.stack st).charged)))) &&
  (p.fb256 == 0 || (List.range 12).all (fun k => !(bitAt p.ports k) ||
    decide ((usedAt l n (fun x => if bitAt x.ports k then x.farast else 0) + portCharge p d) * 1000 ≤ s.slotns * (s.port k).charged)))

/-! ### Positions (R279, R288) -/

/-- Whether a position may take a phase: a core stands for it, no bench is asked for, and a reversible phase needs its own reversible core. -/
def State.placeable (s : State) (p : Nat) (rev : Bool) : Bool :=
  match Table.get none s.stands p with
  | none => false
  | some c => !(s.fix.noPlace.contains p) && (!rev || (decide (p % 18 < 2) && c == p))
/-- Whether a position is free for a run of slots. -/
def posFree (l : List Placement) (p n d : Nat) : Bool :=
  !(l.any (fun x => x.positions.contains p && decide (x.first < n + d) && decide (n < x.first + x.slots)))
/-- The placement that closes a position's run of free slots on its later side (R288). -/
def closing (l : List Placement) (p n : Nat) : Option Placement :=
  let after := l.filter (fun x => x.positions.contains p && decide (n ≤ x.first))
  after.find? (fun x => after.all (fun y => decide (x.first ≤ y.first)))
/-- Whether a run of slots takes in the one left free for a position's cross-check (R415). -/
def State.xcHeld (s : State) (p n d : Nat) : Bool := match Table.get none s.err.xcSlot (s.coreOf p) with | some k => decide (n ≤ k) && decide (k < n + d) | none => false
/-- Owner positions first, then fill positions, each ascending (R288). -/
def State.pickPositions (s : State) (l : List Placement) (cls : Class) (p : Phase) (n d : Nat) : Option (List Nat) :=
  let slots := (List.range d).map (fun i => s.entryOf (n + i))
  let free := (List.range 144).filter (fun x => s.placeable x p.rev && posFree l x n d && !(s.xcHeld x n d))
  let own := free.filter (fun x => slots.all (fun e => slotOwner e x == cls.code))
  let fill := free.filter (fun x =>
    !(own.contains x) && slots.all (fun e => slotOwner e x == cls.code || slotFill e x == cls.code) &&
    (closing l x (n + d)).any (fun y => y.cls.code == slotOwner (s.entryOf y.first) x))
  let got := (own ++ fill).take p.k
  if got.length = p.k then some got else none

/-! ### Placement (R288) -/

/-- A command as admission sees it: `limit` ends the ledger, `due` the due slot. -/
structure Ask where
  q : Nat
  cseq : Nat
  cost : CostTable
  limit : Nat
  due : Nat
  deriving DecidableEq, Repr

/-- Core-slots of a class in a cycle. -/
def State.coreSlots (s : State) (l : List Placement) (cls : Class) (c : Nat) : Nat :=
  ((l.filter (fun p => p.cls = cls)).map (fun p =>
    p.positions.length * (min (p.first + p.slots) ((c + 1) * s.nslots) - max p.first (c * s.nslots)))).foldl (· + ·) 0

/-- One placement for each other command that satisfies a test: its per-command charges count once. -/
def othersOnce (l : List Placement) (q cseq : Nat) (f : Placement → Bool) : List Placement :=
  (l.filter (fun p => f p && !(p.q == q && p.cseq == cseq))).foldl
    (fun a p => if a.any (fun x => x.q == p.q && x.cseq == p.cseq) then a else a ++ [p]) []

/-- EMB time a peer list charges a module. -/
def peerAt (l : List (Nat × Nat)) (m : Nat) : Nat := ((l.filter (fun p => p.1 == m)).map (·.2)).foldl (· + ·) 0

/-- Whether a placement overlaps a cycle. -/
def State.overCycle (s : State) (p : Placement) (c : Nat) : Bool :=
  decide (p.first < (c + 1) * s.nslots) && decide (c * s.nslots < p.first + p.slots)

/-- The first cap that fails at a start, in the order of R288. -/
def State.capFails (s : State) (l : List Placement) (a : Ask) (p : Phase) (n d : Nat) : Option Nat :=
  let cycles := s.cyclesOf n d
  let cls := a.cost.cls
  let overflow (c : Nat) : Nat := min (n + d) ((c + 1) * s.nslots) - max n (c * s.nslots)
  let ecap := min (s.obj 0x4400 5) (s.obj 0x4400 6) * s.slotns
  if p.k ≠ 0 ∧ cycles.any (fun c => decide (s.obj 0x4400 cls.code < s.coreSlots l cls c + p.k * overflow c)) then some 0x23
  else if p.euj ≠ 0 ∧ (List.range d).any (fun i => decide (ecap < (usedAt l (n + i) (fun x => x.energy) + energyCharge p d) * 1000)) then some 0x24
  else if cycles.any (fun c => a.cost.peers.any (fun m => m.2 != 0 &&
      decide (s.obj 0x4410 m.1 < ((othersOnce l a.q a.cseq (fun x => s.overCycle x c)).map (fun x => peerAt x.peers m.1)).foldl (· + ·) 0 + peerAt a.cost.peers m.1))) then some 0x25
  else if cycles.any (fun c => (List.range 16).any (fun st => a.cost.combine.getD st 0 != 0 &&
      decide (32768 < ((othersOnce l a.q a.cseq (fun x => (s.cyclesOf x.first x.slots).any (fun y => s.stepOf y == s.stepOf c))).map
        (fun x => x.combine.getD st 0)).foldl (· + ·) 0 + a.cost.combine.getD st 0))) then some 0x26
  else none

/-- What a start of a phase gives. -/
inductive Start
  | ok (p : Placement)
  | cap (code : Nat)
  | noRoom
  deriving DecidableEq, Repr

/-- Try one start of a phase (R288). -/
def State.tryStart (s : State) (l : List Placement) (a : Ask) (ord : Nat) (alt : Bool) (p : Phase) (d n : Nat) : Start :=
  match s.pickPositions l a.cost.cls p n d with
  | none => .noRoom
  | some pos =>
    if ¬ (List.range d).all (fun i => s.slotRoom l p d (n + i)) then .noRoom
    else match s.capFails l a p n d with
      | some c => .cap c
      | none => .ok { q := a.q, cseq := a.cseq, cls := a.cost.cls, phase := ord, first := n, slots := d, positions := pos,
                      emb := (List.range 16).map (embCharge p d), hcls := p.hcls, hbm := hbmCharge p d, ports := p.ports,
                      farast := portCharge p d, energy := energyCharge p d, peers := a.cost.peers, combine := a.cost.combine, alt := alt }

/-- The earliest start of a phase at which every room resource and every cap fits (R288). -/
def State.place (s : State) (l : List Placement) (a : Ask) (ord : Nat) (alt : Bool) (p : Phase) (d : Nat) : Nat → Nat → Option Placement
  | 0, _ => none
  | f + 1, n =>
    if a.limit < n + d then none
    else match s.tryStart l a ord alt p d n with
      | .ok x => some x
      | _ => s.place l a ord alt p d f (n + 1)

/-- The earliest start of a phase that ends by the due slot and has every room resource, and the cap that fails there (R288). -/
def State.firstRoom (s : State) (l : List Placement) (a : Ask) (ord : Nat) (p : Phase) (d : Nat) : Nat → Nat → Option (Nat × Option Nat)
  | 0, _ => none
  | f + 1, n =>
    if min a.limit a.due < n + d then none
    else match s.tryStart l a ord false p d n with
      | .ok _ => some (n, none)
      | .cap k => some (n, some k)
      | .noRoom => s.firstRoom l a ord p d f (n + 1)

/-- The first slot that starts at least `x` ns after edge `c` (R288): an edge comes no sooner than T − W after the one before, and the last slot of a
cycle runs to it. -/
def State.slotAfter (s : State) (c x : Nat) : Nat :=
  let t := s.period - s.window
  let k := cdiv (x % t) s.slotns
  if k < s.nslots then (c + x / t) * s.nslots + k else (c + x / t + 1) * s.nslots

/-- The phase used where a REV phase has no start (R288). -/
def Ask.altOf (a : Ask) (p : Phase) : Option Phase := if p.rev && p.alt != 0x7F then some (a.cost.phases.getD p.alt p) else none

/-- reason(p) of R288. -/
def State.noStart (s : State) (l : List Placement) (a : Ask) (ord : Nat) (p : Phase) (fuel t : Nat) : Nat :=
  let r := s.firstRoom l a ord p (s.phaseSlots p) fuel t
  let q := match a.altOf p with | some y => s.firstRoom l a ord y (s.phaseSlots y) fuel t | none => none
  let best := match r, q with
    | some x, some y => if y.1 < x.1 then some y else some x
    | some x, none => some x
    | none, y => y
  match best with | some (_, some k) => k | _ => 0x27

/-- Place every phase in order (R288): all placements, or the reason of the first phase that has none ending by the due slot. -/
def State.placeAll (s : State) (a : Ask) : List (Phase × Nat) → Nat → List Placement → List Placement ⊕ Nat
  | [], _, acc => .inl acc
  | (p, i) :: ps, t, acc =>
    let t1 := if i = 0 then t else s.slotAfter (t / s.nslots) (t % s.nslots * s.slotns + p.gap)
    let l := s.fix.ledger ++ acc
    let fuel := a.limit + 1 - t1
    let pos := match s.place l a i false p (s.phaseSlots p) fuel t1, a.altOf p with
      | some x, _ => some x
      | none, some q => s.place l a i true q (s.phaseSlots q) fuel t1
      | none, none => none
    match pos with
    | some x => if x.first + x.slots ≤ a.due then s.placeAll a ps (x.first + x.slots) (acc ++ [x]) else .inr (s.noStart l a i p fuel t1)
    | none => .inr (s.noStart l a i p fuel t1)

/-! ### Due slots and the decision (R285, R286) -/

/-- The check of a due slot (R286): a reason, or the absolute slot. -/
def State.checkDue (s : State) (duecyc dueslot : Nat) : Nat ⊕ Nat :=
  if s.nslots ≤ dueslot then .inl 0x22
  else if serialLt duecyc s.cyc 32 then .inl 0x21
  else if duecyc = s.cyc ∧ dueslot < s.slot then .inl 0x21
  else
    let d := (duecyc + 2 ^ 32 - s.cyc) % 2 ^ 32
    if 65536 < d then .inl 0x22 else .inr ((s.fix.cycle + d) * s.nslots + dueslot)

/-- Whether the cadence state allows a class (R269, R270). -/
def State.cadenceAllows (s : State) (c : Class) : Bool :=
  s.fix.lastEdge.isSome &&
  match s.fix.cad with
  | .free => false
  | .unlocked => c = .bulk
  | _ => true

/-- The first slot that starts at least 2,048 ns after the decision (R288). -/
def State.leadSlot (s : State) : Nat := s.slotAfter s.fix.cycle (s.bclk + 2048 - s.fix.lastEdge.getD s.bclk)

/-- What admission decides. -/
inductive Decision
  | refuse (st : Status) (reason : Nat)
  | empty
  | accept (l : List Placement) (due : Option (Nat × Nat))
  deriving DecidableEq, Repr

/-- Checks 3 to 6 of R285, after the cost table's and shape checks. -/
def State.decideRoom (s : State) (q cseq : Nat) (cost : CostTable) (duecyc dueslot : Nat) : Decision :=
  if ¬ s.cadenceAllows cost.cls then .refuse .overBudget 0x20
  else
    let due := if cost.cls = .bulk then none else some (s.checkDue duecyc dueslot)
    match due with
    | some (.inl r) => .refuse .overBudget r
    | _ =>
      let ledgerEnd := (s.fix.cycle + 32) * s.nslots
      let draining := decide (s.fix.fixstate = .draining)
      let lim := match draining, s.fix.fixTarget with
        | true, some c => min ledgerEnd ((s.fix.cycle + (if serialLt c s.cyc 32 then 0 else (c + 2 ^ 32 - s.cyc) % 2 ^ 32)) * s.nslots)
        | _, _ => ledgerEnd
      match s.placeAll ⟨q, cseq, cost, lim, match due with | some (.inr n) => n + 1 | _ => ledgerEnd⟩ cost.phases.zipIdx s.leadSlot [] with
      | .inl l => .accept l (if cost.cls = .bulk then none else some (duecyc, dueslot))
      | .inr r => .refuse .overBudget (if draining then 0x28 else r)

/-- Charge the placements of an admitted command and enter them in the placement log (R288, R417). -/
def State.charge (s : State) (ref : Nat) (l : List Placement) : State :=
  let log (p : Placement) : PlaceEntry :=
    ⟨ref, p.first / s.nslots % 2 ^ 32, p.first % s.nslots, p.slots, p.positions.foldl (fun a x => a + 2 ^ x) 0⟩
  (s.modFix (fun f => { f with ledger := f.ledger ++ l })).modErr (fun e =>
    let all := e.placeLog ++ l.map log
    { e with placeLog := all.drop (all.length - 65536) })

/-- Count for a class: classes 1 to 4 at list places 0 to 3 (R294). -/
def bumpClass (l : List Nat) (c : Class) : List Nat := listSet l (c.code - 1) (satInc (l.getD (c.code - 1) 0) 64)

/-! ### Cadence (R268-R273) -/

/-- A change of cadence state posts its record (R269, R523). -/
def State.setCad (s : State) (c : CadState) : State :=
  if s.fix.cad = c then s
  else
    let s1 := s.modFix (fun f => { f with cad := c, consistent := if c = .unlocked then 0 else f.consistent, lastSeen := if c = .unlocked then none else f.lastSeen })
    let rec' (sev : Sev) (k : Nat) : State := s1.postErr { cls := .cadence, sev := sev, cause := k, ukind := .fixtureEngine }
    match c with
    | .free => s1
    | .locked => rec' .info 1
    | .holdover => rec' .degraded 2
    | .unlocked => rec' .degraded 3
    | .internal => rec' .info 4

/-- Announce an edge (R33, R268): its BCLK and the state it brings. -/
def State.announce (s : State) (e : Nat) (c : CadState) (hold : Nat) : State :=
  s.modFix (fun f => { f with edgeDue := some e, nextCad := some (c, hold) })
/-- A stray pulse (R268). -/
def State.stray (s : State) : State := s.modFix (fun f => { f with strays := satInc f.strays 64 })
/-- Whether two times differ by at most W. -/
def State.near (s : State) (a b : Nat) : Bool := decide (a ≤ b + s.window) && decide (b ≤ a + s.window)

/-- A pulse in UNLOCKED (R271): consistent pulses are counted; the fourth, or the one after it, gives the relock's edge. -/
def State.relockPulse (s : State) : State :=
  let t := s.bclk
  let f := s.fix
  let last := f.lastEdge.getD 0
  match f.relockWait with
  | some p4 =>
    if s.near t (p4 + s.period) then
      (s.modFix (fun g => { g with relockWait := none, pulse := some t })).announce (t + 64) .locked 0
    else s
  | none =>
    let n := match f.lastSeen with
      | some l => if s.near t (l + s.period) then f.consistent + 1 else 1
      | none => 1
    let s1 := s.modFix (fun g => { g with consistent := n, lastSeen := some t })
    if n < 4 then s1
    else if f.edgeDue.isNone ∧ last + (s.period - s.window) ≤ t + 64 then
      (s1.modFix (fun g => { g with pulse := some t })).announce (t + 64) .locked 0
    else s1.modFix (fun g => { g with relockWait := some t })

/-- CADENCE_PULSE (R268, R269, R271, R272): a registered pulse is accepted, counts toward a relock, or is a stray. -/
def execCadencePulse (t : Nat) (s : State) : Host.Outcome State Fault Refusal :=
  let s := s.atB t
  match s.fix.cad with
  | .free =>
    if s.fix.ready ∧ s.fix.edgeDue = none then
      .next ((s.modFix (fun f => { f with pulse := some s.bclk })).announce (s.bclk + 64) .locked 0)
    else .next s.stray
  | .internal => .next s.stray
  | .unlocked => .next s.relockPulse
  | _ =>
    match s.fix.pulse, s.fix.edgeDue with
    | some p, none =>
      if s.near s.bclk (p + s.period) then
        .next ((s.modFix (fun f => { f with pulse := some s.bclk })).announce
          (max (s.bclk + 64) (s.fix.lastEdge.getD 0 + (s.period - s.window))) .locked 0)
      else .next s.stray
    | _, _ => .next s.stray

/-- MADE_EDGE (R268, R269, R272): the engine makes an edge on the internal reference. -/
def execMadeEdge (t : Nat) (s : State) : Host.Outcome State Fault Refusal :=
  let s := s.atB t
  let f := s.fix
  match f.edgeDue, f.lastEdge with
  | none, some last =>
    let tp := s.period
    if f.cad = .internal then
      if last + tp ≤ s.bclk + 64 then .next (s.announce (last + tp) .internal 0) else .next s
    else if f.relockWait.isSome then .next s
    else match f.pulse with
      | none => .next s
      | some p =>
        let due := p + tp + s.window
        if s.bclk < due then .next s
        else
          let s1 := s.modFix (fun g => { g with pulse := some (p + tp) })
          match f.cad with
          | .locked => .next (s1.announce (due + 64) .holdover 1)
          | .holdover => .next (if 64 < f.holdcnt + 1 then s1.announce (due + 64) .unlocked 64 else s1.announce (due + 64) .holdover (f.holdcnt + 1))
          | _ => .next (s1.announce (due + 64) .unlocked f.holdcnt)
  | _, _ => .next s

/-- RELOCK_FAILURE (R271): the edge is made at the last edge + 2T, the state stays UNLOCKED and the count starts again. -/
def execRelockFailure (t : Nat) (s : State) : Host.Outcome State Fault Refusal :=
  let s := s.atB t
  let f := s.fix
  match f.relockWait, f.edgeDue, f.lastEdge with
  | some p4, none, some last =>
    if p4 + s.period + s.window ≤ s.bclk then
      let e := last + 2 * s.period
      let s1 := s.modFix (fun g =>
        { g with relockWait := none, consistent := 0, lastSeen := none, pulse := some (e - 64 - s.window) })
      .next ((s1.announce e .unlocked f.holdcnt).postErr { cls := .cadence, sev := .degraded, cause := 3, ukind := .fixtureEngine })
    else .next s
  | _, _, _ => .next s

/-- CADSRC takes effect (R272): from FREE at once, else at the edge. -/
def State.applyCadsrc (s : State) (v : Nat) : State :=
  let s1 := s.setObj 0x4500 1 v
  let last := s.fix.lastEdge.getD s.bclk
  if v = 1 then
    match s.fix.cad with
    | .internal => s1
    | _ => (s1.setCad .internal).modFix (fun f => { f with holdcnt := 0, relockWait := none })
  else match s.fix.cad with
    | .internal => (s1.setCad .unlocked).modFix (fun f => { f with pulse := some (last - 64 - s.window), relockWait := none })
    | _ => s1
/-- A CADSRC write of internal accepted in FREE (R272): the first edge falls 64 BCLK later; one already announced is not moved. -/
def State.cadsrcFree (s : State) : State :=
  let s1 := s.setObj 0x4500 1 1
  match s.fix.edgeDue with
  | some e => s1.announce e .internal 0
  | none => (s1.setCad .internal).announce (s.bclk + 64) .internal 0

/-- PPS_EDGE (R273): the first edge after a write of TODNEXT loads EXT_TIME. -/
def execPpsEdge (t : Nat) (s : State) : Host.Outcome State Fault Refusal :=
  let s := s.atB t
  .next (s.modFix (fun f => match f.todArmed with
    | some v => { f with ppsLost := false, lastPps := some s.bclk, extBase := (v + 2 ^ 64 - s.bclk % 2 ^ 64) % 2 ^ 64, todArmed := none }
    | none => { f with ppsLost := false, lastPps := some s.bclk }))

/-- PPS_LOST (R273, R294): no TIME_PPS edge for 1.1 s; nothing else changes. -/
def execPpsLost (t : Nat) (s : State) : Host.Outcome State Fault Refusal :=
  let s := s.atB t
  match s.fix.lastPps with
  | some l => if l + 1100000000 < s.bclk then .next (s.modFix (fun f => { f with ppsLost := true })) else .next s
  | none => .next s

/-! ### Table generations (R280) -/

/-- Whether the pending copy keeps the ranges of R276, the rules of R278, and has a reserved slot (R280 step 2). -/
def State.pendingLegal (s : State) : Bool :=
  let h (i : Nat) : Nat := s.obj 0x4000 i
  decide (250000 ≤ h 1) && decide (h 1 ≤ 10000000) && decide (100 ≤ h 2) && decide (100 * h 2 ≤ h 1) && decide (1 ≤ h 3) && decide (h 3 ≤ 256) &&
  decide (1000 ≤ h 4) && decide (h 3 * h 4 ≤ h 1 - h 2) && decide (h 5 < h 3) && decide (h 7 ≤ h 4) &&
  (List.range (h 3)).any (fun k => slotRsv (s.obj 0x4100 k)) &&
  (List.range (h 3)).all (fun k =>
    let e := s.obj 0x4100 k
    (List.range 144).all (fun p =>
      decide (slotOwner e p ≤ 6) && decide (slotFill e p ≤ 4) && (slotFill e p == 0 || slotFill e p != slotOwner e p)))

/-- Whether the pending copy has the active copy's CYCNS, CADWIN, NSLOTS and SLOTNS (R280 step 3). -/
def State.sameGeometry (s : State) : Bool := [1, 2, 3, 4].all (fun i => s.obj 0x4000 i == s.obj 0x4001 i)

/-- FIXCOMMIT takes effect within action 3 of an edge (R280 steps 2 to 4, R427): the pending copy is validated, and the swap is armed, for
this edge where the value is 0, or admission drains. -/
def State.applyFixcommit (s : State) (v : Nat) : State :=
  let s1 := s.setObj 0x4300 1 v
  if ¬ s1.pendingLegal then
    (s1.modFix (fun f => { f with fixstate := .refused, fixTarget := none })).postErr { cls := .config, sev := .info, cause := 2, ukind := .fixtureEngine }
  else s1.modFix (fun f => { f with fixstate := if s1.sameGeometry then .armed else .draining,
                                    fixTarget := some (if v = 0 then s.cyc else v) })

/-- Whether a FIXCOMMIT write waits for its edge or its swap is armed or DRAINING (R429). -/
def State.fixArmed (s : State) : Bool := s.fix.fixTarget.isSome || s.marmas.live.any (fun w => w.key == okey 0x4300 1)
/-- FIXSTATE as read (R294, R429): armed from the FIXCOMMIT write on. -/
def State.fixState (s : State) : Nat := if s.fix.fixstate = .draining then 2 else if s.fixArmed then 1 else s.fix.fixstate.code

/-- The swap at an edge (R280 steps 3 to 5), with `s.cyc` the cycle that opens. Where NSLOTS changes, what the ledger still lists of past
cycles is renumbered. -/
def State.tableEdge (s : State) : State :=
  match s.fix.fixTarget with
  | none => s
  | some c =>
    if serialLt s.cyc c 32 ∨ (s.fix.fixstate = .draining ∧ s.fix.ledger.any (fun p => decide (s.fix.cycle * s.nslots < p.first + p.slots))) then s
    else
      let n := s.nslots
      let s1 := [1, 2, 3, 4, 5, 6, 7].foldl (fun x i => x.setObj 0x4001 i (x.obj 0x4000 i)) s
      let s2 := (List.range 256).foldl (fun x k =>
        match Table.get none x.objVals (okey 0x4100 k), Table.get none x.objVals (okey 0x4200 k) with
        | none, none => x
        | _, _ => x.setObj 0x4200 k (x.obj 0x4100 k)) s1
      let m := s2.nslots
      let move (p : Placement) : Placement :=
        if m = n then p else { p with first := p.first / n * m, slots := ((p.first + p.slots - 1) / n - p.first / n) * m + 1 }
      s2.modFix (fun f => { f with fixstate := .nothing, fixTarget := none, fixgen := f.fixgen + 1, ledger := f.ledger.map move })

end Sys2Proof.Machine
end

