-- ==== Sys2Proof/Machine/CfeBuffers.lean ====
section
/-!
DEFINITION. The Command Front End's reads and writes, and its buffers (11_command_front_end.md R298, R302-R309): checks, records,
and the taking of buffers.
-/
namespace Sys2Proof.Machine

/-! ### Reads and writes of the CFE -/

/-- The translation unit of the CFE (R252). -/
def cfeXu : Nat := 160

/-- Bytes that came from outside, by address. -/
def findRange (f : ReadFind) (a n : Nat) : Option (List Byte) :=
  f.data.findSome? (fun d => if d.1 ≤ a ∧ a + n ≤ d.1 + d.2.length then some ((d.2.drop (a - d.1)).take n) else none)
/-- Whether data from outside come poisoned. -/
def findPoison (f : ReadFind) (a n : Nat) : Bool := f.poison.any (fun p => decide (a ≤ p) && decide (p < a + n))

/-- The answer to a read through a window, asked for by a READ packet at the first attempt (R262, R264). -/
def State.winRead (s : State) (a n w off : Nat) : State × Moved (List Byte) :=
  match s.cfe.winReads.find? (fun r => r.dva == a && r.len == n) with
  | some ⟨_, _, some bs, _⟩ => (s, .ok bs)
  | some ⟨_, _, none, some c⟩ => (s, .fault (if c = .xlate then xlateFault cfeXu 7 a 0 { case := 8 } else { cause := c, dva := a }))
  | some ⟨_, _, none, none⟩ => (s, .wait)
  | none =>
    let e := s.outWin w
    ((s.modCfe (fun f => { f with winReads := f.winReads ++ [{ dva := a, len := n }] })).sendRequest
      { op := 0x02, dst := bits e 55 48, w1 := bits e 43 32 * 2 ^ 40 + off, w2 := 7 * 2 ^ 53 + n } (.cfeRead a n), .wait)

/-- Read one run within a page for the CFE or the Fixture engine. -/
def State.cfeReadRun (s : State) (f : ReadFind) (a n : Nat) : State × Moved (List Byte) :=
  andThen (s.resolve cfeXu a n false f.table) (fun s1 pl =>
    match pl with
    | .dram d =>
      let bi := s1.biNeeded d n false
      let blk := d / 4096 * 4096
      if bi ≠ [] ∨ s1.skims d then (s1.askBi bi false, .wait)
      else match s1.foundAt d (if f.ue.contains blk then .uncorrectable else .ok) with
        | (s2, .uncorrectable) => (s2, .fault (s2.ueFault a d))
        | (s2, _) =>
          if s2.isBad d then (s2, .fault (s2.ueFault a d))
          else if f.sealBad.contains blk || s2.sealFails pl n then (s2, .fault { cause := .seal, dva := a, dpa := d })
          else ((s2.endBi d n).cacheRead d 7, .ok (s2.readDpa d n))
    | .spm c off =>
      if s1.isLost pl n then (s1, .fault { cause := .uncorrectable, dva := a })
      else if s1.sealFails pl n then (s1, .fault { cause := .seal, dva := a })
      else (s1, .ok ((s1.coreNow c).spm.readBytes off n))
    | .host h =>
      if ¬ s1.hostReachable then (s1, .fault { cause := .hostUnreachable, dva := a, dpa := h })
      else if findPoison f h n then
        (s1.modHost (fun k => { k with poisonRx := satInc k.poisonRx 64 }), .fault { cause := .hostPoison, dva := a, dpa := h })
      else match findRange f h n with
        | some bs => if s1.hostFull (hostLines h n) then (s1, .wait) else ((s1.modHost (fun k => { k with nextId := k.nextId + 1 })).emitAll (readRequests s1.host.nextId h n), .ok bs)
        | none => (s1, .wait)
    | .window w off => s1.winRead a n w off
    | _ => (s1.xlFault, .fault (xlateFault cfeXu 7 a 0 { case := 6 })))

/-- Read runs in order; the first that waits or fails ends the read. -/
def State.cfeReadRuns (s : State) (f : ReadFind) : List (Nat × Nat) → State × Moved (List Byte)
  | [] => (s, .ok [])
  | (a, n) :: l => andThen (s.cfeReadRun f a n) (fun s1 bs => andThen (s1.cfeReadRuns f l) (fun s2 r => (s2, .ok (bs ++ r))))

/-- Read `n` bytes at a DVA; a read that has ended keeps no answer of a window. -/
def State.cfeRead (s : State) (f : ReadFind) (a n : Nat) : State × Moved (List Byte) :=
  let runs := rowRuns a n n (n / 4096 + 2) 0 n
  match s.cfeReadRuns f runs with
  | (s1, .wait) => (s1, .wait)
  | (s1, r) => (s1.modCfe (fun c => { c with winReads := c.winReads.filter (fun w => !(runs.contains (w.dva, w.len))) }), r)

/-- Where the runs of a write lie. -/
def State.cfePlaces (s : State) (f : ReadFind) : List (Nat × Nat) → State × Moved (List (Place × Nat × Nat))
  | [] => (s, .ok [])
  | (a, n) :: l => andThen (s.resolve cfeXu a n true f.table) (fun s1 pl => andThen (s1.cfePlaces f l) (fun s2 r => (s2, .ok ((pl, a, n) :: r))))

/-- One run of a write. -/
def State.cfeWriteRun (s : State) (ref : Nat) (ring : Option Nat) (pl : Place) (a : Nat) (bs : List Byte) : State × Moved Unit :=
  match pl with
  | .dram d => ((s.writeDpa d bs).endBi d bs.length, .ok ())
  | .spm c off => ((splitBlocks 8193 off bs).foldl (fun y b => y.bgWrite c b.1 b.2) s, .ok ())
  | .host h => (s.storeHost ref none ring h bs, .ok ())
  | .window w off =>
    let e := s.outWin w
    (s.sendRequest { op := 0x01, dst := bits e 55 48, w1 := bits e 43 32 * 2 ^ 40 + off, w2 := 7 * 2 ^ 53, cmdref := ref, payload := bs } (.cfe ref), .ok ())
  | _ => (s.xlFault, .fault (xlateFault cfeXu 7 a 0 { case := 6 }))

/-- The runs of a write in order. -/
def State.cfeWriteRuns (s : State) (ref : Nat) (ring : Option Nat) : List (Place × Nat × Nat) → List Byte → State × Moved Unit
  | [], _ => (s, .ok ())
  | (pl, a, n) :: l, bs => andThen (s.cfeWriteRun ref ring pl a (bs.take n)) (fun s1 _ => s1.cfeWriteRuns ref ring l (bs.drop n))

/-- Write bytes at a DVA: every run is translated before any byte is written (R257); a block written in part has its old bytes read (R237). -/
def State.cfeWrite (s : State) (f : ReadFind) (ref a : Nat) (bs : List Byte) (ring : Option Nat := none) : State × Moved Unit :=
  andThen (s.cfePlaces f (rowRuns a bs.length bs.length (bs.length / 4096 + 2) 0 bs.length)) (fun s1 pls =>
    match s1.placesWait true pls with
    | (s2, true) => (s2, .wait)
    | (s2, false) =>
      let runs := joinRuns pls bs
      match s2.oldBytes runs (fun d => f.ue.contains (d / 4096 * 4096)) with
      | (s3, some d) => (s3, .fault (s3.ueFault a d))
      | (s3, none) => s3.cfeWriteRuns ref ring pls bs)

/-- Whether a DVA leads to host memory, as the CFE finds it. -/
def State.cfeHost (s : State) (a : Nat) : Bool :=
  match (s.resolve cfeXu a 1 false none).2 with | .ok (.host _) => true | _ => false

/-! ### Submission entries and buffers (R298, R302-R307) -/

/-- A submission entry keeps R298. -/
def entryLegal (w0 w1 : Nat) : Bool :=
  bits w0 63 52 == 0 && bits w0 5 0 == 0 && bits w1 63 17 == 0 && bits w1 5 0 == 0 && decide (128 ≤ bits w1 16 0) && decide (bits w1 16 0 ≤ 65536)

/-- A command found in a buffer. -/
structure Parsed where
  kind : CmdKind
  tag : Nat := 0
  pds : List Nat := []
  deriving DecidableEq, Repr

/-- The record at an offset: its words. -/
def recWord (b : List Byte) (off i : Nat) : Nat := reqWord (b.drop off) i

/-- Predecessor distances of a record, none where R304 or R309 is broken. -/
def predsOf (w0 w5 : Nat) : Option (List Nat) :=
  let n := bits w0 9 7
  let pd (i : Nat) : Nat := bits w5 (16 * i + 15) (16 * i)
  if n ≤ 4 ∧ (List.range 4).all (fun i => if i < n then pd i != 0 else pd i == 0) then some ((List.range n).map pd) else none

/-- A list lies wholly in the data area (R306). -/
def inData (recend len off n : Nat) : Bool := decide (recend ≤ off) && decide (off + n ≤ len)

/-- The 16 B entries of a list. -/
def listEntries (b : List Byte) (off n : Nat) : List (Nat × Nat) :=
  if off = 0 then [] else (List.range n).map (fun i => (recWord b (off + 16 * i) 0, recWord b (off + 16 * i) 1))

/-- A request entry keeps R306. -/
def reqLegal (e : Nat × Nat) : Bool :=
  bits e.1 63 52 == 0 && bits e.2 61 56 == 0 && bits e.2 51 32 == 0 && bits e.2 63 62 != 3 && (bits e.2 63 62 != 2 || bits e.2 55 52 == 0)
/-- An output entry keeps R306. -/
def outLegal (i : Nat) (e : Nat × Nat) : Bool :=
  bits e.1 62 52 == 0 && bits e.2 63 32 == 0 && (!(bitAt e.1 63) || (i == 0 && decide (bits e.2 31 0 ≤ 32)))

/-- The offsets and lists of a RUN or REPEAT keep R304 and R306. -/
def runLists (b : List Byte) (recend len : Nat) (r : RunRec) : Bool :=
  r.argoff % 64 == 0 && r.seqoff % 16 == 0 && r.reqoff % 16 == 0 && r.outoff % 16 == 0 &&
  (r.argoff == 0 || inData recend len r.argoff r.arglen) &&
  (r.seqoff == 0 || inData recend len r.seqoff (16 * r.valid)) &&
  (r.reqoff == 0 || (inData recend len r.reqoff (16 * r.nreq) && (listEntries b r.reqoff r.nreq).all reqLegal)) &&
  (r.outoff == 0 || (inData recend len r.outoff (16 * r.nout) && (listEntries b r.outoff r.nout).zipIdx.all (fun e => outLegal e.2 e.1)))

/-- A RUN record (R304). -/
def runOf (b : List Byte) (off recend len : Nat) : Option (RunRec × Parsed) :=
  let w (i : Nat) : Nat := recWord b off i
  let r : RunRec :=
    { duecyc := bits (w 0) 63 32, dueslot := bits (w 0) 31 24, argspm := bits (w 0) 23 11, rel := bitAt (w 0) 10,
      cost := bits (w 1) 51 0, valid := bits (w 2) 63 32, argoff := bits (w 2) 31 16, arglen := 64 * (bits (w 2) 15 10 + 1),
      spawn := bits (w 3) 51 0, seqoff := bits (w 4) 63 48, reqoff := bits (w 4) 47 32, outoff := bits (w 4) 31 16,
      nout := bits (w 4) 15 10, nreq := bits (w 4) 9 0 }
  match predsOf (w 0) (w 5) with
  | none => none
  | some pds =>
    if r.argspm ≤ 6143 ∧ bitAt (w 0) 6 = false ∧ bits (w 1) 63 52 = 0 ∧ bits (w 2) 9 0 = 0 ∧ (r.argoff ≠ 0 ∨ bits (w 2) 15 10 = 0) ∧
       bits (w 3) 63 52 = 0 ∧ r.spawn % 256 = 0 ∧ w 7 = 0 ∧ runLists b recend len r then
      some (r, { kind := .run r, tag := w 6, pds := pds })
    else none

/-- A REPEAT after a RUN, the `n`th since it (R305). -/
def repeatOf (b : List Byte) (off recend len n : Nat) (base : RunRec × Parsed) : Option Parsed :=
  let lo := recWord b off 0
  let hi := recWord b off 1
  let r : RunRec :=
    { base.1 with valid := bits hi 63 32, outoff := bits hi 31 16, reqoff := bits hi 15 0, seqoff := bits lo 63 48,
                  argoff := bits lo 47 32, spawn := 0, rep := true }
  if bits lo 31 6 = 0 ∧ runLists b recend len r then
    some { kind := .run r, tag := (base.2.tag + n) % 2 ^ 64, pds := base.2.pds }
  else none

/-- A NOP (R304). -/
def nopOf (b : List Byte) (off : Nat) : Option Parsed :=
  let w (i : Nat) : Nat := recWord b off i
  match predsOf (w 0) (w 5) with
  | none => none
  | some pds =>
    if bits (w 0) 63 10 = 0 ∧ bitAt (w 0) 6 = false ∧ w 1 = 0 ∧ w 2 = 0 ∧ w 3 = 0 ∧ w 4 = 0 ∧ w 7 = 0 then
      some { kind := .nop, tag := w 6, pds := pds }
    else none

/-- An admin record (R323): a field that is not named and not 0 is noted. -/
def adminOf (b : List Byte) (off kind : Nat) : Parsed :=
  let w (i : Nat) : Nat := recWord b off i
  let sq := bits (w 1) 59 52
  let rest := bits (w 0) 63 6 + w 4 + w 5 + w 6 + w 7
  let bad : Nat :=
    match kind with
    | 0x10 => sq + bits (w 2) 13 0 + bits (w 3) 15 0
    | 0x11 => sq + bits (w 2) 63 32 + bits (w 2) 11 0 + bits (w 3) 63 16
    | 0x12 | 0x13 => w 1 + w 3 + bits (w 2) 63 32 + bits (w 2) 23 0
    | 0x14 => w 1 + w 3 + bits (w 2) 63 32 + bits (w 2) 21 0
    | 0x15 => w 1 + bits (w 2) 63 32 + bits (w 2) 23 0 + bits (w 3) 15 0
    | 0x16 | 0x17 => sq + w 3 + bits (w 2) 63 32 + bits (w 2) 23 0
    | _ => 0
  { kind := .admin kind (w 1) (w 2) (w 3) (rest + bad != 0) }

/-- The records of a buffer from offset `off` on (R303-R305); `base` is the nearest RUN before, with the REPEATs since. None where a
record breaks a rule. -/
def parseRecs (admin : Bool) (b : List Byte) (recend len : Nat) : Nat → Nat → Option (RunRec × Parsed) → Nat → Option (List Parsed)
  | 0, _, _, _ => none
  | f + 1, off, base, n =>
    if recend ≤ off then some []
    else
      let kind := bits (recWord b off 0) 5 0
      let big := decide (off + 64 ≤ recend)
      let cons (p : Option Parsed) (next : Nat) (base : Option (RunRec × Parsed)) (n : Nat) : Option (List Parsed) :=
        match p with
        | none => none
        | some x => (parseRecs admin b recend len f next base n).map (fun l => x :: l)
      let refused (x : Parsed) : Parsed := if admin then { kind := .refusedRecord, tag := x.tag } else x
      match kind with
      | 0x00 => if recWord b off 0 = 0 ∧ recWord b off 1 = 0 then parseRecs admin b recend len f (off + 16) base n else none
      | 0x01 =>
        if big then
          match runOf b off recend len with
          | some r => cons (some (refused r.2)) (off + 64) (some r) 0
          | none => none
        else none
      | 0x02 => if big then cons (nopOf b off) (off + 64) base n else none
      | 0x03 =>
        match base with
        | none => none
        | some r => cons ((repeatOf b off recend len (n + 1) r).map refused) (off + 16) base (n + 1)
      | _ =>
        if admin && decide (0x10 ≤ kind) && decide (kind ≤ 0x17) && big then cons (some (adminOf b off kind)) (off + 64) base n else none

/-- BCRC of a buffer (R302): CRC-32C with the field read as 0. -/
def bcrcOf (b : List Byte) : Nat := (crc32c (b.take 4 ++ [0, 0, 0, 0] ++ b.drop 8)).toNat

/-- The commands of a buffer, or the cause of its failure (R302-R307). -/
def parseBuffer (admin : Bool) (b : List Byte) (len : Nat) : List Parsed ⊕ Cause :=
  let w (i : Nat) : Nat := reqWord b i
  let recend := bits (w 1) 15 0 + 1
  let formOk : Bool := bits (w 0) 31 28 == 0 && bits (w 0) 15 0 + 1 == len && bits (w 1) 63 16 == 0 && recend % 16 == 0 &&
    decide (128 ≤ recend) && decide (recend ≤ len) && w 2 == 0 && w 3 == 0 && w 4 == 0 && w 5 == 0 && w 6 == 0 && w 7 == 0
  match (if formOk then parseRecs admin b recend len 4097 64 none 0 else none) with
  | some l =>
    if l.length = bits (w 0) 27 16 + 1 then (if bits (w 0) 63 32 = bcrcOf b then .inl l else .inr .seal) else .inr .bufferFormat
  | none => .inr .bufferFormat

/-! ### Commands of a queue -/

/-- The commands of a queue in CSEQ order. -/
def Cfe.cmdsOf (f : Cfe) (q : Nat) : List Cmd := f.cmds.filter (fun c => c.q == q)
/-- A buffer. -/
def Cfe.buffer (f : Cfe) (id : Nat) : Option Buffer := f.buffers.find? (fun b => b.id == id)
/-- KiB of store a buffer takes, in 4 KiB pages (R318). -/
def Buffer.kib (b : Buffer) : Nat := 4 * cdiv b.len 4096
/-- Store used by a queue, and by all queues but Q0 (R318). -/
def Cfe.kibOf (f : Cfe) (q : Nat) : Nat := ((f.buffers.filter (fun b => b.q == q)).map Buffer.kib).foldl (· + ·) 0
def Cfe.kibAll (f : Cfe) : Nat := ((f.buffers.filter (fun b => b.q != 0)).map Buffer.kib).foldl (· + ·) 0
/-- The argument bytes, lists and data of a command. -/
def Cfe.bytesOf (f : Cfe) (c : Cmd) : List Byte := match f.buffer c.buf with | some b => b.bytes | none => []

/-- How a command's predecessors stand (R309): some failed, all succeeded, or neither. -/
inductive Preds
  | failed | succeeded | pending
  deriving DecidableEq, Repr
def Queue.preds (qu : Queue) (c : Cmd) : Preds :=
  let one (pd : Nat) : Preds :=
    if c.assigned < pd then .failed
    else match qu.success.find? (fun x => x.1 == (c.cseq + 2 ^ 32 - pd) % 2 ^ 32) with
      | some x => if x.2 then .succeeded else .failed
      | none => .pending
  let l := c.pds.map one
  if l.contains .failed then .failed else if l.contains .pending then .pending else .succeeded

/-- Commands whose predecessors have all succeeded become READY, those with a failed one CANCELLED with PREDFAIL (R309, R319). -/
def State.settle (s : State) (q : Nat) : State :=
  let qu := s.cfe.queue q
  s.modCfe (fun f => { f with cmds := f.cmds.map (fun c =>
    if c.q = q ∧ (c.st = .fetched ∨ c.st = .waitPred) then
      match qu.preds c with
      | .failed => { c with st := .done, status := some .cancelled, predfail := true }
      | .succeeded => { c with st := .ready }
      | .pending => { c with st := .waitPred }
    else c) })

/-- Take a buffer (R296, R307, R308): its commands get consecutive CSEQs. One that failed its checks is one command, which faults, or on Q0
completes CANCELLED with ADMERR 0x05. -/
def State.takeBuffer (s : State) (b : Buffer) : State :=
  let qu := s.cfe.queue b.q
  let found : List Parsed ⊕ Cause := match b.bad with
    | some c => .inr c
    | none => parseBuffer (b.q == 0) b.bytes b.len
  let l := match found with
    | .inl l => l
    | .inr c => [{ kind := .faulty c }]
  let mk (x : Parsed × Nat) : Cmd :=
    let c : Cmd := { q := b.q, cseq := (qu.nextseq.toNat + x.2) % 2 ^ 32, incarn := qu.incarn, buf := b.id, kind := x.1.kind, tag := x.1.tag,
                     pds := x.1.pds, assigned := qu.assigned + x.2 }
    match x.1.kind with
    | .refusedRecord => { c with st := .done, status := some .cancelled, admerr := 2 }
    | .faulty _ => if b.q = 0 then { c with st := .done, status := some .cancelled, admerr := 5 } else { c with st := .running }
    | .admin _ _ _ _ _ => { c with st := .ready }
    | _ => c
  let s1 := s.modCfe (fun f =>
    { f.modQueue b.q (fun x => { x with nextseq := x.nextseq + BitVec.ofNat 32 l.length, assigned := x.assigned + l.length }) with
      cmds := f.cmds ++ l.zipIdx.map mk,
      buffers := f.buffers.map (fun y => if y.id = b.id then { y with taken := true } else y) })
  let s2 := match found with
    | .inr c => if b.q = 0 then s1 else s1.faultCommand { cause := c, engine := .cfe, cmdref := cmdRef b.q qu.incarn qu.nextseq.toNat }
    | .inl _ => s1
  s2.settle b.q

/-- Commands in a held buffer, for QMAXCMD (R318). -/
def Buffer.count (b : Buffer) : Nat :=
  match b.bad with
  | some _ => 1
  | none => match parseBuffer (b.q == 0) b.bytes b.len with | .inl l => l.length | .inr _ => 1

end Sys2Proof.Machine
end

