-- ==== Sys2Proof/Machine/Rings.lean ====
section
/-!
DEFINITION. Completion rings, the overflow ring and completion records (11_command_front_end.md R312-R317), doorbells and fetching
(R299-R301, R318).
-/
namespace Sys2Proof.Machine

/-! ### Rings (R316, R317) -/

/-- Entries of a ring. -/
def ringSize (szlogm4 : Nat) : Nat := 2 ^ (szlogm4 + 4)
/-- Whether a ring is full (R316). -/
def Ring.full (r : Ring) : Bool := decide (ringSize r.szlogm4 ≤ (r.ctail - r.chead).toNat)
/-- Records of a ring in the overflow ring. -/
def Cfe.parkedOf (f : Cfe) (r : Nat) : Nat := (f.parked.filter (fun p => p.ring == r)).length

/-- Whether queues and rings other than Q0 and CR0 may use host memory (R327). -/
def State.hostFor (s : State) (admin : Bool) : Bool := s.host.linkUp && (s.cfe.att == .attached || (admin && s.cfe.att == .attaching))

/-- Signal a ring's vector, at most once per INTGAP (R317). -/
def State.signalRing (s : State) (r : Nat) : State :=
  let g := s.cfe.ring r
  if ¬ g.inten then s
  else match g.lastSignal with
    | some l =>
      if s.bclk < l + g.intgap then s.modCfe (fun f => f.modRing r (fun x => { x with signalDue := some (l + g.intgap) }))
      else (s.modCfe (fun f => f.modRing r (fun x => { x with lastSignal := some s.bclk }))).msix g.vec
    | none => (s.modCfe (fun f => f.modRing r (fun x => { x with lastSignal := some s.bclk }))).msix g.vec

/-- The PHASE bit of a record (R313). -/
def Ring.phaseBit (r : Ring) : Nat := 1 - r.ctail.toNat / ringSize r.szlogm4 % 2

/-- Write a record into its ring with one 64 B write (R314): the new state, or nothing where the ring cannot take it now. The interrupt
follows the write's acknowledgement, which host memory gives later (R381). -/
def State.writeRing (s : State) (f : ReadFind) (r : Nat) (w : List Nat) : State × Moved Unit :=
  let g := s.cfe.ring r
  let a := g.base + 64 * (g.ctail.toNat % ringSize g.szlogm4)
  let bs := (listSet w 1 (w.getD 1 0 + g.phaseBit)).flatMap (leBytes 8)
  if s.cfeHost a && !(s.hostFor (r == 0)) then (s, .wait)
  else match s.cfeWrite f 0 a bs (some r) with
    | (s1, .ok _) =>
      let s2 := s1.modCfe (fun f => f.modRing r (fun x => { x with ctail := x.ctail + 1 }))
      (if s2.cfeHost a then s2 else s2.signalRing r, .ok ())
    | x => x

/-- A ring whose write fails is unreachable (R316, R523). -/
def State.ringLost (s : State) (r : Nat) : State :=
  (s.modCfe (fun f => f.modRing r (fun x => { x with unreachable := true }))).postErr
    { cls := .host, sev := .degraded, cause := 0x05, ukind := .ring, unit := r }

/-- Parked records of a ring move into it in order (R316), at most `n`. -/
def State.unpark (s : State) (r : Nat) : Nat → State
  | 0 => s
  | n + 1 =>
    let g := s.cfe.ring r
    match s.cfe.parked.find? (fun p => p.ring == r) with
    | none => s
    | some p =>
      if g.full || g.unreachable then s
      else match s.writeRing {} r p.words with
        | (s1, .ok _) => (s1.modCfe (fun f => { f with parked := f.parked.erase p })).unpark r n
        | (s1, .wait) => s1
        | (s1, .fault _) => s1.ringLost r

/-- Issue a record (R314, R316): into its ring, or parked with OVFL; false where the overflow ring is full too. `f` is what the write finds. -/
def State.issueRecord (s : State) (f : ReadFind) (r : Nat) (w : List Nat) : State × Bool :=
  let g := s.cfe.ring r
  let park (x : State) : State × Bool :=
    if 16384 ≤ x.cfe.parked.length then (x, false)
    else (x.modCfe (fun f => { f with parked := f.parked ++ [⟨r, listSet w 1 (w.getD 1 0 + 2 ^ 45)⟩] }), true)
  if g.full || g.unreachable || s.cfe.parkedOf r != 0 then park s
  else match s.writeRing f r w with
    | (s1, .ok _) => (s1, true)
    | (s1, .wait) => park s1
    | (s1, .fault _) => let p := park s1; (p.1.ringLost r, p.2)

/-- CR_DOORBELL (R316, R327): with the CFE attached, for CR0 also while it attaches, a head that neither precedes CHEAD nor passes CTAIL is accepted,
and parked records move; any other is ignored. -/
def execCrDoorbell (t r head : Nat) (s : State) : Host.Outcome State Fault Refusal :=
  let s := s.atB t
  if s.stopped then .next s else
  let g := s.cfe.ring r
  let h := BitVec.ofNat 32 head
  if r < 256 ∧ (s.cfe.att = .attached ∨ (r = 0 ∧ s.cfe.att = .attaching)) ∧ ¬ serialLt head g.chead.toNat 32 ∧ ¬ serialLt g.ctail.toNat head 32 then
    .next ((s.modCfe (fun f => f.modRing r (fun x => { x with chead := h }))).unpark r 16384)
  else .next (s.postErr { cls := .host, sev := .info, cause := 0x04, ukind := .ring, unit := r % 256, info6 := head % 2 ^ 32, info7 := 0x400 + 4 * (r % 256) })

/-- INTGAP_EXPIRY (R317): one deferred signal covers every record written meanwhile. -/
def execIntgapExpiry (t r : Nat) (s : State) : Host.Outcome State Fault Refusal :=
  let s := s.atB t
  match (s.cfe.ring r).signalDue with
  | some d =>
    if d ≤ s.bclk then
      .next ((s.modCfe (fun f => f.modRing r (fun x => { x with signalDue := none, lastSignal := some s.bclk }))).msix (s.cfe.ring r).vec)
    else .next s
  | none => .next s

/-! ### Doorbells and fetching (R300, R301) -/

/-- SQ_DOORBELL (R300). -/
def execSqDoorbell (t q tail : Nat) (s : State) : Host.Outcome State Fault Refusal :=
  let s := s.atB t
  if s.stopped then .next s else
  let qu := s.cfe.queue q
  let w := BitVec.ofNat 32 tail
  if q < 256 ∧ (s.cfe.att = .attached ∨ (q = 0 ∧ s.cfe.att = .attaching)) ∧ (qu.st = .opened ∨ qu.st = .halted) ∧
     ¬ serialLt tail qu.dbtail.toNat 32 ∧ (w - qu.fhead).toNat ≤ ringSize qu.szlogm4 then
    .next (s.modCfe (fun f => f.modQueue q (fun x => { x with dbtail := w, dbflag := true, fetch := if x.fetch = .idle then .pass else x.fetch })))
  else .next ((s.modCfe (fun f => f.modQueue (q % 256) (fun x => { x with dbign := satInc x.dbign 16 }))).postErr
    { cls := .host, sev := .info, cause := 0x03, ukind := .queue, unit := q % 256, info6 := tail % 2 ^ 32, info7 := 4 * (q % 256) })

/-- What fetching one entry gives. -/
inductive Fetched
  | ok (s : State)
  | blocked (s : State) (on : Nat)
  | wait (s : State)
  deriving DecidableEq, Repr

/-- Put a buffer in the store. -/
def Cfe.hold (f : Cfe) (b : Buffer) : Cfe := { f with buffers := f.buffers ++ [{ b with id := f.nextBuf }], nextBuf := f.nextBuf + 1 }

/-- Whether a queue's fetch waits behind another that began to wait for the store before it (R318). -/
def Cfe.behind (f : Cfe) (q : Nat) : Bool :=
  (f.storeWait.takeWhile (fun x => x != q)).any (fun x => (f.queue x).fetch == .wait && (f.queue x).waiton == 2)
/-- A fetch begins to wait for the store, or ends its wait. -/
def State.storeWaits (s : State) (q : Nat) (on : Bool) : State :=
  s.modCfe (fun f => { f with storeWait :=
    if on then (if f.storeWait.contains q then f.storeWait else f.storeWait ++ [q]) else f.storeWait.filter (fun x => x != q) })
/-- Whether a record of a ring could not be written into it now (R316, R327). -/
def State.ringStuck (s : State) (r : Nat) : Bool :=
  let g := s.cfe.ring r
  g.full || g.unreachable || s.cfe.parkedOf r != 0 ||
  (s.cfeHost (g.base + 64 * (g.ctail.toNat % ringSize g.szlogm4)) && !(s.hostFor (r == 0)))

/-- Fetch the buffer that an entry names (R298, R301, R307, R318): held, held as a failed one, or blocked on quota (4), store (2) or host (1). -/
def State.fetchBuffer (s : State) (f : ReadFind) (q : Nat) (spawned : Bool) (w0 w1 : Nat) : Fetched :=
  let b : Buffer := { id := 0, q := q, bytes := [], len := 0, spawned := spawned }
  let qu := s.cfe.queue q
  let a := bits w0 51 0
  let len := bits w1 16 0
  let kib := 4 * cdiv len 4096
  if ¬ entryLegal w0 w1 then .ok (s.modCfe (fun x => x.hold { b with bad := some .bufferFormat }))
  else if q ≠ 0 ∧ s.cfe.kibOf q ≠ 0 ∧ qu.qmaxkib < s.cfe.kibOf q + kib then .blocked s 4
  else if (if q = 0 then 256 < s.cfe.kibOf 0 + kib else 16384 - 256 < s.cfe.kibAll + kib || s.cfe.behind q) then .blocked (s.storeWaits q true) 2
  else if s.cfeHost a && !(s.hostFor (q == 0)) then .blocked s 1
  else match (s.storeWaits q false).cfeRead f a len with
    | (s1, .ok bs) => .ok (s1.modCfe (fun x => x.hold { b with bytes := bs, len := len }))
    | (s1, .wait) => .wait s1
    | (s1, .fault x) => if x.cause = .hostUnreachable then .blocked s1 1 else .ok (s1.modCfe (fun y => y.hold { b with bad := some x.cause }))

/-- One entry of the queue: an accepted spawn first, else the ring's next (R301, R312). -/
def State.fetchOne (s : State) (f : ReadFind) (q : Nat) : Fetched :=
  let qu := s.cfe.queue q
  match qu.spawnQ with
  | (w0, w1) :: rest =>
    match s.fetchBuffer f q true w0 w1 with
    | .ok s1 => .ok (s1.modCfe (fun x => x.modQueue q (fun y => { y with spawnQ := rest })))
    | r => r
  | [] =>
    let a := qu.base + 16 * (qu.fhead.toNat % ringSize qu.szlogm4)
    if s.cfeHost a && !(s.hostFor (q == 0)) then .blocked s 1
    else
      let pass (x : Fetched) : Fetched := match x with
        | .ok y => .ok (y.modCfe (fun z => z.modQueue q (fun v => { v with fhead := v.fhead + 1 })))
        | r => r
      match s.cfeRead f a 16 with
      | (s1, .ok bs) => pass (s1.fetchBuffer f q false (reqWord bs 0) (reqWord bs 1))
      | (s1, .wait) => .wait s1
      | (s1, .fault x) => if x.cause = .hostUnreachable then .blocked s1 1 else
          pass (.ok (s1.modCfe (fun y => y.hold { id := 0, q := q, bytes := [], len := 0, spawned := false, bad := some x.cause })))

/-- Fetch until nothing is left, or a block or data still to come ends the pass (R301): the idle test fails where a doorbell has come meanwhile, and a
further pass follows. -/
def State.fetchAll (s : State) (f : ReadFind) (q : Nat) : Nat → State
  | 0 => s
  | n + 1 =>
    let qu := s.cfe.queue q
    let set (x : State) (st : FetchSt) (on : Nat) (mid : Bool) : State :=
      x.modCfe (fun z => z.modQueue q (fun y => { y with fetch := st, waiton := on, inPass := mid }))
    if qu.fhead = qu.dbtail ∧ qu.spawnQ = [] then set s (if qu.dbflag then .pass else .idle) 0 false
    else if 16384 ≤ s.cfe.parked.length ∧ s.ringStuck qu.cr then set s .wait 0 false
    else match s.fetchOne f q with
      | .ok s1 => s1.fetchAll f q n
      | .blocked s1 on => set s1 .wait on false
      | .wait s1 => set s1 .pass 0 true

/-- FETCH_PASS (R301): the queue's fetcher clears DBFLAG as a pass starts, and reads entries and whole buffers; a pass that waited for data goes on.
`f` is what its reads find. -/
def execFetchPass (t q : Nat) (f : ReadFind) (s : State) : Host.Outcome State Fault Refusal :=
  let s := s.atB t
  if s.stopped then .next s else
  let qu := s.cfe.queue q
  if (qu.st = .opened ∨ qu.st = .halted) ∧ (qu.dbflag ∨ qu.fetch ≠ .idle ∨ qu.spawnQ ≠ []) then
    .next ((s.modCfe (fun x => x.modQueue q (fun y => { y with dbflag := y.dbflag && y.inPass }))).fetchAll f q
      ((qu.dbtail - qu.fhead).toNat + qu.spawnQ.length + 1))
  else .next s

/-- BUFFER_FETCHED (R302, R308, R318): the next held buffer is checked and taken, spawned buffers first, unless QMAXCMD holds it back. -/
def execBufferFetched (t q : Nat) (s : State) : Host.Outcome State Fault Refusal :=
  let s := s.atB t
  if s.stopped then .next s else
  let qu := s.cfe.queue q
  let held := s.cfe.buffers.filter (fun b => b.q == q && !b.taken)
  let next := match held.find? (fun b => b.spawned) with
    | some b => some b
    | none => if qu.spawnQ = [] then held.head? else none
  match next with
  | none => .next s
  | some b =>
    let n := (s.cfe.cmdsOf q).length
    if (qu.st = .opened ∨ qu.st = .halted) ∧ (q = 0 ∨ n = 0 ∨ n + b.count ≤ qu.qmaxcmd) then .next (s.takeBuffer b) else .next s

end Sys2Proof.Machine
end

