-- ==== Sys2Proof/Machine/Cfe.lean ====
section
/-!
DEFINITION. Commands of the Command Front End (11_command_front_end.md R309-R328): presentation and the decision, release, spawns,
completion, recovery, admin commands, and attach. Also PHASE_RELEASE (10_fixture_cadence.md R289).
-/
namespace Sys2Proof.Machine

/-! ### Work of a command -/

/-- Whether a task of a command stands on some core, or is on deck. -/
def State.taskOn (s : State) (ref : Nat) : Bool :=
  s.cores.any (fun p => (p.2.task.any (fun k => k.cmdref == ref) && p.2.st != .idle) || p.2.ondeck.any (fun k => k.cmdref == ref))
/-- Whether transfers, requests, rallies or stores of a command are outstanding (R314). -/
def State.busyRef (s : State) (ref : Nat) : Bool :=
  s.mem.xfers.any (fun x => x.ref == ref) || s.mem.ports.any (fun r => r.ref == ref) || s.emb.looks.any (fun l => l.ref == ref) ||
  s.emb.upds.any (fun u => u.ref == ref) || s.links.rally.any (fun r => r.2.armed && r.2.ref == ref) ||
  s.host.stores.any (fun h => h.ref == ref) || s.links.reqs.any (fun r => r.owner == .cfe ref) ||
  s.links.backlog.any (fun r => r.2.2 == .cfe ref)
/-- Placements of a command. -/
def State.placements (s : State) (c : Cmd) : List Placement := s.fix.ledger.filter (fun p => p.q == c.q && p.cseq == c.cseq && p.cls != .repair)
/-- Whether a command's work is done: every phase released, every task retired, nothing outstanding (R314, R319). -/
def State.workDone (s : State) (c : Cmd) : Bool :=
  (s.placements c).all (fun p => p.released) && !(s.repair.unplaced.any (fun u => u.1 == c.ref)) && c.tasks == 0 && !(s.taskOn c.ref) && !(s.busyRef c.ref)
/-- The RUN record of a command. -/
def Cmd.run? (c : Cmd) : Option RunRec := match c.kind with | .run r => some r | _ => none

/-! ### Presentation (R310) -/

/-- Whether a command may be presented: its queue is OPEN, or HALTED with an earlier CSEQ (R320, R325). -/
def Queue.presents (qu : Queue) (cseq : Nat) : Bool :=
  qu.st == .opened || (qu.st == .halted && serialLt cseq qu.haltseq.toNat 32)

/-- The first presentable READY command of a queue. -/
def Cfe.readyOf (f : Cfe) (q : Nat) : Option Cmd :=
  f.cmds.find? (fun c => c.q == q && c.st == .ready && c.run?.isSome && (f.queue q).presents c.cseq)

/-- The command presented next (R310): highest priority, then round robin, then lowest CSEQ. -/
def Cfe.pick (f : Cfe) : Option Cmd :=
  let l := (List.range 255).filterMap (fun i => f.readyOf ((f.served + 1 + i) % 256)) ++ (f.readyOf f.served).toList
  l.find? (fun c => l.all (fun d => decide ((f.queue d.q).prio ≤ (f.queue c.q).prio)))

/-- The requests of a command (R306). -/
def Cfe.reqsOf (f : Cfe) (c : Cmd) (r : RunRec) : List (Nat × Nat) := listEntries (f.bytesOf c) r.reqoff r.nreq
/-- The output regions of a command (R306). -/
def Cfe.outsOf (f : Cfe) (c : Cmd) (r : RunRec) : List (Nat × Nat) := listEntries (f.bytesOf c) r.outoff r.nout

/-- Read the header of every request (R310); whether every lookup header's VALID is within its plan (R285 check 1). -/
def State.readHeaders (s : State) (f : ReadFind) : List (Nat × Nat) → State × Moved Bool
  | [] => (s, .ok true)
  | e :: l =>
    match s.cfeRead f (bits e.1 51 0) 64 with
    | (s1, .ok b) =>
      match s1.readHeaders f l with
      | (s2, .ok v) => (s2, .ok (v && (bits e.2 63 62 != 0 || decide (bits (reqWord b 1) 43 23 ≤ bits (reqWord b 1) 63 44 + 1))))
      | r => r
    | (s1, .wait) => (s1, .wait)
    | (s1, .fault x) => (s1, .fault x)

/-- A sequence record keeps R174 and R175. -/
def seqLegal (pk pq w0 w1 : Nat) : Bool :=
  let pos0 := bits w0 19 0
  let klen := bits w1 40 21
  let nq := bits w1 19 0
  bits w0 31 20 == 0 && bits w1 62 41 == 0 && bitAt w1 20 == false && decide (klen ≤ pk) && decide (nq ≤ pq) &&
  (if bitAt w1 63 then pos0 == 0 && nq == 0 else pos0 + nq == klen)

/-- Check 1 of R285, but for the lookup headers. -/
def shapeOk (b : List Byte) (r : RunRec) (x : CostTable) : Bool :=
  decide (r.valid ≤ x.plan) &&
  (if x.seq then (r.valid == 0 || r.seqoff != 0) else r.seqoff == 0) &&
  (r.seqoff == 0 || (listEntries b r.seqoff r.valid).all (fun e => seqLegal x.pklenm1 x.pqm1 e.1 e.2))

/-- Skim output regions to zero (R311). -/
def State.skimOuts (s : State) (f : ReadFind) (ref : Nat) : List (Nat × Nat) → State × Moved Unit
  | [] => (s, .ok ())
  | e :: l =>
    match s.cfeWrite f ref (bits e.1 51 0) (List.replicate (bits e.2 31 0) 0) with
    | (s1, .ok _) => s1.skimOuts f ref l
    | r => r

/-- A fault met by the CFE or the Fixture engine for a command (R282, R306, R310). -/
def State.cfeFault (s : State) (eng : Engine) (ref : Nat) (x : XferFault) : State :=
  s.faultCommand { cause := x.cause, engine := eng, cmdref := ref, dva := x.dva, dpa := x.dpa, detail := x.detail }

/-- A command is refused (R285, R319). -/
def State.refuse (s : State) (c : Cmd) (cls : Option Class) (st : Status) (reason : Nat) : State :=
  let s1 := s.modCmd c.ref (fun d => { d with st := .done, status := some st, refusal := true, reason := reason })
  match cls with
  | some k => s1.modFix (fun f => { f with refused := bumpClass f.refused k })
  | none => s1

/-- The decision on a presented command whose reads have succeeded (R285). -/
def State.decideCmd (s : State) (f : ReadFind) (c : Cmd) (r : RunRec) (hdrs : Bool) (cost : Option CostTable) : State :=
  match cost with
  | none => s.refuse c none .overBudget 0x29
  | some x =>
    let s0 := s.modCmd c.ref (fun d => { d with cost := some x })
    if (s.cfe.reqsOf c r) ≠ [] ∧ x.phases.all (fun p => p.k != 0) then s0.refuse c (some x.cls) .overBudget 0x29
    else if ¬ (shapeOk (s.cfe.bytesOf c) r x && hdrs) then s0.refuse c (some x.cls) .shapeExceedsPlan 0
    else if r.valid = 0 then
      match s0.skimOuts f c.ref (s.cfe.outsOf c r) with
      | (s1, .ok _) => s1.modCmd c.ref (fun d => { d with st := .done, status := some .empty })
      | (s1, .wait) => s1
      | (s1, .fault x) => s1.cfeFault .cfe c.ref x
    else
      let due := if r.rel then (s.cyc + r.duecyc) % 2 ^ 32 else r.duecyc
      match s0.decideRoom c.q c.cseq x due r.dueslot with
      | .refuse st k => s0.refuse c (some x.cls) st k
      | .empty => s0
      | .accept l d =>
        ((s0.charge c.ref l).modFix (fun f =>
          { f with admitted := bumpClass f.admitted x.cls,
                   lastDue := match d with | some k => max f.lastDue (f.cycle + (k.1 + 2 ^ 32 - s.cyc) % 2 ^ 32 + 1) | none => f.lastDue })).modCmd c.ref
          (fun y => { y with st := .admitted, due := d, posting := false, spawnRead := false, tasks := 0 })

/-- Present the command that R310 names, where it is `rep` (a REPEAT's) or not: headers, cost table, checks (R282, R285, R310). While an announced edge
is to come, a decision is abandoned, and starts again after it (R281). -/
def presentCmd (rep : Bool) (t q cseq : Nat) (f : ReadFind) (s : State) : Host.Outcome State Fault Refusal :=
  let s := s.atB t
  if s.stopped ∨ s.fix.edgeDue.isSome then .next s else
  match s.cfe.pick with
  | none => .next s
  | some c =>
    match c.run? with
    | none => .next s
    | some r =>
      if c.q ≠ q ∨ c.cseq ≠ cseq ∨ r.rep ≠ rep then .next s
      else
        let s0 := s.modCfe (fun x => { x with served := q })
        match s0.readHeaders f (s.cfe.reqsOf c r) with
        | (s1, .wait) => .next { s1 with cfe := s.cfe }
        | (s1, .fault x) => .next (s1.cfeFault .cfe c.ref x)
        | (s1, .ok hdrs) =>
          match s1.cfeRead f (r.cost / 4096 * 4096) 4096 with
          | (s2, .wait) => .next { s2 with cfe := s.cfe }
          | (s2, .fault x) => .next (s2.cfeFault .fixture c.ref x)
          | (s2, .ok b) => .next (s2.decideCmd f c r hdrs (costOf (b.drop (r.cost % 4096))))

/-- RUN (R285, R304, R310). -/
def execRun (t q cseq : Nat) (f : ReadFind) (s : State) : Host.Outcome State Fault Refusal := presentCmd false t q cseq f s
/-- REPEAT (R285, R305, R310). -/
def execRepeat (t q cseq : Nat) (f : ReadFind) (s : State) : Host.Outcome State Fault Refusal := presentCmd true t q cseq f s

/-- NOP (R303, R319): a READY NOP is DONE as OK; on Q0 it waits for the commands before it to execute (R323). -/
def execNop (t q cseq : Nat) (s : State) : Host.Outcome State Fault Refusal :=
  let s := s.atB t
  if s.stopped then .next s else
  match s.cfe.cmds.find? (fun c => c.q == q && c.cseq == cseq) with
  | none => .next s
  | some c =>
    let first := (s.cfe.cmds.find? (fun d => d.q == 0 && d.st != .done && d.st != .running)).any (fun d => d.cseq == cseq)
    if c.kind = .nop ∧ c.st = .ready ∧ (q ≠ 0 ∨ first) then
      .next ((s.modCmd c.ref (fun d => { d with st := .done, status := some .ok })).markHeld q)
    else .next s

/-! ### Release (R289, R311) -/

/-- Post the requests of a command into the named ports (R306, R311): each becomes a transfer of the CFE's translation unit, and carries the step of
its posting. -/
def State.postRequests (s : State) (c : Cmd) (l : List (Nat × Nat)) : State :=
  l.foldl (fun x e =>
    let port := bits e.2 63 62
    let n := if port = 0 then bits e.2 55 52 else if port = 1 then 16 + bits e.2 55 52 else 32
    let len := bits e.2 31 0
    x.startXfer { id := x.mem.nextXfer, light := false, pos := 0xFF, xu := some cfeXu, ref := c.ref, src := .dva (bits e.1 51 0),
                  dst := .port n, rows := 1, rlen := len, sstr := len, dstr := len,
                  step := some (s.obj 0x5F00 1) }) s

/-- PHASE_RELEASE (R289, R291, R311): the next phase of a command is released from its first slot on: argument blocks are written, first task
records sent, or the requests of a phase with K = 0 posted. `recs` gives for each position the phase's task records in order; the later ones come
as ONDECK_RECORD. A phase on a position held by an overrun starts late. -/
def execPhaseRelease (t tc q cseq : Nat) (recs : List (Nat × List (List Nat))) (s : State) : Host.Outcome State Fault Refusal :=
  let s := { s.atB t with cclk := max s.cclk tc }
  if s.stopped then .next s else
  match s.cfe.cmds.find? (fun c => c.q == q && c.cseq == cseq) with
  | none => .next s
  | some c =>
    match c.run?, (s.placements c).filter (fun p => !p.released) with
    | some r, l =>
      match l.find? (fun p => l.all (fun o => decide (p.phase ≤ o.phase))) with
      | none => .next s
      | some p =>
        if (c.st ≠ .admitted ∧ c.st ≠ .running) ∨ s.absSlot < p.first then .next s
        else if p.positions.any (fun x => s.fix.held.contains x) then .next (s.recordReason c.ref 0x05)
        else
          let mine := recs.filter (fun x => p.positions.contains x.1)
          let s1 := (s.modFix (fun f => { f with ledger := f.ledger.map (fun y => if y = p then { y with released := true } else y) })).modCmd c.ref
            (fun d => { d with st := .running, ran := true, tasks := d.tasks + (mine.map (fun x => x.2.length)).foldl (· + ·) 0,
                               posting := d.posting || p.positions.isEmpty })
          if p.positions = [] then .next (if c.posting then s1 else s1.postRequests c (s.cfe.reqsOf c r))
          else
            let arg := ((s.cfe.bytesOf c).drop r.argoff).take r.arglen
            let s2 := if r.argoff = 0 then s1
              else p.positions.foldl (fun x y => x.bgWrite (s.coreOf y) (r.argspm * 4096) (padTo 4096 arg)) s1
            .next (mine.foldl (fun x y => match y.2 with
              | w :: _ => x.takeRecord tc (s.coreOf y.1) (taskRecOf (listSet w 4 c.ref))
              | [] => x) s2)
    | none, _ => .next s

/-! ### Spawns (R312) -/

/-- SPAWN (R312): once a command's work is done its spawn list is read, and all its entries are accepted or none. -/
def execSpawn (t q cseq : Nat) (f : ReadFind) (s : State) : Host.Outcome State Fault Refusal :=
  let s := s.atB t
  if s.stopped then .next s else
  match s.cfe.cmds.find? (fun c => c.q == q && c.cseq == cseq) with
  | none => .next s
  | some c =>
    match c.run? with
    | none => .next s
    | some r =>
      if r.spawn = 0 ∨ c.spawnRead ∨ c.st ≠ .running ∨ ¬ s.workDone c then .next s
      else match s.cfeRead f r.spawn 256 with
        | (s1, .wait) => .next s1
        | (s1, .fault x) => .next (s1.cfeFault .cfe c.ref x)
        | (s1, .ok b) =>
          let n := bits (reqWord b 0) 3 0
          let qu := s1.cfe.queue q
          if bits (reqWord b 0) 63 4 ≠ 0 ∨ reqWord b 1 ≠ 0 then .next (s1.cfeFault .cfe c.ref { cause := .bufferFormat, dva := r.spawn })
          else
            let s2 := s1.modCmd c.ref (fun d => { d with spawnRead := true })
            if qu.st = .closing then .next s2
            else if qu.qspawn < qu.spawned + n then .next (s2.modCmd c.ref (fun d => { d with spawnref := true }))
            else .next (s2.modCfe (fun x => x.modQueue q (fun y =>
              { y with spawned := y.spawned + n,
                       spawnQ := y.spawnQ ++ (List.range n).map (fun i => (reqWord b (2 + 2 * i), reqWord b (3 + 2 * i))),
                       fetch := if n ≠ 0 ∧ y.fetch = .idle then .pass else y.fetch })))

/-! ### Completion (R313-R316) -/

/-- Whether a due slot has ended (R286, R292). -/
def State.pastDue (s : State) (due : Option (Nat × Nat)) : Bool :=
  match due with
  | none => false
  | some (c, k) => serialLt c s.cyc 32 || (c == s.cyc && decide (k < s.slot))
/-- Whether a command's class promises a due slot (R278). -/
def Cmd.promised (c : Cmd) : Bool := match c.cost with | some x => x.cls != .bulk | none => true

/-- STATUS (R315). -/
def State.statusOf (s : State) (c : Cmd) : Status :=
  match c.status with
  | some x => x
  | none =>
    if c.promised && (c.late || s.pastDue c.due) then .late
    else if c.arepl + c.srepl + c.prepl ≠ 0 then .replayed
    else .ok

/-- The eight words of a completion record, PHASE 0 (R313). -/
def State.record (s : State) (c : Cmd) (st : Status) : List Nat :=
  let reason := if st = .late ∨ c.refusal then c.reason else 0
  let flags := b2n c.scidx.isSome * 2 ^ 15 + b2n c.held * 2 ^ 14 + b2n c.predfail * 2 ^ 12 + b2n c.spawnref * 2 ^ 11 +
    b2n c.hostlost * 2 ^ 10 + b2n c.rerun * 2 ^ 9 + c.vxf % 64
  let inl := padTo 32 (c.inline.take 32)
  [c.ref, st.code * 2 ^ 56 + reason * 2 ^ 48 + flags * 2 ^ 32 + min c.arepl 15 * 2 ^ 28 + min c.srepl 15 * 2 ^ 24 + min c.prepl 15 * 2 ^ 20, c.tag,
   s.cyc * 2 ^ 32 + s.slot * 2 ^ 24 + c.admerr * 2 ^ 16 + c.scidx.getD 0] ++ (List.range 4).map (fun i => reqWord inl i)

/-- Once a CLOSING queue has no record left, its DESTROY_SQ is DONE as DESTROYED (R326 step 5). -/
def State.endDestroy (s : State) (q : Nat) : State :=
  let qu := s.cfe.queue q
  match qu.destroying with
  | some ref =>
    if s.cfe.cmdsOf q = [] then
      s.modCmd ref (fun d => { d with st := .done, status := some .destroyed, inline := leBytes 4 qu.lastIssued ++ leBytes 4 qu.cancelled })
    else s
  | none => s

/-- The command whose record is next (R314); in CLOSING, commands that ran come before those that never started (R326 step 4). -/
def Cfe.nextIssue (f : Cfe) (q : Nat) : Option Cmd :=
  let l := f.cmdsOf q
  if (f.queue q).st = .closing then (match l.find? (fun c => c.ran) with | some c => some c | none => l.head?) else l.head?

/-- A record has been issued: the command is POSTED (R309, R318, R319, R326). -/
def State.posted (s : State) (c : Cmd) (st : Status) : State :=
  let s1 := s.modCfe (fun f =>
    let keep (l : List (Nat × Bool)) : List (Nat × Bool) := ((c.cseq, st.success) :: l).take 65536
    let f1 := f.modQueue c.q (fun x => { x with postseq := BitVec.ofNat 32 (c.cseq + 1), lastIssued := c.cseq, success := keep x.success })
    { f1 with cmds := f1.cmds.filter (fun d => d.ref != c.ref) })
  let s2 :=
    if s1.cfe.cmds.any (fun d => d.q == c.q && d.buf == c.buf) then s1
    else
      let sp := (s1.cfe.buffer c.buf).any (fun b => b.spawned)
      s1.modCfe (fun f =>
        let f1 := f.modQueue c.q (fun x => { x with spawned := if sp then x.spawned - 1 else x.spawned })
        { f1 with buffers := f1.buffers.filter (fun b => b.id != c.buf) })
  let s3 := s2.settle c.q
  if st = .destroyed then
    let q := s.cfe.queues.find? (fun p => p.2.destroying == some c.ref)
    match q with
    | some (n, _) => s3.modCfe (fun f => f.modQueue n (fun x => { x with st := .free, fetch := .idle, destroying := none }))
    | none => s3
  else s3.endDestroy c.q

/-- A running command whose work is done and whose spawns are read is FINISHED (R319). -/
def State.finish (s : State) (q : Nat) : State :=
  s.modCfe (fun f => { f with cmds := f.cmds.map (fun c =>
    match c.run? with
    | some r => if c.q = q ∧ c.st = .running ∧ s.workDone c ∧ (r.spawn = 0 ∨ c.spawnRead) then { c with st := .finished } else c
    | none => c) })

/-- COMPLETION_ISSUE (R313-R316): the next record of a queue is issued once its command's work and stores are done; an INL region is read first
(R306). -/
def execCompletionIssue (t q : Nat) (f : ReadFind) (s : State) : Host.Outcome State Fault Refusal :=
  let s := ((s.atB t).finish q).markHeld q
  if s.stopped then .next s else
  match s.cfe.nextIssue q with
  | none => .next s
  | some c =>
    if ¬ ((c.st = .done ∨ c.st = .finished) ∧ ¬ s.taskOn c.ref ∧ ¬ s.busyRef c.ref) then .next s
    else
      let inl : Option (Nat × Nat) := match c.run? with
        | some r => match (s.cfe.outsOf c r).head? with
          | some e => if bitAt e.1 63 && (c.status == none || c.status == some .empty) then some e else none
          | none => none
        | none => none
      let go (x : State) (c : Cmd) : Host.Outcome State Fault Refusal :=
        let st := x.statusOf c
        let unattr : Bool := decide (st = .late ∧ c.reason = 0 ∧ ¬ c.stalled)
        let c1 := if st = .late ∧ c.reason = 0 then { c with reason := if c.stalled then 0x0A else 0x0F } else c
        let p := x.issueRecord f (if q = 0 then 0 else (x.cfe.queue q).cr) (x.record c1 st)
        if ¬ p.2 then
          .next ((if x.pastDue c.due then x.recordReason c.ref 0x0A else x).modCmd c.ref (fun d => { d with stalled := true }))
        else
          let y := p.1
          let late (l : List Nat) : List Nat :=
            let l1 := match c.cost with | some k => bumpClass l k.cls | none => l
            if unattr then listSet l1 3 (satInc (l1.getD 3 0) 64) else l1
          let y1 := if st = .late then y.modFix (fun g => { g with latecnt := late g.latecnt }) else y
          let y2 := if unattr then y1.postErr { cls := .schedule, sev := .degraded, cause := 0x03, ukind := .queue, unit := q, cmdref := c.ref,
                                                info6 := s.planOf c.ref } else y1
          .next (y2.posted c st)
      match inl with
      | none => go s c
      | some e =>
        match s.cfeRead f (bits e.1 51 0) (bits e.2 31 0) with
        | (s1, .wait) => .next s1
        | (s1, .fault x) => .next (s1.cfeFault .cfe c.ref x)
        | (s1, .ok b) => go (s1.modCmd c.ref (fun d => { d with inline := b })) { c with inline := b }

/-! ### Admin commands (R323, R324) -/

/-- Complete an admin command. -/
def State.adminDone (s : State) (c : Cmd) (st : Status) (err : Nat) (inl : List Byte) : State :=
  s.modCmd c.ref (fun d => { d with st := .done, status := some st, admerr := err, inline := inl })
/-- An admin command that cannot take effect (R324). -/
def State.adminErr (s : State) (c : Cmd) (err : Nat) : State := s.adminDone c .cancelled err []

/-- Execute Q0's next admin command where it has a KIND and passes a test (R323): a nonzero reserved field is ADMERR 0x01. -/
def adminCmd (kind : Nat) (sel : Nat → Bool) (t : Nat) (g : State → Cmd → Nat → Nat → Nat → State) (s : State) : Host.Outcome State Fault Refusal :=
  let s := s.atB t
  if s.stopped then .next s else
  match s.cfe.cmds.find? (fun d => d.q == 0 && d.st != .done && d.st != .running) with
  | some c =>
    match c.kind with
    | .admin k w1 w2 w3 bad =>
      if k ≠ kind ∨ ¬ sel w2 then .next s else if bad then .next (s.adminErr c 1) else .next (g s c w1 w2 w3)
    | _ => .next s
  | none => .next s

/-- Quotas in range (R318). -/
def quotaOk (w3 : Nat) : Bool :=
  decide (1 ≤ bits w3 63 48) && decide (64 ≤ bits w3 47 32) && decide (bits w3 47 32 ≤ 16384) && decide (bits w3 31 16 ≤ 1024)
/-- A ring's size and base in range (R295, R323). -/
def ringOk (w1 : Nat) : Bool := decide (bits w1 63 60 ≤ 12) && bits w1 11 0 == 0

/-- CREATE_SQ (R323). -/
def execCreateSq (t : Nat) (s : State) : Host.Outcome State Fault Refusal :=
  adminCmd 0x10 (fun _ => true) t (fun s c w1 w2 w3 =>
    let q := bits w2 31 24
    let r := bits w2 23 16
    if ¬ ringOk w1 ∨ ¬ quotaOk w3 then s.adminErr c 1
    else if q = 0 ∨ r = 0 then s.adminErr c 2
    else if ¬ (s.cfe.ring r).opened then s.adminErr c 3
    else if (s.cfe.queue q).st ≠ .free then s.adminDone c .busy 0 []
    else
      let idx := BitVec.ofNat 32 (bits w2 63 32)
      let s1 := s.modCfe (fun f => f.modQueue q (fun old =>
        { st := .opened, fhead := idx, dbtail := idx, incarn := (old.incarn + 1) % 256, cr := r, prio := bits w2 15 14, dbign := old.dbign,
          szlogm4 := bits w1 63 60, base := bits w1 51 0, qmaxcmd := bits w3 63 48, qmaxkib := bits w3 47 32, qspawn := bits w3 31 16 }))
      s1.adminDone c .ok 0 []) s

/-- CREATE_CR (R323). -/
def execCreateCr (t : Nat) (s : State) : Host.Outcome State Fault Refusal :=
  adminCmd 0x11 (fun _ => true) t (fun s c w1 w2 w3 =>
    let r := bits w2 31 24
    if ¬ ringOk w1 then s.adminErr c 1
    else if r = 0 then s.adminErr c 2
    else if (s.cfe.ring r).opened then s.adminDone c .busy 0 []
    else (s.modCfe (fun f => f.modRing r (fun _ =>
      { opened := true, base := bits w1 51 0, szlogm4 := bits w1 63 60, inten := bitAt w2 23, vec := bits w2 22 12, intgap := bits w3 15 0 }))).adminDone
        c .ok 0 []) s

/-- Drop what a queue has not taken: held buffers, accepted spawns (R321, R326). -/
def State.dropUntaken (s : State) (q : Nat) : State :=
  s.modCfe (fun f =>
    let lost := (f.buffers.filter (fun b => b.q == q && !b.taken && b.spawned)).length
    let f1 := f.modQueue q (fun x => { x with spawned := x.spawned - x.spawnQ.length - lost, spawnQ := [] })
    { f1 with buffers := f1.buffers.filter (fun b => !(b.q == q && !b.taken)) })

/-- Whether DESTROY_SQ cancels a command (R326): one that never started. -/
def Cmd.neverRan (c : Cmd) : Bool := c.st != .running && c.st != .faulted && !(c.ran && (c.st == .done || c.st == .finished))
/-- Whether ABORT cancels a command (R321): any that is neither RUNNING nor faulted. -/
def Cmd.notRunning (c : Cmd) : Bool := c.st != .running && c.st != .faulted

/-- Every command of a queue that a test names becomes CANCELLED, as one that never started; ADMITTED ones free their charges (R321, R326). -/
def State.cancelAll (s : State) (q : Nat) (p : Cmd → Bool) : State :=
  let l := (s.cfe.cmdsOf q).filter (fun c => p c && c.st == .admitted)
  let s1 := l.foldl (fun x c => x.modFix (fun f => f.freeCharges c.q c.cseq [])) s
  s1.modCfe (fun f => { f with cmds := f.cmds.map (fun c =>
    if c.q = q ∧ p c then { c with st := .done, status := some .cancelled, refusal := false, inline := [], ran := false } else c) })

/-- Every faulted command of a queue is DONE with its fault status (R321, R326). -/
def State.endFaulted (s : State) (q : Nat) : State :=
  s.modCfe (fun f => { f with cmds := f.cmds.map (fun c =>
    if c.q = q ∧ c.st = .faulted then { c with st := .done, status := some (c.fault.getD .cancelled), ran := true } else c) })

/-- DESTROY_SQ (R326). -/
def execDestroySq (t : Nat) (s : State) : Host.Outcome State Fault Refusal :=
  adminCmd 0x12 (fun _ => true) t (fun s c _ w2 _ =>
    let q := bits w2 31 24
    let st := (s.cfe.queue q).st
    if q = 0 then s.adminErr c 2
    else if st = .free then s.adminErr c 3
    else if st = .closing then s.adminDone c .busy 0 []
    else
      let s1 := (s.finish q).dropUntaken q
      let n := ((s1.cfe.cmdsOf q).filter Cmd.neverRan).length
      let s2 := s1.modCfe (fun f => f.modQueue q (fun x =>
        { x with st := .closing, fetch := .wait, destroying := some c.ref, cancelled := n, lastIssued := (x.postseq - 1).toNat }))
      let s3 := ((s2.cancelAll q Cmd.neverRan).endFaulted q).modErr (fun e => e.closePrimary ⟨.queue, q⟩)
      (s3.modCmd c.ref (fun d => { d with st := .running })).endDestroy q) s

/-- DESTROY_CR (R323). -/
def execDestroyCr (t : Nat) (s : State) : Host.Outcome State Fault Refusal :=
  adminCmd 0x13 (fun _ => true) t (fun s c _ w2 _ =>
    let r := bits w2 31 24
    if r = 0 then s.adminErr c 2
    else if ¬ (s.cfe.ring r).opened then s.adminErr c 3
    else if s.cfe.parkedOf r ≠ 0 ∨ s.cfe.queues.any (fun p => p.1 != 0 && p.2.st != .free && p.2.cr == r) then s.adminDone c .busy 0 []
    else (s.modCfe (fun f => f.modRing r (fun _ => {}))).adminDone c .ok 0 []) s

/-- RECOVER (R321): `act` is done to a HALTED queue, which is then OPEN. -/
def recoverCmd (sel : Nat → Bool) (t : Nat) (act : State → Nat → State × List Byte) (s : State) : Host.Outcome State Fault Refusal :=
  adminCmd 0x14 (fun w2 => sel (bits w2 23 22)) t (fun s c _ w2 _ =>
    let q := bits w2 31 24
    if bits w2 23 22 = 3 then s.adminErr c 1
    else if q = 0 then s.adminErr c 2
    else if (s.cfe.queue q).st = .free then s.adminErr c 3
    else if (s.cfe.queue q).st ≠ .halted then s.adminErr c 4
    else
      let r := act ((s.finish q).markHeld q) q
      let s1 := (r.1.modCfe (fun f => f.modQueue q (fun x => { x with st := .opened }))).modErr (fun e => e.closePrimary ⟨.queue, q⟩)
      s1.adminDone c .ok 0 r.2) s

/-- RECOVER_RESUME (R321): faulted commands return to READY and run from their start; the reserved ACTION is refused. -/
def execRecoverResume (t : Nat) (s : State) : Host.Outcome State Fault Refusal :=
  recoverCmd (fun a => a == 0 || a == 3) t (fun s q =>
    (s.modCfe (fun f => { f with cmds := f.cmds.map (fun c =>
      if c.q = q ∧ c.st = .faulted then
        match c.kind with
        | .faulty _ => { c with st := .done, status := some (c.fault.getD .cancelled) }
        | _ => { c with st := .ready, fault := none, rerun := true, reason := if c.reason = 0 then 0x06 else c.reason, tasks := 0, posting := false,
                        spawnRead := false, due := none }
      else c) }), [])) s

/-- RECOVER_SKIP (R321). -/
def execRecoverSkip (t : Nat) (s : State) : Host.Outcome State Fault Refusal :=
  recoverCmd (fun a => a == 1) t (fun s q => (s.endFaulted q, [])) s

/-- RECOVER_ABORT (R321): every other command that is not RUNNING is CANCELLED, spawns and untaken entries dropped; INLINE returns the new FHEAD. -/
def execRecoverAbort (t : Nat) (s : State) : Host.Outcome State Fault Refusal :=
  recoverCmd (fun a => a == 2) t (fun s q =>
    let s1 := ((s.cancelAll q Cmd.notRunning).endFaulted q).dropUntaken q
    let s2 := s1.modCfe (fun f => f.modQueue q (fun x => { x with fhead := x.dbtail }))
    (s2, leBytes 4 (s2.cfe.queue q).fhead.toNat)) s

/-- SETQUOTA (R318, R323): from the next cycle edge. -/
def execSetquota (t : Nat) (s : State) : Host.Outcome State Fault Refusal :=
  adminCmd 0x15 (fun _ => true) t (fun s c _ w2 w3 =>
    let q := bits w2 31 24
    if ¬ quotaOk w3 then s.adminErr c 1
    else if q = 0 then s.adminErr c 2
    else if (s.cfe.queue q).st = .free then s.adminErr c 3
    else (s.modCfe (fun f => f.modQueue q (fun x => { x with quotaNext := some (bits w3 63 48, bits w3 47 32, bits w3 31 16) }))).adminDone c .ok 0 []) s

/-- REBIND_SQ (R323). -/
def execRebindSq (t : Nat) (s : State) : Host.Outcome State Fault Refusal :=
  adminCmd 0x16 (fun _ => true) t (fun s c w1 w2 _ =>
    let q := bits w2 31 24
    let qu := s.cfe.queue q
    if q = 0 then s.adminErr c 2
    else if qu.st = .free then s.adminErr c 3
    else if qu.st = .closing then s.adminErr c 4
    else if ¬ ringOk w1 ∨ bits w1 63 60 ≠ qu.szlogm4 then s.adminErr c 1
    else (s.modCfe (fun f => f.modQueue q (fun x => { x with base := bits w1 51 0, dbtail := x.fhead, dbflag := false }))).adminDone c .ok 0
      (leBytes 4 qu.fhead.toNat)) s

/-- REBIND_CR (R323): the ring starts again at the new base; its parked records are written first. -/
def execRebindCr (t : Nat) (s : State) : Host.Outcome State Fault Refusal :=
  adminCmd 0x17 (fun _ => true) t (fun s c w1 w2 _ =>
    let r := bits w2 31 24
    let g := s.cfe.ring r
    if r = 0 then s.adminErr c 2
    else if ¬ g.opened then s.adminErr c 3
    else if ¬ ringOk w1 ∨ bits w1 63 60 ≠ g.szlogm4 then s.adminErr c 1
    else
      let s1 := s.modCfe (fun f => f.modRing r (fun x => { x with base := bits w1 51 0, ctail := 0, chead := 0, unreachable := false }))
      (s1.unpark r 16384).adminDone c .ok 0 []) s

/-- Quotas set by SETQUOTA take effect at an edge (R318). -/
def State.applyQuotas (s : State) : State :=
  s.modCfe (fun f => { f with queues := f.queues.map (fun p => match p.2.quotaNext with
    | some (a, b, c) => (p.1, { p.2 with qmaxcmd := a, qmaxkib := b, qspawn := c, quotaNext := none })
    | none => p) })

/-! ### Attach (R327, R328) -/

/-- A change of attach state posts its record (R327, R523). -/
def State.setAtt (s : State) (a : AttState) : State :=
  if s.cfe.att = a then s
  else (s.modCfe (fun f => { f with att := a })).postErr { cls := .host, sev := .info, cause := 0x01, ukind := .cfe, info6 := a.code }

/-- Reads of host memory outstanding at a host loss fault their commands (R384). -/
def State.loseReads (s : State) : State :=
  s.host.reads.foldl (fun x r => match x.xfer r.xfer with
    | some y => x.failXfer y { cause := .hostUnreachable, dva := r.src, dpa := r.addr }
    | none => x) (s.modHost (fun h => { h with reads := [] }))

/-- A store outstanding at a host loss is discarded (R384): its command carries HOSTLOST and its transfer goes on. -/
def State.loseStore (s : State) (h : HostStore) : State :=
  if h.ring.isSome then s
  else
    let s1 := s.modCmd h.ref (fun d => { d with hostlost := true })
    match h.xfer with
    | some (id, k) => (match s1.xfer id with | some x => s1.unitAcked s1.cclk x k true | none => s1)
    | none => s1

/-- Stores outstanding at a host loss (R384); completion records whose write had not been acknowledged are parked again, in order, ahead of
their ring's other parked records. -/
def State.loseStores (s : State) : State :=
  let l := s.host.stores
  let s1 := l.foldl State.loseStore (s.modHost (fun h => { h with stores := [] }))
  let recs := l.filterMap (fun h => h.ring.map (fun r =>
    (⟨r, listSet h.words 1 (setBits (setBits (h.words.getD 1 0) 0 0 0) 45 45 1)⟩ : Parked)))
  s1.modCfe (fun f =>
    { recs.foldl (fun g p => g.modRing p.ring (fun x => { x with ctail := x.ctail - 1 })) f with parked := recs ++ f.parked })

/-- A host loss (R383, R384): the CFE becomes DETACHED, the loss is counted and recorded, outstanding reads and stores end. -/
def State.hostLoss (s : State) : State :=
  (((s.setAtt .detached).postErr { cls := .host, sev := .degraded, cause := 0x02, ukind := .hostLink }).modHost
    (fun h => { h with losses := satInc h.losses 64 })).loseReads.loseStores

/-- A base register names a ring (R328 step 2). -/
def admRingOk (w : Nat) : Bool := bits w 51 12 != 0 && decide (bits w 63 60 ≤ 12)

/-- CFECTL.ATTACH (R327, R328): Q0 and CR0 restart at the admin bases, and CR0's parked records are written from index 0. -/
def State.attach (s : State) : State :=
  let sq := s.cfe.admsq.toNat
  let cr := s.cfe.admcr.toNat
  let iv := s.cfe.admint.toNat
  if s.cfe.att ≠ .detached ∨ ¬ admRingOk sq ∨ ¬ admRingOk cr then s
  else
    let s1 := s.modCfe (fun f =>
      (f.modQueue 0 (fun x => { x with st := .opened, fhead := 0, dbtail := 0, dbflag := false, fetch := .idle, cr := 0, szlogm4 := bits sq 63 60,
                                       base := bits sq 51 12 * 4096 })).modRing 0 (fun x =>
        { x with opened := true, ctail := 0, chead := 0, base := bits cr 51 12 * 4096, szlogm4 := bits cr 63 60, intgap := bits iv 31 16,
                 inten := bitAt iv 15, vec := bits iv 10 0, unreachable := false }))
    ((s1.setAtt .attaching).sendPending).unpark 0 16384

/-- CFECTL_ATTACH (R328, R329): the register write CFECTL.ATTACH = 1. -/
def execCfectlAttach (t : Nat) (s : State) : Host.Outcome State Fault Refusal :=
  let s := s.atB t
  if s.stopped then .next s else .next s.attach
/-- CFECTL_DETACH (R327, R329, R383): the register write CFECTL.DETACH = 1, a host loss. -/
def execCfectlDetach (t : Nat) (s : State) : Host.Outcome State Fault Refusal :=
  let s := s.atB t
  if s.stopped then .next s else .next s.hostLoss

/-- ATTACHING becomes ATTACHED at an edge (R327). -/
def State.attachEdge (s : State) : State := if s.cfe.att = .attaching then s.setAtt .attached else s

end Sys2Proof.Machine
end

