-- ==== Sys2Proof/Machine/Keys.lean ====
section
/-!
DEFINITION. Fuses, keys and random numbers (16_security_attestation.md R450-R461, R469, R470): the OTP security area, HKDF-SHA-256, the
DRBG, and SECURITY records.
-/
namespace Sys2Proof.Machine

/-- The bytes of an ASCII string. -/
def strBytes (x : String) : List Byte := x.toList.map (fun c => BitVec.ofNat 8 c.toNat)

/-- Bits [hi:lo] of the OTP security area (R452). -/
def State.otpBits (s : State) (hi lo : Nat) : Nat := bits s.otp.sec hi lo
/-- Bytes of the area, least significant first. -/
def State.otpBytes (s : State) (lo n : Nat) : List Byte := leBytes n (s.otp.sec / 2 ^ lo)
/-- Blow bits of the area: blown bits cannot be cleared (R452). -/
def State.otpBlow (s : State) (mask : Nat) : State := { s with otp := { s.otp with sec := Nat.lor s.otp.sec mask } }
/-- Lifecycle as LIFECYCLE reads it (R452, R471): 0 BLANK, 1 PROVISIONED, 2 SECURED, 3 RMA. -/
def State.lifecycle (s : State) : Nat :=
  let v := s.otpBits 443 440
  if v = 0 then 0 else if v = 1 then 1 else if v = 3 then 2 else 3
/-- The fused security version: the number of bits set (R452). -/
def State.fusedSvn (s : State) : Nat := ((List.range 64).filter (fun i => bitAt s.otp.sec (448 + i))).length
/-- The digest of a root key (R452), and whether its slot is revoked. -/
def State.rootHash (s : State) (n : Nat) : List Byte := s.otpBytes (1024 + 256 * n) 32
def State.rootRevoked (s : State) (n : Nat) : Bool := bitAt s.otp.sec (444 + n)
/-- DS as the boot ROM reads it (R452, R459): zero once DSKILL is blown, or the lock latch is closed. -/
def State.deviceSecret (s : State) : List Byte :=
  if bitAt s.otp.sec 438 ∨ s.sec.dsLocked then List.replicate 32 0 else s.otpBytes 768 32

/-- Whether a signature of a message verifies under a key (R455, R484): one that the key's holder made. Log entry 12. -/
def State.sigOk (s : State) (key msg sig : List Byte) : Bool := s.signatures.contains (key, msg, sig)

/-! ### HKDF-SHA-256 (R461, RFC 5869) -/

/-- HMAC-SHA-256 with a key of at most 64 bytes. -/
def hmac (key msg : List Byte) : List Byte :=
  let k := padTo 64 key
  sha256 (k.map (· ^^^ 0x5C) ++ sha256 (k.map (· ^^^ 0x36) ++ msg))
/-- 48 bytes of key material from input key material, salt and info. -/
def hkdf48 (ikm salt info : List Byte) : List Byte :=
  let prk := hmac (if salt.isEmpty then List.replicate 32 0 else salt) ikm
  let t1 := hmac prk (info ++ [1])
  (t1 ++ hmac prk (t1 ++ info ++ [2])).take 48

/-! ### Random numbers (R451) -/

/-- Change the security side. -/
def State.modSec (s : State) (f : Sec → Sec) : State := { s with sec := f s.sec }

/-- `n` bytes of the DRBG: none where it refuses. It is reseeded every 65,536 requests unless the generator has failed. -/
def State.random (s : State) (n : Nat) : State × Option (List Byte) :=
  let left := if s.sec.drbgLeft = 0 ∧ ¬ s.sec.trngFailed then 65536 else s.sec.drbgLeft
  if left = 0 then (s, none)
  else ({ s.modSec (fun x => { x with drbgLeft := left - 1 }) with free := s.free + 1 }, some ((List.range n).map (Config.trng s.free)))

/-- Post a SECURITY record (R470): component or session, manifest and fused SVN. -/
def State.securityRec (s : State) (sev : Sev) (cause id : Nat) : State :=
  s.postErr { cls := .security, sev := sev, cause := cause, ukind := .mgc, info6 := id,
              info7 := ((s.sec.manifest.getD 5 0).toNat) * 256 + s.fusedSvn }

end Sys2Proof.Machine
end

