-- ==== Sys2Proof/Machine/Repair.lean ====
section
/-!
DEFINITION. Benching, substitution, hard loss, self-test, repair fuses and scan (17_selftest_repair.md): what requests do when they take
effect, the actions of an edge, and the events that come from the tests themselves.
-/
namespace Sys2Proof.Machine

/-! ### Bench requests taking effect (R473, R475, R479) -/

/-- Admission places on a position again. -/
def State.freePlace (s : State) (pos : Nat) : State := s.modFix (fun f => { f with noPlace := f.noPlace.filter (fun p => p != pos) })
/-- The bench in progress ends and the next request begins (R473). -/
def State.endBench (s : State) : State :=
  let s1 := s.modRepair (fun r => { r with bench := none })
  match s1.repair.queue with
  | [] => s1
  | (c, sub) :: q =>
    let s2 := s1.modRepair (fun r => { r with queue := q })
    if s2.pstate c = .inService then s2.startBench c sub else s2.freePlace (s2.posOf c)

/-- A cancel (R475): a queued request leaves the queue; one whose copy has not begun ends, and the core stays in service. -/
def State.cancelBench (s : State) (c : Nat) : State :=
  match s.repair.bench with
  | some b =>
    if b.core = c ∧ ¬ s.copyBegun b then (((s.setPstate c .inService).freePlace (s.posOf c))).endBench
    else if s.repair.queue.any (fun q => q.1 == c) then
      (s.modRepair (fun r => { r with queue := r.queue.filter (fun q => q.1 != c) })).freePlace (s.posOf c)
    else s
  | none => s
/-- A RETURN (R479): the substitute of a reversible core's position is benched, with that core as its substitute. -/
def State.returnBench (s : State) (p : Nat) : State :=
  match Table.get none s.stands p with
  | some c => if p % 18 < 2 ∧ s.pstate p = .spare ∧ c ≠ p then (s.requestBench c (some p)).1 else s
  | none => s
/-- A BENCHREQ write takes effect (R485). -/
def State.applyBenchreq (s : State) (p v : Nat) : State :=
  if v = 1 then (s.requestBench p none).1 else if v = 2 then s.returnBench p else if v = 3 then s.cancelBench p else s

/-! ### The edge (R281 action 4, R293) -/

/-- Whether a run of bytes leads to a core's scratchpad through the alias (R247). -/
def State.aliasOf (s : State) (xu a n c : Nat) (wr : Bool) : Bool := match (s.resolve xu a n wr none).2 with | .ok (.spm k _) => k == c | _ => false
/-- Whether some transfer's remaining units come from or go to a core's scratchpad (R247, R293): its own, or through the alias. -/
def State.targetsCore (s : State) (c : Nat) : Bool :=
  s.mem.xfers.any (fun x => x.st != .failed && ((x.pos == c && x.xu.isNone) ||
    (List.range (x.units - x.next)).any (fun i =>
      ((x.dstRuns (x.next + i)).any (fun r => match x.dst with | .dva _ => s.aliasOf x.xuOf r.1 r.2 c true | _ => false) ||
       (x.srcRuns (x.next + i)).any (fun r => match x.src with | .dva _ => s.aliasOf x.xuOf r.1 r.2 c false | _ => false)))))
/-- What a bench copies (R170, R474): scratchpad, accumulators with their status words, arrival counters, tags, CACHECTL and HGCTL with ENABLE
clear. -/
def Core.benchCopy (old : Core) : Core :=
  { spm := old.spm, due := old.due, was := old.was, blocks := old.blocks, acm := old.acm, tiles := old.tiles, arr := old.arr, rtags := old.rtags,
    cachectl := old.cachectl, hgctl := old.hgctl &&& ~~~1#64 }

/-- A core takes a position over (R475 step 5). -/
def State.takeOver (s : State) (pos old new : Nat) (c : Core) : State :=
  let s1 := ((s.setCore new c).modCore old (fun k => { k with st := .benched })).modRepair (fun r => { r with stood := Table.set old r.stood old pos })
  (({ s1 with stands := Table.set none s1.stands pos (some new) }).setPstate new .inService).freePlace pos

/-- The bench of an edge (R293, R475 steps 3 and 5): a verified copy becomes the position's core; a core with no spare leaves service. -/
def State.benchStep (s : State) : State :=
  match s.repair.bench with
  | none => s
  | some b =>
    let pos := s.posOf b.core
    match b.sub with
    | some r =>
      if b.copied ∧ (s.core b.core).vacant ∧ ¬ s.targetsCore b.core then
        (((s.takeOver pos b.core r (s.core b.core).benchCopy).setPstate b.core .benched).repairRec .info 0x03 pos).endBench
      else if s.copyMay b.core then s.modRepair (fun x => { x with bench := some { b with copying := true } })
      else s
    | none =>
      if s.posClear pos ∧ (s.core b.core).vacant ∧ ¬ s.targetsCore b.core then
        let s1 := ((s.modCore b.core (fun k => { k with st := .benched })).setPstate b.core .benched).modRepair (fun x =>
          { x with stood := Table.set b.core x.stood b.core pos })
        ({ s1 with stands := Table.set none s1.stands pos none }).endBench
      else s

/-- Place the phases of a command again without a position it has lost (R293); one that this delays records CAPACITY_LOSS. An admitted command with
no room returns to READY, a running one keeps trying at later edges. -/
def State.replace (s : State) (c : Cmd) (ords : List Nat) : State :=
  match c.cost with
  | none => s
  | some cost =>
    let mine (p : Placement) : Bool := p.q == c.q && p.cseq == c.cseq && p.cls != .repair
    let endOf (l : List Placement) : Nat := (l.map (fun p => p.first + p.slots)).foldl max 0
    let old := endOf (s.fix.ledger.filter (fun p => mine p && !p.released))
    let s0 := s.modFix (fun f => { f with ledger := f.ledger.filter (fun p => !(mine p && !p.released)) })
    let after := max s0.leadSlot (endOf (s.fix.ledger.filter (fun p => mine p && p.released)))
    let phs := (cost.phases.zipIdx).filter (fun x => ords.contains x.2)
    let lim := (s0.fix.cycle + 32) * s0.nslots
    let rest (x : State) : State := x.modRepair (fun r => { r with unplaced := r.unplaced.filter (fun u => u.1 != c.ref) })
    match s0.placeAll ⟨c.q, c.cseq, cost, lim, lim⟩ phs after [] with
    | .inl l => rest (if old < endOf l then (s0.charge c.ref l).recordReason c.ref 0x0B else s0.charge c.ref l)
    | .inr _ =>
      let s1 := s0.recordReason c.ref 0x0B
      if c.st = .admitted then rest (s1.withdraw c)
      else (rest s1).modRepair (fun r => { r with unplaced := r.unplaced ++ [(c.ref, ords)] })

/-- Unreleased phases of a command in the ledger. -/
def State.openPhases (s : State) (c : Cmd) : List Nat :=
  (s.fix.ledger.filter (fun p => p.q == c.q && p.cseq == c.cseq && !p.released && p.cls != .repair)).map (fun p => p.phase)

/-- A lost core's position at the next edge (R293, R476): its substitute without a copy, skimmed, every block LOST; or out of service, its
phases placed again. -/
def State.loseCore (s : State) (c : Nat) : State :=
  let pos := s.posOf c
  match s.spareFor c with
  | some r =>
    let blocks : Table SpmBlock := (List.range 6144).map (fun b => (b, { lost := true }))
    let s1 := s.takeOver pos c r { blocks := blocks }
    s1.modCore c (fun k => { k with st := .halted })
  | none =>
    let hit := s.cfe.cmds.filter (fun d => s.fix.ledger.any (fun p =>
      p.q == d.q && p.cseq == d.cseq && !p.released && p.cls != .repair && p.positions.contains pos))
    let s1 := ({ s with stands := Table.set none s.stands pos none }).modRepair (fun r => { r with stood := Table.set c r.stood c pos })
    hit.foldl (fun x d => x.replace d (s.openPhases d)) s1

/-- Action 4 of an edge (R281): BENCHED cores begin their BIST (R475 step 7), lost cores are replaced, phases that lost their place are tried
again, and the bench in progress goes on. -/
def State.benchEdge (s : State) : State :=
  let s1 := (List.range 144).foldl (fun x c => if x.pstate c = .benched then x.setPstate c .testing else x) s
  let s2 := s1.repair.lost.foldl State.loseCore (s1.modRepair (fun r => { r with lost := [] }))
  let s3 := s2.repair.unplaced.foldl (fun x u => match x.cfe.find u.1 with
    | some d => x.replace d u.2
    | none => x.modRepair (fun r => { r with unplaced := r.unplaced.filter (fun y => y.1 != u.1) })) s2
  s3.benchStep

/-! ### Events -/

/-- BENCH_COPY_DONE (R474, R475 step 4, R481): the copy ends in a reserved slot free on the position: every block verified, or a second mismatch, which
abandons the bench and tests the substitute. -/
def execBenchCopyDone (t : Nat) (ok : Bool) (s : State) : Host.Outcome State Fault Refusal :=
  let s := s.atB t
  if s.stopped then .next s else
  match s.repair.bench with
  | some b =>
    match b.sub with
    | some r =>
      if ¬ s.copyBegun b ∨ b.copied ∨ ¬ s.mayRepair .benchCopy [b.core, r] then .next s
      else
      let s := s.placeRepair .benchCopy [b.core, r]
      if ok then .next (s.modRepair (fun x => { x with bench := some { b with copying := true, copied := true } }))
      else
        .next ((((s.setPstate b.core .inService).setPstate r .testing).freePlace (s.posOf b.core)).repairRec .degraded 0x02 b.core).endBench
    | none => .next s
  | none => .next s

/-- HARD_LOSS (R476): a core is lost; commands with a task on it fault, a bench it takes part in is abandoned, and its substitute stands for it
at the next edge. -/
def execHardLoss (t c : Nat) (s : State) : Host.Outcome State Fault Refusal :=
  let s := s.atB t
  if c < 144 ∧ (s.pstate c = .inService ∨ s.pstate c = .benching) then
    let pos := s.posOf c
    let refs := ((s.core c).task.map (·.cmdref)).toList ++ ((s.core c).ondeck.map (·.cmdref)).toList
    let s1 := match s.repair.bench with
      | some b =>
        if b.core = c then (s.repairRec .degraded 0x02 c).endBench else s
      | none => s
    let s2 := ((s1.setPstate c .lost).modRepair (fun r => { r with lost := r.lost ++ [c], queue := r.queue.filter (fun q => q.1 != c) })).modCore c
      (fun k => { k with st := .halted })
    let s3 := (s2.modFix (fun f => { f with noPlace := f.noPlace.filter (fun p => p != pos) ++ [pos] })).repairRec .unit 0x08 pos
    .next (refs.foldl (fun x r => x.faultCommand { cause := .uncorrectable, engine := .ct, cmdref := r, pos := c }) s3)
  else .next s

/-- A failing row found by a memory test (R477, R482): store, sub-array, row. -/
def fuseEntry (store unit array spare row : Nat) : Nat :=
  2 ^ 63 + store * 2 ^ 60 + unit * 2 ^ 52 + array * 2 ^ 36 + spare * 2 ^ 34 + row * 2 ^ 22

/-- Every repair entry in force or pending (R482). -/
def State.repairs (s : State) : List Nat := s.repair.fuses.map (·.2) ++ s.repair.pend

/-- Entries that repair failing rows with the spare rows left, 4 to a sub-array; none where a sub-array has too few (R480, R482). -/
def repairRows (have' : List Nat) (unit : Nat) : List (Nat × Nat × Nat) → Option (List Nat)
  | [] => some []
  | (store, array, row) :: l =>
    let n := (have'.filter (fun e => bits e 62 36 == store * 2 ^ 24 + unit * 2 ^ 16 + array)).length
    if 4 ≤ n then none
    else
      let e := fuseEntry store unit array n row
      (repairRows (have' ++ [e]) unit l).map (fun r => e :: r)

/-- BISTRES (R485). -/
def State.setBist (s : State) (c : Nat) (pend mb lb : Bool) : State :=
  let v := s.cyc % 256 * 2 ^ 24 + b2n pend * 4 + b2n mb * 2 + b2n lb
  s.modRepair (fun r => { r with bist := Table.set 0 r.bist c v })

/-- The primary record of a position is closed (R391, R478). -/
def State.closePos (s : State) (p : Nat) : State :=
  if (s.err.primaryOf (some ⟨.position, p⟩)).isSome then (s.modErr (fun e => e.closePrimary ⟨.position, p⟩)).repairRec .info 0x09 p else s
/-- A core returns to SPARE (R478): the primary record of its position is closed, and that of the position it stood for last. -/
def State.toSpare (s : State) (c : Nat) : State :=
  ((s.setPstate c .spare).closePos c).closePos (Table.get c s.repair.stood c)

/-- The BIST, in a repair slot, of a core in service for which no two of a cross-check agreed (R416): one that fails is benched. -/
def State.slotBist (s : State) (c : Nat) (pass : Bool) : State :=
  let s1 := (s.placeRepair .crossCheck [c]).modErr (fun e => { e with xcBist := e.xcBist.filter (fun x => x != c) })
  if pass then s1 else (s1.requestBench c none).1

/-- BIST_DONE (R416, R478): LBIST result, MBIST result with the rows that failed, and whether the repeat after repair passed. -/
def execBistDone (t c : Nat) (lb mb : Bool) (rows : List (Nat × Nat × Nat)) (again : Bool) (s : State) : Host.Outcome State Fault Refusal :=
  let s := s.atB t
  if s.err.xcBist.contains c ∧ s.pstate c = .inService ∧ s.mayRepair .crossCheck [c] then .next (s.slotBist c (lb && mb))
  else if ¬ (c < 144 ∧ s.pstate c = .testing ∧ s.start.complete) then .next s
  else if lb ∧ mb then .next (((s.setBist c false true true).repairRec .info 0x04 c).toSpare c)
  else
    match (if lb ∧ ¬ mb ∧ again then repairRows s.repairs c rows else none) with
    | some es =>
      let s1 := (s.setBist c true true true).modRepair (fun r => { r with pend := r.pend ++ es })
      .next ((s1.repairRec .corrected 0x06 c).toSpare c)
    | none =>
      let s1 := (s.setBist c false mb lb).modRepair (fun r => { r with pend := r.pend ++ [fuseEntry 7 c 0 0 0] })
      .next ((s1.setPstate c .retired).repairRec .unit 0x05 c)

/-- What a unit test touches: the core, and the test unit of its foundation die, which runs one at a time (R480). -/
def unitTouch (c : Nat) : List Nat := [c, 1024 + c / 18]
/-- Whether an ACM tile may be tested (R480): not while it holds a result that has not been written out. -/
def Core.tileTestable (c : Core) (u : Nat) : Bool := decide (u < 96) || !(c.tile (u - 96)).done || (c.tile (u - 96)).out

/-- UNIT_TEST (R480, R481): unit `u` of the core `c` (96 granules, then 16 tiles) has been tested in a reserved slot; a failure restores it, posts a
record and asks for a bench. The last unit of a round gives MBLAST. -/
def execUnitTest (t c u : Nat) (fail : Bool) (s : State) : Host.Outcome State Fault Refusal :=
  let s := s.atB t
  if s.stopped ∨ s.obj 0x8000 1 = 0 ∨ ¬ (c < 144 ∧ u < 112 ∧ s.pstate c = .inService) ∨ ¬ (s.core c).tileTestable u ∨
     ¬ s.mayRepair .unitTest (unitTouch c) then .next s
  else
    let s := s.placeRepair .unitTest (unitTouch c)
    let done := Nat.lor (Table.get 0 s.repair.mbUnits c) (2 ^ u)
    let all := decide (done = 2 ^ 112 - 1)
    let s1 := s.modRepair (fun r => { r with mbUnits := Table.set 0 r.mbUnits c (if all then 0 else done),
                                             mbLast := if all then Table.set 0 r.mbLast c s.cyc else r.mbLast })
    if fail then
      .next ((s1.postErr { cls := .integrity, sev := .unit, cause := 0x05, ukind := .position, unit := c }).requestBench c none).1
    else .next s1

/-! ### Requests at acceptance -/

/-- A BISTRUN write (R477): the full BIST of a SPARE, BENCHED or LOST core begins. -/
def State.applyBistrun (s : State) (c : Nat) : State := if c < 144 then s.setPstate c .testing else s
/-- Whether a BISTRUN write is refused with BUSY (R485). -/
def State.bistBusy (s : State) (c : Nat) : Bool := !(s.pstate c == .spare || s.pstate c == .benched || s.pstate c == .lost)

/-- A FUSEREPAIR write of 1 (R482): every pending entry is blown. -/
def State.applyFuserepair (s : State) (v : Nat) : State :=
  if v = 1 ∧ s.repair.pend ≠ [] then s.modRepair (fun r => { r with blow := some { svn := none, since := s.bclk, n := r.pend.length } }) else s

/-- A SCANREQ write (R483): secrets zeroed, sessions ended, the core skimmed, its chain opened. -/
def State.applyScanreq (s : State) (c : Nat) : State :=
  let s1 := s.clearSecrets.modSec (fun x => { x with debugTok := none })
  let s2 := s1.modCore c (fun k => { k with spm := [], due := [], was := [], blocks := [], acm := [], tiles := [], vregs := [], vtags := [], masks := [] })
  (s2.modRepair (fun r => { r with scanOpen := if r.scanOpen.contains c then r.scanOpen else r.scanOpen ++ [c] })).securityRec .unit 0x06 0
/-- Whether a SCANREQ is refused with BUSY (R483). -/
def State.scanBusy (s : State) (c : Nat) : Bool := !(s.pstate c == .benched || s.pstate c == .lost || s.pstate c == .retired)
/-- Whether a SCANREQ has the token it needs (R483): in SECURED, an accepted debug token that names the core. -/
def State.scanToken (s : State) (c : Nat) : Bool := s.lifecycle != 2 || s.sec.debugTok == some c

/-- TOKENBUF as the token it holds (R484). -/
def State.token (s : State) : List Byte := (List.range 8).flatMap (fun i => leBytes 1024 (s.obj 0x8201 i))
/-- The next lifecycle value that a step forward leads to (R452, R453). -/
def nextLc (v : Nat) : Nat := if v = 0 then 1 else if v = 1 then 3 else 7

/-- Whether the token in TOKENBUF passes every check of R484. -/
def State.tokenOk (s : State) : Bool :=
  let b := s.token
  let byte (i : Nat) : Nat := (b.getD i 0).toNat
  let pub := (b.drop 72).take 32
  let slot := byte 6
  leNat (b.take 4) == 0x4E4B4F54 && (b.drop 8).take 32 == padTo 32 s.otp.serial && (b.drop 40).take 32 == s.sec.tokNonce &&
  (b.drop 104).take 24 == List.replicate 24 0 &&
  s.sigOk pub (strBytes "Scaorabel token" ++ b.take 128) ((b.drop 128).take 7856) &&
  ((byte 4 == 1 && byte 5 == 1 && slot == 0 && decide (byte 7 < 144) && sha256 pub == s.otpBytes 512 32) ||
   (byte 4 == 2 && byte 7 == 0 && decide (slot < 4) && !(s.rootRevoked slot) && sha256 pub == s.rootHash slot &&
    s.lifecycle != 3 && byte 5 == nextLc (s.otpBits 443 440)))

/-- An accepted token (R453, R484): a debug token holds for one SCANREQ, a lifecycle token blows its step: entering PROVISIONED draws and
fuses DS, entering RMA blows DSKILL. A new TOKNONCE is drawn. -/
def State.applyToken (s : State) : State :=
  let b := s.token
  let arg := (b.getD 5 0).toNat
  let s1 := if b.getD 4 0 = 1 then s.modSec (fun x => { x with debugTok := some (b.getD 7 0).toNat })
    else
      let x := s.otpBlow (arg * 2 ^ 440)
      if arg = 1 then { x.otpBlow (leNat ((List.range 32).map (Config.trng x.free)) * 2 ^ 768) with free := x.free + 1 }
      else if arg = 7 then x.otpBlow (2 ^ 438) else x
  { s1.modSec (fun x => { x with tokNonce := (List.range 32).map (Config.trng s1.free) }) with free := s1.free + 1 }

/-- The first number from `k` on that a list does not hold, of `n` candidates. -/
def firstUnused (used : List Nat) : Nat → Nat → Option Nat
  | 0, _ => none
  | n + 1, k => if used.contains k then firstUnused used n (k + 1) else some k
/-- The next fuse slot (R482). -/
def Repair.slotFree (r : Repair) : Option Nat := firstUnused r.used 2048 0

/-- Blow the pending entries in order (R482): `errs` the slots whose writing failed, used up without coming into force. -/
def State.blowAll (s : State) (errs : List Nat) : Nat → State
  | 0 => s
  | n + 1 =>
    match s.repair.pend with
    | [] => s
    | e :: rest =>
      match s.repair.slotFree with
      | none => s.postErr { cls := .repair, sev := .degraded, cause := 0x07, ukind := .mgc }
      | some k =>
        let s1 := s.modRepair (fun r => { r with used := r.used ++ [k] })
        if errs.contains k then
          (s1.postErr { cls := .repair, sev := .degraded, cause := 0x07, ukind := .mgc }).blowAll errs n
        else (s1.modRepair (fun r => { r with fuses := Table.set 0 r.fuses k e, pend := rest })).blowAll errs n

/-- FUSE_BLOW_DONE (R467, R482): 640 µs per entry after it began, the blowing ends. `errs` names repair slots whose writing failed, or is not
empty where SVN fuses did not take. -/
def execFuseBlowDone (t : Nat) (errs : List Nat) (s : State) : Host.Outcome State Fault Refusal :=
  let s := s.atB t
  match s.repair.blow with
  | none => .next s
  | some b =>
    if s.bclk < b.since + b.n * 640000 then .next s
    else
      let s1 := s.modRepair (fun r => { r with blow := none })
      match b.svn with
      | none => .next (s1.blowAll errs (s1.repair.pend.length + errs.length))
      | some v =>
        if errs = [] then .next (s1.otpBlow ((2 ^ v - 1) * 2 ^ 448))
        else .next ((s1.modSec (fun x => { x with fw := .refused, fwErr := 6 })).securityRec .unit 0x07 0)

/-- TEST_ACCESS_PORT (R512): boundary scan, which moves contacts only; with `inner`, in test mode, the internal scan chains open. -/
def execTestAccessPort (t : Nat) (inner : Bool) (s : State) : Host.Outcome State Fault Refusal :=
  let s := s.atB t
  if inner ∧ s.start.st = .testMode then .next (s.modRepair (fun r => { r with scanOpen := List.range 144 })) else .next s

end Sys2Proof.Machine
end

