-- ==== Sys2Proof/Machine/Errors.lean ====
section
/-!
DEFINITION. The error queue's events, the safe state, cross-checks and Seal re-reads (14_errors_integrity.md R392-R404, R415, R416).
-/
namespace Sys2Proof.Machine

/-- A write of ERQHEAD by the host driver or by the management (R392, R394): only the owner's takes effect, and only within the queue. -/
def State.setErqhead (s : State) (mgmt : Bool) (v : Nat) : State :=
  if (s.obj 0x2A00 1 = 1) ≠ (mgmt = true) ∨ serialLt v s.err.erqhead.toNat 32 ∨ serialLt s.err.erqtail.toNat v 32 then s
  else s.modErr (fun e => { e with erqhead := BitVec.ofNat 32 v }.drain)

/-- A write of SCFREE (R399): a used slot is freed; frozen slots stay (R402). -/
def State.freeCard (s : State) (k : Nat) : State :=
  if s.err.frozen ∨ 496 ≤ k then s else s.modErr (fun e => { e with scorecards := Table.set none e.scorecards k none })

/-- ERRGAP_EXPIRY (R394): a deferred signal is sent. -/
def execErrgapExpiry (t : Nat) (s : State) : Host.Outcome State Fault Refusal :=
  let s := s.atB t
  match s.err.signalDue with
  | some d =>
    if d ≤ s.bclk then .next ((s.modErr (fun e => { e with signalDue := none, lastSignal := some s.bclk })).msix (s.obj 0x2A00 2)) else .next s
  | none => .next s

/-- HANDLER_WATCHDOG (R401, R521). -/
def execHandlerWatchdog (t : Nat) (s : State) : Host.Outcome State Fault Refusal := .next ((s.atB t).fatalTrigger 0x03 .mgc 0 0 0)

/-- A trigger of R401 without a command of its own. -/
def State.trigger (s : State) : FatalTrigger → State
  | .mgcMemory => s.fatalTrigger 0x01 .mgc 0 0 0
  | .aggregator => s.fatalTrigger 0x02 .ioDie 0 0 0
  | .repairAction p => s.fatalTrigger 0x04 .position p 0 0
  | .ledger => s.fatalTrigger 0x05 .fixtureEngine 0 0 0
  | .router n => if n < 8 then s.fatalTrigger 0x06 .foundationDie n 0 0 else s.fatalTrigger 0x06 .ioDie (n - 8) 0 0

/-- Every core stops (R402 step 6). -/
def State.haltCores (s : State) : State :=
  { s with cores := s.cores.map (fun p => (p.1, if p.2.task.isSome ∧ p.2.st ≠ .benched then { p.2 with st := .halted } else p.2)) }

/-- The last records of a queue, in CSEQ order (R403): a DONE command takes its own status, any other DEVICE_FATAL. -/
def State.lastRecords (s : State) (q : Nat) : State :=
  (s.cfe.cmdsOf q).foldl (fun x c =>
    let st := if c.st = .done then x.statusOf c else .deviceFatal
    let p := x.issueRecord {} (if q = 0 then 0 else (x.cfe.queue q).cr) (x.record c st)
    if p.2 then p.1.posted c st else x) s

/-- SAFE_STATE_ENTRY (R401-R403): with a trigger, the safe state begins; without one, its steps 2 to 8 end 2,000 BCLK after the trigger: cores halt,
the last records are issued, records freeze, FATALVEC is signalled. -/
def execSafeStateEntry (t : Nat) (trig : Option FatalTrigger) (s : State) : Host.Outcome State Fault Refusal :=
  let s := s.atB t
  match trig, s.err.fatalAt with
  | some k, _ => .next (s.trigger k)
  | none, none => .next s
  | none, some f =>
    if s.err.frozen ∨ s.bclk < f + 2000 then .next s
    else
      let s1 := s.haltCores
      let s2 := if s1.cfe.att = .attached ∧ s1.err.fatalSrc.1 ≠ .cfe then (s1.cfe.queues.map (·.1)).foldl State.lastRecords s1 else s1
      .next ((s2.modErr (fun e => { e with frozen := true })).msix (s2.obj 0x2A00 3))

/-! ### Cross-checks (R413-R416) -/

/-- The generator of R414: the next state, and the eight operand bytes it gives, least significant first. -/
def xcNext (st : BitVec 64) : BitVec 64 × BitVec 64 :=
  let s1 := st + 0x9E3779B97F4A7C15#64
  let z1 := (s1 ^^^ (s1 >>> 30)) * 0xBF58476D1CE4E5B9#64
  let z2 := (z1 ^^^ (z1 >>> 27)) * 0x94D049BB133111EB#64
  (s1, z2 ^^^ (z2 >>> 31))
/-- `n` times eight operand bytes of a run (R414). -/
def xcBytes : Nat → BitVec 64 → List Byte
  | 0, _ => []
  | n + 1, st => leBytes 8 (xcNext st).2.toNat ++ xcBytes n (xcNext st).1
/-- An element code as the cores take it (R414): NaN and infinite codes give 0. -/
def xcElement (f : FpFmt) (c : Nat) : Nat := match f.decode c with | .num _ _ => c | _ => 0
/-- Scale codes as the cores take them (R414, R51): E8M0 without 0xFF, FP16 without what R51 forbids. -/
def xcE8m0 (c : Nat) : Nat := if c = 0xFF then 0 else c
def xcFp16 (c : Nat) : Nat :=
  let e := bits c 14 10
  if c = 0x8000 then c else if bitAt c 15 ∨ e = 31 ∨ (e = 0 ∧ c ≠ 0) then 0 else c

/-- The seed that the MGC draws for a run (R414); with the generator failed it is taken from the seed before (R451). -/
def State.xcSeed (s : State) : BitVec 64 :=
  if s.sec.trngFailed then (xcNext s.err.xcSeed).2 else BitVec.ofNat 64 (leNat ((List.range 8).map (Config.trng s.free)))
/-- A run has begun with its seed. -/
def State.xcDrawn (s : State) : State := { s.modErr (fun e => { e with xcSeed := s.xcSeed }) with free := s.free + 1 }

/-- Cores in service whose position is free in the current slot, but for some. -/
def State.xcFree (s : State) (but : List Nat) : List Nat :=
  (List.range 144).filter (fun c => !(but.contains c) && s.pstate c == .inService && s.slotFree [c])
/-- Of several cores the one whose last pass is oldest, the lowest of equals. -/
def State.xcOldest (s : State) (l : List Nat) : Option Nat :=
  l.find? (fun c => l.all (fun d => decide (Table.get 0 s.err.xcAt c ≤ Table.get 0 s.err.xcAt d)))
/-- Of the cores free for a run those on other dies than some, where there are any (R415, R416). -/
def State.xcOnDie (s : State) (but : List Nat) : List Nat :=
  let l := s.xcFree but
  let far := l.filter (fun c => !(but.any (fun b => b / 18 == c / 18)))
  if far = [] then l else far
/-- The partner of a due core (R415): on another die where one is free, the due one whose XCLAST is oldest, else the oldest. -/
def State.xcPartner (s : State) (a : Nat) : Option Nat :=
  let l := s.xcOnDie [a]
  match s.xcOldest (l.filter s.err.xcDue.contains) with
  | some c => some c
  | none => s.xcOldest l

/-- XCLAST of cores that agreed, and their checks no longer due (R416). -/
def State.xcPass (s : State) (l : List Nat) : State :=
  s.modErr (fun e => { e with xcLast := l.foldl (fun a c => Table.set 0 a c s.cyc) e.xcLast, xcAt := l.foldl (fun a c => Table.set 0 a c s.bclk) e.xcAt,
                              xcDue := e.xcDue.filter (fun c => !(l.contains c)), xcSlot := l.foldl (fun a c => Table.set none a c none) e.xcSlot })

/-- The first reserved slot from `n` on that no placement of the ledger covers on a position (R415), of `k` slots. -/
def State.xcFirst (s : State) (p : Nat) : Nat → Nat → Option Nat
  | 0, _ => none
  | k + 1, n => if slotRsv (s.entryOf n) ∧ posFree s.fix.ledger p n 1 then some n else s.xcFirst p k (n + 1)
/-- Positions fall due at an edge (R415): XCPERIOD / 2 after their last pass; each due one has a reserved slot left free, another where its slot has
passed. -/
def State.xcEdge (s : State) : State :=
  let here := s.fix.cycle * s.nslots
  let half := s.obj 0x2A01 2 * 500000000
  if s.obj 0x2A01 1 = 0 then s.modErr (fun e => { e with xcDue := [], xcSlot := [] })
  else
    let inServ := (List.range 144).filter (fun c => s.pstate c == .inService)
    let due := inServ.filter (fun c => s.err.xcDue.contains c || decide (Table.get 0 s.err.xcAt c + half ≤ s.bclk))
    let slotOf (c : Nat) : Option Nat := match Table.get none s.err.xcSlot c with
      | some n => if here ≤ n then some n else s.xcFirst (s.posOf c) (32 * s.nslots) here
      | none => s.xcFirst (s.posOf c) (32 * s.nslots) here
    s.modErr (fun e => { e with xcDue := due, xcSlot := due.foldl (fun a c => Table.set none a c (slotOf c)) [] })

/-- Whether a run may begin on a due core `a` with `b` (R415, R416): cross-checks are enabled, in a slot left free for it, and `b` is its partner. -/
def State.xcMay (s : State) (a b : Nat) : Bool :=
  s.obj 0x2A01 1 != 0 && s.pstate a == .inService && s.err.xcDue.contains a && s.xcPartner a == some b &&
  (match Table.get none s.err.xcSlot a with | some n => decide (n ≤ s.absSlot) | none => true) && s.mayRepair .crossCheck [a, b]
/-- A run has been made (R416): counted, and placed. -/
def State.xcCount (s : State) (touch : List Nat) (fails : Nat) : State :=
  (s.placeRepair .crossCheck touch).modErr (fun e => { e with xcRuns := (e.xcRuns + 1) % 2 ^ 64, xcFails := (e.xcFails + fails) % 2 ^ 64 })
/-- The repeat of a pair that differed may run on a third core (R416): in a later slot, on a third die where one is free. -/
def State.xcThird (s : State) (a b third : Nat) : Option XcRun :=
  match s.err.xcPend.find? (fun r => r.a == a && r.b == b) with
  | some r => if r.slot < s.absSlot ∧ (s.xcOnDie [a, b]).contains third ∧ s.mayRepair .crossCheck [third] then some r else none
  | none => none
/-- The verdict of a repeat: the run is over. -/
def State.xcVerdict (s : State) (r : XcRun) (third : Nat) : State :=
  (s.xcCount [third] 0).modErr (fun e => { e with xcPend := e.xcPend.filter (fun x => x != r) })
/-- A record of a verdict (R416, R417): the cycle of the core's last pass and of its failure, the others, and where the results differ. -/
def State.xcRec (s : State) (sev : Sev) (cause c other third off : Nat) : State :=
  s.postErr { cls := .integrity, sev := sev, cause := cause, ukind := .position, unit := c, info6 := Table.get 0 s.err.xcLast c * 2 ^ 32 + s.cyc,
              info7 := other % 256 * 2 ^ 56 + third % 256 * 2 ^ 48 + off % 2 ^ 32 }

/-- CROSS_CHECK_RUN (R413-R416): a run on a due core `a` and its partner `b` ends, or the repeat of one that differed, with the same seed, on a third
core. Where no two agree, all three are tested by BIST in repair slots. -/
def execCrossCheckRun (t a b : Nat) (o : XcOutcome) (s : State) : Host.Outcome State Fault Refusal :=
  let s := s.atB t
  if s.stopped then .next s
  else match o with
  | .agree => if s.xcMay a b then .next ((s.xcDrawn.xcCount [a, b] 0).xcPass [a, b]) else .next s
  | .differ =>
    if s.xcMay a b then
      .next ((s.xcDrawn.xcCount [a, b] 1).modErr (fun e => { e with xcPend := e.xcPend ++ [⟨a, b, s.xcSeed, s.absSlot⟩] }))
    else .next s
  | .suspect bad third off => match s.xcThird a b third with
    | some r =>
      if bad ≠ a ∧ bad ≠ b then .next s
      else
        let other := if bad = a then b else a
        .next ((((s.xcVerdict r third).xcRec .unit 0x01 bad other third off).xcPass [other, third]).requestBench bad none).1
    | none => .next s
  | .transient third => match s.xcThird a b third with
    | some r => .next ((((s.xcVerdict r third).xcRec .degraded 0x02 a b third 0).followUp .vxeResidue a 0).followUp .vxeResidue b 0)
    | none => .next s
  | .noneAgree third => match s.xcThird a b third with
    | some r => .next ((s.xcVerdict r third).modErr (fun e => { e with xcBist := e.xcBist ++ [a, b, third].filter (fun c => !(e.xcBist.contains c)) }))
    | none => .next s

/-- SEAL_REREAD (R404): in a repair slot a block that failed its Seal is read again; a second failure enters it in the bad-block list, a clean read is recorded. -/
def execSealReread (t dpa : Nat) (bad : Bool) (s : State) : Host.Outcome State Fault Refusal :=
  let s := s.atB t
  if s.stopped ∨ ¬ s.err.reread.contains dpa ∨ ¬ s.inRsv then .next s
  else
    let s1 := s.modErr (fun e => { e with reread := e.reread.erase dpa })
    match s.region dpa with
    | .hbm st _ =>
      if bad then .next (s1.addBad st dpa)
      else .next (s1.postErr { cls := .integrity, sev := .corrected, cause := 0x04, ukind := .hbmStack, unit := st })
    | .slm k _ =>
      if bad then .next s1
      else .next (s1.postErr { cls := .integrity, sev := .corrected, cause := 0x04, ukind := .foundationDie, unit := k })
    | _ => .next s1

end Sys2Proof.Machine
end

