-- ==== Sys2Proof/Machine/Host.lean ====
section
/-!
DEFINITION. The host attachment (13_host_cxl.md): link events and host loss, answers of the host, the memory window with its snoop filter,
the mailbox, MSI-X, and register writes that have no other behaviour (00_scope.md R11).
-/
namespace Sys2Proof.Machine

/-! ### Link and host loss (R362, R363, R383) -/

/-- What a link loss resets (R383): configuration space, BARs, decoder, MSI-X table, its enable and mask, snoop filter. -/
def HostSide.resetSide (h : HostSide) : HostSide :=
  { h with memEnable := false, bar0 := 0, bar2 := 0, cfg := [], decBase := 0, decWays := 1, decCommitted := false, decLock := false,
           decError := false, msixEnable := false, funcMask := false, msix := [], snoop := [], bi := [] }

/-- The link goes down, a host loss (R383). -/
def State.linkDown (s : State) : State :=
  s.hostLoss.modHost (fun h => { h.resetSide with linkUp := false, width := 0, speed := 0, downAt := some s.bclk })

/-- CXL_LINK_DOWN (R383). -/
def execCxlLinkDown (t : Nat) (s : State) : Host.Outcome State Fault Refusal :=
  let s := s.atB t
  if s.host.linkUp then .next s.linkDown else .next s

/-- CXL_HOT_RESET (R383): as link down; the link trains again. -/
def execCxlHotReset (t : Nat) (s : State) : Host.Outcome State Fault Refusal :=
  let s := s.atB t
  if s.host.linkUp then .next s.linkDown else .next s

/-- CXL_PERST_ASSERT (R383): as link down, until the signal is released. -/
def execCxlPerstAssert (t : Nat) (s : State) : Host.Outcome State Fault Refusal :=
  let s := s.atB t
  let s1 := s.modHost (fun h => { h with perst := true })
  if s.host.linkUp then .next s1.linkDown else .next s1

/-- CXL_PERST_RELEASE (R383, R517): the link may train. -/
def execCxlPerstRelease (t : Nat) (s : State) : Host.Outcome State Fault Refusal :=
  .next ((s.atB t).modHost (fun h => { h with perst := false }))

/-- FUNCTION_LEVEL_RESET (R383): as link down, except that the link stays up. -/
def execFunctionLevelReset (t : Nat) (s : State) : Host.Outcome State Fault Refusal :=
  let s := s.atB t
  if s.host.linkUp then .next (s.hostLoss.modHost HostSide.resetSide) else .next s

/-- HOSTTO_EXPIRY (R383): the CXL.cache request `id` has been unanswered for HOSTTO. -/
def execHosttoExpiry (t id : Nat) (s : State) : Host.Outcome State Fault Refusal :=
  let s := s.atB t
  let late (sentAt : Nat) : Bool := decide (sentAt + s.obj 0x2900 2 * 1000 ≤ s.bclk)
  if s.host.reads.any (fun r => r.id == id && late r.sentAt) || s.host.stores.any (fun h => h.id == id && late h.sentAt) then .next s.hostLoss
  else .next s

/-- LINK_B_TAKEOVER (R362): in mode 1, the link down for 100 ms gives way to the standby link, which then trains. -/
def execLinkBTakeover (t : Nat) (s : State) : Host.Outcome State Fault Refusal :=
  let s := s.atB t
  match s.host.downAt with
  | some d =>
    if s.start.bifur = 1 ∧ ¬ s.host.linkUp ∧ ¬ s.host.perst ∧ d + 100000000 ≤ s.bclk then
      .next (s.modHost (fun h => { h with active := 1 - h.active, downAt := some s.bclk }))
    else .next s
  | none => .next s

/-- Widths and speeds at which the port trains (R361 to R363); mode 1 has two x8 links. -/
def State.linkLegal (s : State) (width speed : Nat) : Bool :=
  (width == 4 || width == 8 || (width == 16 && s.start.bifur == 0)) && (speed == 160 || speed == 320 || speed == 640)

/-- CXL_LINK_TRAINED (R363, R517): the link is up at a width and a speed in 0.1 GT/s. HOSTCHG follows at the next edge; work that a lower rate
slows records CAPACITY_LOSS. A link short of the minimum counts as down. -/
def execCxlLinkTrained (t width speed : Nat) (s : State) : Host.Outcome State Fault Refusal :=
  let s := s.atB t
  if s.start.st ≠ .running ∨ s.bclk < s.start.mgcAt ∨ s.host.perst then .next s
  else if ¬ s.linkLegal width speed then .next (if s.host.linkUp then s.linkDown else s)
  else
    let slower := decide (s.host.linkUp ∧ width * speed < s.host.width * s.host.speed)
    let refs := s.host.reads.map (fun r => r.ref) ++ s.host.stores.map (fun h => h.ref)
    let s1 := s.modHost (fun h => { h with linkUp := true, width := width, speed := speed, downAt := none,
                                           chargeNext := some (100000 * width * speed / 10240) })
    .next (if slower then refs.foldl (fun x r => x.recordReason r 0x0B) s1 else s1)

/-- HOSTCHG takes the trained rate at an edge (R363). -/
def State.hostEdge (s : State) : State :=
  match s.host.chargeNext with
  | some v => (s.setObj 0x2900 6 v).modHost (fun h => { h with chargeNext := none })
  | none => s

/-! ### Answers of the host (R368, R370) -/

/-- HOST_READ_RESPONSE (R368, R370): data for a read, or poison, which faults its command. -/
def execHostReadResponse (t tc id : Nat) (data : List Byte) (poison : Bool) (s : State) : Host.Outcome State Fault Refusal :=
  let s := { s.atB t with cclk := max s.cclk tc }
  match s.host.reads.find? (fun r => r.id == id) with
  | none => .next s
  | some r =>
    let s1 := s.modHost (fun h => { h with reads := h.reads.filter (fun x => x.id != id) })
    if poison then
      let s2 := s1.modHost (fun h => { h with poisonRx := satInc h.poisonRx 64 })
      match s2.xfer r.xfer with
      | some x => .next (s2.failXfer x { cause := .hostPoison, dva := r.src, dpa := r.addr })
      | none => .next s2
    else if data.length = r.len then .next (s1.modXfer r.xfer (fun x => { x with got := x.got ++ [(r.src, data)] }))
    else .next s

/-- HOST_WRITE_GO (R314, R368, R381): a store is acknowledged; its unit counts, or its ring's interrupt follows. -/
def execHostWriteGo (t tc id : Nat) (s : State) : Host.Outcome State Fault Refusal :=
  let s := { s.atB t with cclk := max s.cclk tc }
  match s.host.stores.find? (fun h => h.id == id) with
  | none => .next s
  | some h =>
    let s1 := s.modHost (fun k => { k with stores := k.stores.filter (fun x => x.id != id) })
    match h.xfer, h.ring with
    | some (x, k), _ => (match s1.xfer x with | some y => .next (s1.unitAcked tc y k true) | none => .next s1)
    | none, some r => .next (s1.signalRing r)
    | none, none => .next s1

/-- HOST_SNOOP (R361, R368): every snoop is answered RspIHitI. -/
def execHostSnoop (t addr : Nat) (s : State) : Host.Outcome State Fault Refusal :=
  let s := s.atB t
  if s.host.linkUp then .next (s.emit (.snoopHit addr)) else .next s

/-! ### The window (R372-R377) -/

/-- Whether the window table is valid (R373). -/
def State.hdmValid (s : State) : Bool :=
  (List.range 64).all (fun i =>
    let e := s.hdmEntry i
    decide (s.spreadSegs ≤ e.2) && !(decide (s.obj 0x2400 2 ≤ e.2) && decide (e.2 ≤ s.obj 0x2400 3)) &&
    decide (e.2 + 2 * (s.stack e.1).m < 64) && s.obj 0x2900 5 / 2 ^ (16 * i) % 4096 / 64 == 0 &&
    (List.range i).all (fun j => s.hdmEntry j != e))

/-- The DPA of a window offset (R373). -/
def State.hdmDpa (s : State) (o : Nat) : Nat :=
  let e := s.hdmEntry (o / gib)
  let n := s.spreadSegs
  16 * n * gib + e.1 * ((64 - n) * gib) + (e.2 - n) * gib + o % gib

/-- Whether the window serves an access to a 64 B unit (R384). -/
def State.hdmServes (s : State) (off : Nat) : Bool := s.host.linkUp && s.host.decCommitted && decide (off < 64 * gib) && decide (off % 64 = 0)

/-- The host holds a line from now on (R374): a full filter evicts its oldest line by BISnpInv. -/
def State.snoopAdd (s : State) (line : Nat) : State :=
  if s.host.snoop.contains line then s
  else
    let s1 := if 1048576 ≤ s.host.snoop.length then
        match s.host.snoop.find? (fun l => !(s.host.bi.any (fun b => b.line == l && b.inv))) with
        | some old => s.askBi [old] true
        | none => s
      else s
    s1.modHost (fun h => { h with snoop := h.snoop ++ [line] })

/-- The window offset of a DPA in the window, 0 outside it (the inverse of `hdmDpa`). -/
def State.hdmOffset (s : State) (dpa : Nat) : Nat :=
  match (List.range 64).find? (fun i => decide (s.hdmDpa (i * gib) ≤ dpa) && decide (dpa < s.hdmDpa (i * gib) + gib)) with
  | some i => i * gib + (dpa - s.hdmDpa (i * gib))
  | none => 0

/-- A host write of one unit of the window, a partial write (R237, R376): poisoned data, old bytes that read uncorrectable and a block on the bad-block
list leave it unwritten, the block entered there. `e` is what the read of the old bytes finds. -/
def State.windowUnit (s : State) (dpa : Nat) (data : List Byte) (poison : Bool) (e : Ecc) : State :=
  let st := match s.region dpa with | .hbm k _ => k | _ => 0
  let blk := dpa / 4096 * 4096
  if poison then
    ((s.modHost (fun h => { h with poisonRx := satInc h.poisonRx 64 })).addBad st blk).postErr
      { cls := .host, sev := .degraded, cause := 0x07, ukind := .hostLink, info6 := s.host.decBase + s.hdmOffset dpa }
  else
    let f := s.foundAt dpa e
    if f.2 = .uncorrectable ∨ s.isBad dpa then
      (f.1.addBad st blk).postErr { cls := .memory, sev := .degraded, cause := 0x08, ukind := .hbmStack, unit := st, info6 := dpa }
    else f.1.writeDpa dpa data

/-- HDM_READ (R376, R403): 64 B at a window offset; `hold` whether the host caches the line. -/
def execHdmRead (t off : Nat) (hold : Bool) (e : Ecc) (s : State) : Host.Outcome State Fault Refusal :=
  let s := s.atB t
  if ¬ s.hdmServes off then .next s
  else
    let dpa := s.hdmDpa off
    let st := (s.hdmEntry (off / gib)).1
    let f := s.foundAt dpa e
    if f.2 = .uncorrectable ∨ s.isBad dpa ∨ (s.err.fatal ∧ s.err.fatalSrc = (.hbmStack, st)) then
      let s2 := f.1.postErr { cls := .memory, sev := .degraded, cause := 0x07, ukind := .hbmStack, unit := st, info6 := dpa }
      .next ((s2.modHost (fun h => { h with poisonTx := satInc h.poisonTx 64 })).emit (.hostData (List.replicate 64 0) true))
    else
      let s2 := if hold then f.1.snoopAdd (dpa / 64) else f.1
      .next ((s2.cacheRead dpa 5).emit (.hostData (s.readDpa dpa 64) false))

/-- HDM_WRITE (R376, R403): 64 B at a window offset; `hold` whether the host keeps the line, `e` what the read of the old bytes finds. -/
def execHdmWrite (t off : Nat) (data : List Byte) (hold poison : Bool) (e : Ecc) (s : State) : Host.Outcome State Fault Refusal :=
  let s := s.atB t
  if ¬ s.hdmServes off ∨ data.length ≠ 64 ∨ s.err.fatal then .next s
  else
    let dpa := s.hdmDpa off
    .next ((if hold then s.snoopAdd (dpa / 64) else s.modHost (fun h => { h with snoop := h.snoop.filter (fun l => l != dpa / 64) })).windowUnit
      dpa data poison e)

/-- HDM_DECODER_COMMIT (R372, R520): base, interleave ways and lock; a commit that cannot stand reports error-not-committed. -/
def execHdmDecoderCommit (t base ways : Nat) (lock : Bool) (s : State) : Host.Outcome State Fault Refusal :=
  let s := s.atB t
  if ¬ s.host.linkUp ∨ s.stopped ∨ (s.host.decCommitted ∧ s.host.decLock) then .next s
  else if ways = 1 ∧ base % 2 ^ 28 = 0 ∧ s.hdmValid ∧ s.start.trained ∧ s.start.initAt ≤ s.bclk then
    .next (s.modHost (fun h => { h with decBase := base, decWays := ways, decCommitted := true, decLock := lock, decError := false }))
  else .next (s.modHost (fun h => { h with decBase := base, decWays := ways, decCommitted := false, decError := true }))

/-- BI_RESPONSE (R374, R376): the host answers a back-invalidate, with the line's bytes where it held them dirty: a host write of the unit. -/
def execBiResponse (t line : Nat) (data : BiData) (s : State) : Host.Outcome State Fault Refusal :=
  let s := s.atB t
  match s.host.bi.find? (fun b => b.line == line && !b.answered) with
  | none => .next s
  | some b =>
    let s1 := match data.bytes with
      | some bs => if bs.length = 64 then s.windowUnit (line * 64) bs data.poison data.old else s
      | none => s
    if b.inv then
      .next (s1.modHost (fun h => { h with bi := h.bi.filter (fun x => x.line != line), snoop := h.snoop.filter (fun l => l != line) }))
    else
      .next (s1.modHost (fun h => { h with bi := h.bi.map (fun x => if x.line = line ∧ ¬ x.inv then { x with answered := true } else x) }))

/-! ### The low-latency mailbox (R378-R380) -/

/-- The binding of a slot, and the core that serves it. -/
def State.mbx (s : State) (n : Nat) : Nat := s.obj 0x2901 n
def State.mbxCore (s : State) (n : Nat) : Option Nat :=
  let b := s.mbx n
  if bitAt b 63 ∧ n < 64 then Table.get none s.stands (bits b 55 48) else none

/-- MAILBOX_H2D_WRITE (R379): a write of `data` at byte `off` of slot `n`. -/
def execMailboxH2dWrite (t tc n off : Nat) (data : List Byte) (s : State) : Host.Outcome State Fault Refusal :=
  let s := { s.atB t with cclk := max s.cclk tc }
  let b := s.mbx n
  let drop : State := (s.modHost (fun h => { h with mbxDrops := satInc h.mbxDrops 64 })).postErr
    { cls := .host, sev := .info, cause := 0x06, ukind := .hostLink, info6 := leNat (data.take 8), info7 := n }
  if ¬ s.host.linkUp ∨ s.stopped then .next s
  else match s.mbxCore n with
    | some c =>
      if off = 0 ∧ data.length = 64 ∧ bits b 24 0 + 64 ≤ spmSize then
        .next ((s.bgWrite c (bits b 24 0) data).countArrival tc c (bits b 47 42))
      else .next drop
    | none => .next drop

/-- MAILBOX_D2H_READ (R380): 64 B of the bound core's scratchpad, or zero. -/
def execMailboxD2hRead (t n : Nat) (s : State) : Host.Outcome State Fault Refusal :=
  let s := s.atB t
  if ¬ s.host.linkUp then .next s
  else match s.mbxCore n with
    | some c => .next (s.emit (.hostData ((s.coreNow c).spm.readBytes (bits (s.mbx n / 2 ^ 64) 24 0) 64) false))
    | none => .next (s.emit (.hostData (List.replicate 64 0) false))

/-! ### The primary mailbox (R365) -/

/-- A standard command of the primary mailbox is answered; what it carries is the CXL standard's, so its bytes are free. -/
def State.primaryMailbox (s : State) (opcode : Nat) : State :=
  if ¬ s.host.linkUp then s
  else
    let n := min 4096 (Config.mailboxLen opcode s.free)
    { s.emit (.mailbox opcode 0 ((List.range n).map (Config.mailboxByte opcode s.free))) with free := s.free + 1 }

/-- GET_SUPPORTED_LOGS (R365). -/
def execGetSupportedLogs (t : Nat) (s : State) : Host.Outcome State Fault Refusal := .next ((s.atB t).primaryMailbox 0x0400)
/-- GET_LOG (R365). -/
def execGetLog (t : Nat) (s : State) : Host.Outcome State Fault Refusal := .next ((s.atB t).primaryMailbox 0x0401)
/-- GET_EVENT_RECORDS (R365). -/
def execGetEventRecords (t : Nat) (s : State) : Host.Outcome State Fault Refusal := .next ((s.atB t).primaryMailbox 0x0100)
/-- CLEAR_EVENT_RECORDS (R365). -/
def execClearEventRecords (t : Nat) (s : State) : Host.Outcome State Fault Refusal := .next ((s.atB t).primaryMailbox 0x0101)

/-! ### MSI-X and registers -/

/-- MSIX_UNMASK (R381): a write of the MSI-X Enable and Function Mask bits and of one table entry; pending vectors that may now go, go. -/
def execMsixUnmask (t : Nat) (enable funcMask : Bool) (vec addr data : Nat) (mask : Bool) (s : State) : Host.Outcome State Fault Refusal :=
  let s := s.atB t
  if ¬ s.host.linkUp ∨ s.stopped then .next s
  else
    let e : MsixEntry := { addr := addr % 2 ^ 64, data := data % 2 ^ 32, mask := mask, written := true }
    let s1 := s.modHost (fun h =>
      { h with msixEnable := enable, funcMask := funcMask, msix := if vec < 2048 then Table.set {} h.msix vec e else h.msix })
    .next s1.sendPending

/-- Whether a BAR access has no effect for its size or alignment (R366): `off` within BAR0 or BAR2. -/
def barIneffective (bar off size : Nat) : Bool :=
  let plain := (size == 4 || size == 8) && off % size == 0
  let slot := bar == 2 && decide (0x1000 ≤ off) && decide (off < 0x3000)
  let table' := bar == 0 && decide (0x28000 ≤ off) && decide (off < 0x30000)
  let mail := bar == 0 && decide (0x10000 ≤ off) && decide (off < 0x20000)
  !(plain || slot || table' || mail)

/-- BAR_INEFFECTIVE_ACCESS (R366): completes without effect and is counted; a read returns 0. -/
def execBarIneffectiveAccess (t bar off size : Nat) (wr : Bool) (s : State) : Host.Outcome State Fault Refusal :=
  let s := s.atB t
  if ¬ s.host.linkUp ∨ ¬ barIneffective bar off size then .next s
  else
    let s1 := s.modHost (fun h => { h with barErr := satInc h.barErr 64 })
    .next (if wr then s1 else s1.emit (.hostData (List.replicate size 0) false))

/-- A register of 64 bits at `base` after a write of `size` bytes at `off`. -/
def regWrite (old base off size v : Nat) : Nat :=
  if base ≤ off ∧ off + size ≤ base + 8 then setBits old (8 * (off - base + size) - 1) (8 * (off - base)) v else old

/-- A write to the configuration space: its bytes, and what the BARs and the command register hold in them (log entry 40). -/
def HostSide.cfgWrite (h : HostSide) (off size v : Nat) : HostSide :=
  let c : Table Byte := Memory.writeBytes h.cfg off (leBytes size v)
  { h with cfg := c, memEnable := bitAt (Memory.readNat c 4 2) 1, bar0 := Memory.readNat c 0x10 8 / 0x4000000 * 0x4000000,
           bar2 := Memory.readNat c 0x18 8 / 0x4000 * 0x4000 }

/-- A write to an MSI-X table entry by its words (R365, R381). -/
def HostSide.msixWrite (h : HostSide) (off size v : Nat) : HostSide :=
  let vec := off / 16
  let e := Table.get ({ } : MsixEntry) h.msix vec
  let a := regWrite e.addr 0 (off % 16) size v
  let d := regWrite (e.data + b2n e.mask * 2 ^ 32) 8 (off % 16) size v
  { h with msix := Table.set {} h.msix vec { addr := a, data := d % 2 ^ 32, mask := bitAt d 32, written := true } }

/-- REGISTER_WRITE (R11, R329, R365): a write of 4 or 8 bytes, naturally aligned, to the configuration space (space 0) or BAR0 (space 1). Reserved
fields keep reading 0; registers with a behaviour of their own have their own commands, and every other offset ignores the write. -/
def execRegisterWrite (t space off size value : Nat) (s : State) : Host.Outcome State Fault Refusal :=
  let s := s.atB t
  if ¬ s.host.linkUp ∨ ¬ ((size = 4 ∨ size = 8) ∧ off % size = 0) then .next s
  else if space = 0 then .next (if off < 4096 then s.modHost (fun h => h.cfgWrite off size value) else s)
  else if space ≠ 1 ∨ s.stopped then .next s
  else if 0x28000 ≤ off ∧ off < 0x30000 then .next (s.modHost (fun h => h.msixWrite (off - 0x28000) size value)).sendPending
  else
    let ring (w : W64) (base : Nat) : W64 :=
      let x := regWrite w.toNat base off size value
      BitVec.ofNat 64 (bits x 63 60 * 2 ^ 60 + bits x 51 12 * 4096)
    let int (w : W32) : W32 :=
      let x := regWrite w.toNat 0x20018 off size value
      BitVec.ofNat 32 (bits x 31 15 * 2 ^ 15 + bits x 10 0)
    .next (s.modCfe (fun f => { f with admsq := ring f.admsq 0x20008, admcr := ring f.admcr 0x20010, admint := int f.admint }))

/-- DATA_OBJECT_EXCHANGE (R361): Discovery (protocol 0) names the protocols, CDAT (protocol 2) the window: size in bytes, read and write
latency in ns, bandwidth in MB/s. -/
def execDataObjectExchange (t proto : Nat) (s : State) : Host.Outcome State Fault Refusal :=
  let s := s.atB t
  if ¬ s.host.linkUp then .next s
  else if proto = 0 then .next (s.emit (.dataObject 0 [0, 2]))
  else if proto = 2 then .next (s.emit (.dataObject 2 [64 * gib, 350, 350, 128000]))
  else .next s

end Sys2Proof.Machine
end

