-- ==== Sys2Proof/Machine/Power.lean ====
section
/-!
DEFINITION. Voltages, the thermal cap, the power brake and the clocks (18_power_clocks_emc.md R486-R503).
-/
namespace Sys2Proof.Machine

/-- Change the power side. -/
def State.modPower (s : State) (f : Power → Power) : State := { s with power := f s.power }
/-- Post a POWER record (R502): the sensor or rail, and the reading. -/
def State.powerRec (s : State) (sev : Sev) (cause num : Nat) (reading : Int) : State :=
  s.postErr { cls := .power, sev := sev, cause := cause, info6 := num, info7 := (reading % 2 ^ 32).toNat }

/-! ### Adaptive voltage scaling (R489, R491) -/

/-- A rail. -/
def State.rail (s : State) (d : Nat) : Rail := Table.get {} s.power.rails d
/-- Change a rail. -/
def State.modRail (s : State) (d : Nat) (f : Rail → Rail) : State := s.modPower (fun p => { p with rails := Table.modify {} p.rails d f })

/-- One step of a rail: its margin in 0.25 %, what it reads back in mV and 0.1 A, and whether its transaction failed. -/
def State.avsRail (s : State) (d margin mv da : Nat) (fail : Bool) : State :=
  let s := s.modRail d (fun r => { r with margin := margin, readback := mv, current := da })
  let r := s.rail d
  if s.obj 0x2B01 1 = 0 then s.modRail d (fun x => { x with target := 800 })
  else if r.stopped then
    if margin < 4 * s.obj 0x2B01 4 then s.fatalTrigger 0x11 .none 0 d r.target else s
  else if fail then
    if r.fails < 2 then s.modRail d (fun x => { x with fails := x.fails + 1 })
    else (s.modRail d (fun x => { x with fails := 3, stopped := true })).powerRec .degraded 0x08 d r.target
  else
    let s1 := s.modRail d (fun x => { x with fails := 0 })
    if margin < 4 * s.obj 0x2B01 4 then
      (s1.modRail d (fun x => { x with target := 800, hold := s.bclk + 1000000000 })).powerRec .degraded 0x03 d 800
    else if s.bclk < r.hold then s1
    else if margin < 4 * s.obj 0x2B01 2 then s1.modRail d (fun x => { x with target := min (x.target + 5) 800 })
    else if 4 * s.obj 0x2B01 3 < margin then s1.modRail d (fun x => { x with target := max (x.target - 5) 620 })
    else s1

/-- AVS_STEP (R489, R491): for each of the eight rails its margin (0.25 %), read-back (mV) and current (0.1 A); `fails` the rails whose AVSBus
transaction failed. -/
def execAvsStep (t : Nat) (l : List (Nat × Nat × Nat)) (fails : List Nat) (s : State) : Host.Outcome State Fault Refusal :=
  .next (((l.take 8).zipIdx).foldl (fun x p => x.avsRail p.2 p.1.1 p.1.2.1 p.1.2.2 (fails.contains p.2)) (s.atB t))

/-! ### Temperature (R495, R496) -/

/-- A sensor's class (0 CD, 1 FD, 2 SB, 3 HBM, 4 IO) and die (log entry 33). -/
def sensorOf (n : Nat) : Nat × Nat :=
  if n < 48 then (0, n / 6) else if n < 64 then (1, (n - 48) / 2) else if n < 80 then (2, n - 64)
  else if n < 96 then (3, n - 80) else (4, (n - 96) / 2)
/-- The sensors of a class and die. -/
def sensorsOf (c d : Nat) : List Nat := (List.range 100).filter (fun n => sensorOf n == (c, d))
/-- A sensor. -/
def State.sensor (s : State) (n : Nat) : Sensor := Table.get {} s.power.sensors n
/-- A die is known by its class and number. -/
def dieKey (c d : Nat) : Nat := c * 16 + d
/-- Insert in order. -/
def insertInt (v : Int) : List Int → List Int
  | [] => [v]
  | x :: l => if v ≤ x then v :: x :: l else x :: insertInt v l
/-- The middle of a list, the lower one of two. -/
def median (l : List Int) : Int := let o := l.foldl (fun a v => insertInt v a) []; o.getD ((o.length - 1) / 2) 0
/-- TWARN and TSHUT of a class in 0.125 °C. -/
def tWarn (c : Nat) : Int := if c = 3 then 85 * 8 else 90 * 8
def tShut (c : Nat) : Int := if c = 3 then 100 * 8 else 105 * 8
/-- A 16-bit signed object. -/
def State.objI16 (s : State) (idx sub : Nat) : Int := let v := s.obj idx sub; if v < 32768 then v else (v : Int) - 65536

/-- One sensor's sample: faulty outside its range, or 10 samples in a row off its die's median; a warning at its crossing; three samples in a
row at TSHUT end in the safe state. -/
def State.sample (s : State) (n : Nat) (v med : Int) : State :=
  let c := (sensorOf n).1
  let o := s.sensor n
  let off := if 80 < v - med ∨ 80 < med - v then o.off + 1 else 0
  let bad : Bool := o.faulty || decide (v < -160) || decide (1040 < v) || decide (10 ≤ off)
  let hot := if ¬ bad ∧ tShut c ≤ v then o.hot + 1 else 0
  let s1 := s.modPower (fun p => { p with sensors := Table.set {} p.sensors n { val := v, off := off, hot := hot, faulty := bad } })
  let s2 := if bad && !o.faulty then s1.powerRec .degraded 0x07 n v else s1
  let s3 := if ¬ bad ∧ tWarn c ≤ v ∧ o.val < tWarn c then s2.powerRec .info 0x01 n v else s2
  if 3 ≤ hot then s3.fatalTrigger 0x10 .none 0 n (v % 2 ^ 32).toNat else s3

/-- The dies of the module by class. -/
def allDies : List (Nat × Nat) :=
  (List.range 8).map (fun d => (0, d)) ++ (List.range 8).map (fun d => (1, d)) ++ (List.range 16).map (fun d => (2, d)) ++
  (List.range 16).map (fun d => (3, d)) ++ [(4, 0), (4, 1)]

/-- A die left with no working sensor is recorded once (R495). -/
def State.noteDead (s : State) (x : Nat × Nat) : State :=
  let k := dieKey x.1 x.2
  if (sensorsOf x.1 x.2).all (fun n => (s.sensor n).faulty) && !(s.power.deadDies.contains k) then
    (s.modPower (fun p => { p with deadDies := p.deadDies ++ [k] })).powerRec .unit 0x07 ((sensorsOf x.1 x.2).headD 0) 0
  else s

/-- THERMAL_SAMPLE (R495, R496): the 100 readings in 0.125 °C. -/
def execThermalSample (t : Nat) (vals : List Int) (s : State) : Host.Outcome State Fault Refusal :=
  let s := s.atB t
  if vals.length ≠ 100 then .next s
  else
    let med (n : Nat) : Int := median ((sensorsOf (sensorOf n).1 (sensorOf n).2).map (fun k => vals.getD k 0))
    let s1 := (List.range 100).foldl (fun x n => x.sample n (vals.getD n 0) (med n)) s
    .next (allDies.foldl State.noteDead s1)

/-- The highest reading of a class (R496): a die without a working sensor stands at TCAPHI. -/
def State.hottest (s : State) (c : Nat) : Int :=
  let l := (allDies.filter (fun x => x.1 == c)).map (fun x =>
    if s.power.deadDies.contains (dieKey x.1 x.2) then 8 * s.objI16 0x2B03 (0x11 + c)
    else (((sensorsOf x.1 x.2).filter (fun n => !(s.sensor n).faulty)).map (fun n => (s.sensor n).val)).foldl max (-160))
  l.foldl max (-160)

/-- `scale` times the factor f of R496, rounded down. -/
def State.thermal (s : State) (scale : Nat) : Nat :=
  ((List.range 5).map (fun c =>
    let hi := 8 * s.objI16 0x2B03 (0x11 + c)
    let lo := 8 * s.objI16 0x2B03 (1 + c)
    let v := s.hottest c
    if v ≤ lo ∨ hi ≤ lo then scale else if hi ≤ v then 0 else (scale * (hi - v).toNat) / (hi - lo).toNat)).foldl min scale

/-- Cores in full BIST, each of which lowers the cap by 12 W (R477, R492). -/
def State.runningBist (s : State) : Nat := ((List.range 144).filter (fun c => s.start.complete && s.pstate c == .testing)).length

/-- The power actions of an edge (R492-R494): ECAPTHW follows the thermal cap and the brake, rising by at most 20 W; `watts` is the AVS-rail power
measured over the cycle. -/
def State.powerEdge (s : State) (watts : Nat) : State :=
  let old := s.obj 0x4400 6
  let cap := s.thermal 1950 - 12 * s.runningBist
  let cap1 := if s.power.braked then min cap (s.obj 0x2B02 1) else cap
  let new := if old < cap1 then min cap1 (old + 20) else cap1
  let s1 := s.setObj 0x4400 6 new
  let s2 := if old + 100 < new ∨ new + 100 < old then s1.powerRec .info 0x02 0 new else s1
  let overflow := decide (11 * min (s.obj 0x4400 5) old < 10 * (watts - 450))
  let n := if overflow then s.power.overCycles + 1 else 0
  let s3 := s2.modPower (fun p => { p with watts := watts, overCycles := if n = 16 then 0 else n })
  if n = 16 then s3.powerRec .info 0x06 0 watts else s3

/-- THERMTRIP (R496): the comparator of a compute die (0 to 7) or an I/O die (8, 9) drives THERMTRIP_N low. -/
def execThermtrip (t die : Nat) (s : State) : Host.Outcome State Fault Refusal :=
  .next ((s.atB t).modPower (fun p => { p with trips := if p.trips.contains die then p.trips else p.trips ++ [die] }))

/-- PWRBRAKE_CHANGE (R493). -/
def execPwrbrakeChange (t : Nat) (low : Bool) (s : State) : Host.Outcome State Fault Refusal :=
  let s := s.atB t
  if s.power.braked = low then .next s
  else .next ((s.modPower (fun p => { p with braked := low })).powerRec .info 0x05 0 (b2n low))

/-! ### Rails and clocks (R486, R487, R497) -/

/-- Nominal voltage in mV and tolerance in per cent of the rails 8 to 25 (R486, in the table's order; log entry 33). -/
def railNominal (r : Nat) : Nat × Nat :=
  if r < 16 then (750, 3) else if r = 16 then (750, 3) else if r = 17 then (1050, 3) else if r = 18 then (700, 3) else if r = 19 then (1800, 5)
  else if r = 20 then (750, 3) else if r = 21 then (900, 2) else if r = 22 then (1200, 3) else if r = 23 then (900, 2) else if r = 24 then (800, 3)
  else (1800, 5)
/-- Distance of two numbers. -/
def awayBy (a b : Nat) : Nat := if a ≤ b then b - a else a - b

/-- RAIL_OUT_OF_TOLERANCE (R487): rail, its voltage in mV, and for how many ns it has been there. -/
def execRailOutOfTolerance (t r mv ns : Nat) (s : State) : Host.Outcome State Fault Refusal :=
  let s := s.atB t
  let avs : Bool := decide (r < 8)
  let out : Bool := if avs then decide (15 < awayBy mv (s.rail r).target) else decide ((railNominal r).2 * (railNominal r).1 < 100 * awayBy mv (railNominal r).1)
  let far : Bool := if avs then decide (40 < awayBy mv (s.rail r).target) else decide (5 * (railNominal r).1 < 100 * awayBy mv (railNominal r).1)
  if 26 ≤ r ∨ ¬ out then .next s
  else
    let s1 := s.powerRec .degraded 0x04 r mv
    .next (if far && decide (10000 ≤ ns) then s1.fatalTrigger 0x11 .none 0 r mv else s1)

/-- PLL_LOCK_LOSS (R497): PLL 0 is CCLK and 1 BCLK, of a die: the safe state; 2 a Farast PHY's, of an I/O die: its ports go DOWN; 3 CXL: the link. -/
def execPllLockLoss (t pll die : Nat) (s : State) : Host.Outcome State Fault Refusal :=
  let s := s.atB t
  if pll ≤ 1 then .next (s.fatalTrigger 0x12 .none 0 die 0)
  else if pll = 2 then .next ((List.range 6).foldl (fun x i => x.portDown (6 * (die % 2) + i)) s)
  else if s.host.linkUp then .next s.linkDown
  else .next s

end Sys2Proof.Machine
end

