-- ==== Sys2Proof/Machine/Objects.lean ====
section
/-!
DEFINITION. The dictionary's objects as they read (15_marmas_dictionary.md R421-R428; the tables of R227, R244, R266, R294, R360, R386, R420, R432,
R442, R449, R471, R485, R503): the value in force of every object, and the bytes of the records among them.
-/
namespace Sys2Proof.Machine

/-! ### Records as bytes -/

/-- A number of each size in turn, least significant byte first (R9). -/
def packLe (l : List (Nat × Nat)) : List Byte := l.flatMap (fun p => leBytes p.1 p.2)
/-- The first `n` bytes, zero where the list ends. -/
def fitTo (n : Nat) (l : List Byte) : List Byte := padTo n (l.take n)

/-- The 64 bytes of an error record (R389); a slot never written reads zero. -/
def ErrRec.bytes (r : ErrRec) : List Byte := if r.rseq = 0 then leBytes 64 0 else packLe (r.words.map (fun w => (8, w)))

/-- The 4 KiB of a scorecard (R398); the words of DETAIL stand in the order in which the table names them (log entry 41). -/
def Scorecard.bytes (c : Scorecard) : List Byte :=
  let w2 := c.cause.code * 2 ^ 56 + c.status.code * 2 ^ 48 + c.engine.code * 2 ^ 40 + c.pos % 256 * 2 ^ 32 + c.unit % 65536 * 2 ^ 16 +
    b2n c.effects * 2 ^ 15 + b2n c.secondary * 2 ^ 14 + min c.more.length 63 * 2 ^ 8
  let words := packLe [(8, c.cmdref), (8, c.rseq), (8, w2), (8, c.etime), (8, c.cyc % 2 ^ 32 * 2 ^ 32 + c.slot % 256 * 2 ^ 24),
    (8, c.etk % 2 ^ 32 * 2 ^ 32 + c.tck % 2 ^ 32), (8, c.pc % 2 ^ 32 * 2 ^ 32 + c.passidx % 2 ^ 32), (8, c.planid), (16, c.instr), (8, c.dva), (8, c.dpa)]
  let more := (c.more.take 8).map (fun m => (8, m.cause.code * 2 ^ 56 + m.engine.code * 2 ^ 48 + m.bclk % 2 ^ 48))
  fitTo 4096 (words ++ fitTo 32 (packLe (c.detail.map (fun d => (8, d)))) ++ fitTo 64 (packLe more) ++ fitTo 96 (packLe (c.qheads.map (fun q => (16, q)))) ++
    fitTo 16 (packLe ([4, 4, 8].zip c.cregs)) ++ leBytes 16 0 ++ fitTo 64 (packLe (c.tstat.map (fun x => (4, x)))) ++
    fitTo 256 (packLe (c.arrcnt.map (fun x => (4, x)))) ++ fitTo 256 c.xfer ++ fitTo 256 (packLe (c.lite.map (fun x => (16, x)))) ++
    fitTo 1024 (packLe (c.homes.map (fun h => (4, h)))))

/-- The 32 bytes of a placement-log entry (R417), in the order the rule lists its fields (log entry 42). -/
def PlaceEntry.bytes (p : PlaceEntry) : List Byte := packLe [(8, p.cmdref), (4, p.cyc), (1, p.slot), (1, p.count), (18, p.mask)]

/-- The size of a journal entry in bytes (R444). -/
def JEntry.size (e : JEntry) : Nat := 64 + (if e.kind = 1 then 2 else 1) * (cdiv e.new.length 8 * 8)
/-- The bytes of a journal entry (R444). -/
def JEntry.bytes (e : JEntry) : List Byte :=
  let n := e.new.length
  let pad (l : List Byte) : List Byte := fitTo (cdiv n 8 * 8) l
  packLe [(8, e.jseq), (8, e.etime), (8, e.kind * 2 ^ 56 + e.transport * 2 ^ 48 + e.eid * 2 ^ 40 + e.key * 2 ^ 16 + n),
    (8, e.keyid % 2 ^ 32 * 2 ^ 32 + e.cyc % 2 ^ 32)] ++ fitTo 32 e.prev ++ (if e.kind = 1 then pad e.old else []) ++ pad e.new

/-! ### Identity and measurements -/

/-- The digest of a component of the running image's manifest (R455). -/
def compDigest (m : List Byte) (id : Nat) : List Byte :=
  match (List.range 16).find? (fun i => leNat ((m.drop (64 + 48 * i)).take 4) == id) with
  | some i => (m.drop (64 + 48 * i + 16)).take 32
  | none => leBytes 32 0

/-- Measurement 7 (R465): LC, fused SVN, ROOTSLOT, ROOTREV, SECWRITE, debug state, BOOTSTATE, 0. -/
def State.modeMeasure (s : State) : List Byte :=
  packLe [(1, s.otpBits 443 440), (1, s.fusedSvn), (1, (s.sec.manifest.getD 12 0).toNat), (1, s.otpBits 447 444), (1, s.obj 0x7101 1),
    (1, b2n s.sec.debugTok.isSome), (1, s.sec.bootState), (1, 0)]

/-- Measurement `n` (R465); 2 to 8 are nothing before an image runs. -/
def State.measure (s : State) (n : Nat) : List Byte :=
  let m := s.sec.manifest
  if n = 1 then (List.range 32).map Config.romDigest
  else if n = 9 then leBytes 8 (s.marmas.jnext - 1) ++ s.marmas.jhead
  else if m.isEmpty then []
  else if n = 2 then sha256 (m.take 16608)
  else if 3 ≤ n ∧ n ≤ 6 then compDigest m (n - 2)
  else if n = 7 then s.sec.mode7
  else if n = 8 then leBytes 4 (m.getD 5 0).toNat
  else []

/-- Positions in service, and reversible cores in service (R23, R519); their defaults until start-up is complete. -/
def State.posInService (s : State) : Nat :=
  if s.start.complete then ((List.range 144).filter (fun p => (Table.get none s.stands p).isSome)).length else 128
def State.revInService (s : State) : Nat :=
  if s.start.complete then ((List.range 144).filter (fun p => decide (p % 18 < 2) && Table.get none s.stands p == some p)).length else 16

/-! ### Values in force (R428) -/

/-- COMMITSTATE (R432). -/
def State.errStat (s : State) : Nat := b2n s.err.rsv.isSome * 4 + b2n s.err.frozen * 2 + b2n s.err.fatal
/-- LINKSTATE (R386). -/
def State.linkState (s : State) : Nat := if s.host.linkUp then s.host.active * 2 ^ 24 + s.host.width * 2 ^ 16 + s.host.speed else 0
/-- Two's complement in 16 bits. -/
def i16 (v : Int) : Nat := (v % 65536).toNat
/-- TMAX (R503): the highest reading outside the HBM stacks. -/
def State.tmax (s : State) : Nat :=
  match ((List.range 100).filter (fun n => (sensorOf n).1 != 3 && !(s.sensor n).faulty)).map (fun n => (s.sensor n).val) with
  | [] => 0
  | v :: l => i16 (l.foldl max v)

/-- Identity, transport, commit, journal and security objects that the machine computes. -/
def State.numIdentity (s : State) (idx sub : Nat) : Option Nat :=
  let m := s.marmas
  match idx, sub with
  | 0x1000, 2 => some s.otp.pciVid
  | 0x1000, 3 => some s.otp.pciDid
  | 0x1000, 6 => some s.otp.silRev
  | 0x1000, 7 => some (leNat ((s.sec.manifest.drop 8).take 4))
  | 0x1000, 9 => some s.otp.vxeRev
  | 0x1000, 0xA => some (b2n (s.obj 0x2A01 1 == 1 && decide (s.obj 0x2A01 2 ≤ 10)))
  | 0x1000, 0xB => some s.posInService
  | 0x1000, 0xC => some s.revInService
  | 0x1100, 1 => some s.start.i3cStatic
  | 0x1100, 2 => some m.i3cDyn
  | 0x1100, 3 => some (s.otp.i3cPid % 2 ^ 48)
  | 0x1100, 4 => some m.eidI3c
  | 0x1100, 5 => some m.eidVdm
  | 0x2000, 2 => some m.commitState
  | 0x2000, 3 => some m.commitErr
  | 0x2000, 4 => some m.staging.length
  | 0x6F00, 5 => some m.mrefused
  | 0x6F00, n => if 1 ≤ n ∧ n ≤ 4 then some (m.mreqs.getD (n - 1) 0) else none
  | 0x7000, 1 => some m.jnext
  | 0x7000, 2 => some ((m.journal.map (fun e => e.jseq)).headD 0)
  | 0x7000, 5 => some m.jckCount
  | 0x7000, 6 => some m.jckSigned
  | 0x7000, 7 => some ((m.journal.map JEntry.size).foldl (· + ·) 0)
  | 0x7100, 1 => some s.lifecycle
  | 0x7100, 2 => some s.fusedSvn
  | 0x7100, 3 => some (s.sec.manifest.getD 12 0).toNat
  | 0x7100, 4 => some (s.otpBits 447 444)
  | 0x7100, 5 => some s.sec.bootBank
  | 0x7100, 6 => some s.sec.bootState
  | 0x7104, 1 => some s.sec.spdmReqs
  | 0x7104, 2 => some s.sec.spdmErrs
  | 0x7200, 3 => some s.sec.fw.code
  | 0x7200, 4 => some s.sec.fwErr
  | _, _ => none

/-- Memory, translation, link and host objects that the machine computes. -/
def State.numUnits (s : State) (idx sub : Nat) : Option Nat :=
  if idx = 0x2500 then
    (if sub = 3 then some s.mem.xl.invdone.toNat else if sub = 4 then some s.mem.xl.faults else if sub = 5 then some s.mem.xl.walks else none)
  else if 0x3100 ≤ idx ∧ idx < 0x3110 then
    let k := s.stack (idx - 0x3100)
    (if sub = 1 then some k.chmap else if sub = 3 then some k.mo.code else if sub = 5 then some k.ceCount else if sub = 6 then some k.ueCount
     else if sub = 7 then some (65536 - 2048 * k.m) else none)
  else if 0x3200 ≤ idx ∧ idx < 0x320C then
    let p := s.port (idx - 0x3200)
    (if sub = 2 then some p.st.code else if sub = 3 then some p.live else if sub = 4 then some p.rtt
     else if 0x10 ≤ sub ∧ sub ≤ 0x18 then some (p.lane (sub - 0x10)).lstate
     else if 0x50 ≤ sub ∧ sub ≤ 0x58 then some (b2n (p.lane (sub - 0x50)).retrain) else none)
  else if 0x6200 ≤ idx ∧ idx < 0x620C then
    let p := s.port (idx - 0x6200)
    [none, some p.csym, some p.ucw, some p.lresends, some p.eresends, some p.failovers, some p.drops].getD sub none
  else if idx = 0x2900 then (if sub = 1 then some s.start.bifur else none)
  else if idx = 0x6900 then
    [none, some s.linkState, some s.host.losses, some s.host.poisonRx, some s.host.poisonTx, some s.host.mbxDrops, some s.host.barErr].getD sub none
  else if 0x5000 ≤ idx ∧ idx < 0x5F00 then (if sub = 2 then some (s.gen (idx - 0x5000)) else none)
  else if idx = 0x5F04 then (if sub = 3 then some s.migStatus else none)
  else none

/-- Fixture, error, position, repair and power objects that the machine computes. -/
def State.numCentral (s : State) (idx sub : Nat) : Option Nat :=
  let f := s.fix
  let e := s.err
  if idx = 0x4300 then (if sub = 2 then some f.fixgen.toNat else if sub = 3 then some s.fixState else none)
  else if idx = 0x6000 then
    [none, some s.cyc, some s.slot, some s.extTime, some f.edgeTime, some f.cad.code, some f.holdcnt, some f.lastPeriod, some (b2n f.ppsLost)].getD sub none
  else if idx = 0x6100 then
    ([none, some f.strays] ++ (f.admitted ++ f.refused ++ f.latecnt).map some ++ [some f.overruns]).getD sub none
  else if idx = 0x6A00 then
    [none, some e.erqtail.toNat, some e.erqhead.toNat, some e.erqovf, some s.errStat, some e.chkMismatch, some e.residueFaults, some e.sealFaults,
     some e.applyCheck, some e.xcRuns, some e.xcFails, some e.sclost].getD sub none
  else if idx = 0x6A02 then some 0
  else if idx = 0x6A20 then some (Table.get 0 e.xcLast sub)
  else if 0x3000 ≤ idx ∧ idx < 0x3090 then
    let c := idx - 0x3000
    (if sub = 1 then some (s.pstate c).code
     else if sub = 2 then some (match s.stands.find? (fun x => x.2 == some c) with | some x => x.1 | none => 0xFF)
     else if sub = 4 then some (Table.get 0 s.repair.bist c) else if sub = 5 then some (Table.get 0 s.repair.mbLast c) else none)
  else if idx = 0x8100 then
    (if sub = 2 then some s.repair.pend.length else if sub = 3 then some (2048 - s.repair.used.length) else none)
  else if 0x8101 ≤ idx ∧ idx ≤ 0x8108 then some (Table.get 0 s.repair.fuses ((idx - 0x8101) * 256 + sub))
  else if idx = 0x2B00 then (if sub = 2 then some s.power.sscDepth else none)
  else if idx = 0x6B00 then
    [none, some s.tmax, some s.power.watts, some (s.thermal 1024), some (b2n s.power.braked)].getD sub none
  else if idx = 0x6B01 then some (if (s.sensor sub).faulty then 0x8000 else i16 (s.sensor sub).val)
  else none

/-- A session as SESSION reads it (R471). -/
def Session.bytes (x : Session) : List Byte :=
  packLe [(4, x.id), (1, x.transport), (1, x.eid), (1, if x.established then 2 else 1), (1, b2n x.both), (8, x.at')]

/-- BLOB and STR objects that the machine computes. -/
def State.blobValue (s : State) (idx sub : Nat) : Option (List Byte) :=
  match idx, sub with
  | 0x1000, 1 => some (strBytes "Agostica")
  | 0x1000, 4 => some (strBytes "AGT-S416-LC")
  | 0x1000, 5 => some s.otp.serial
  | 0x1000, 0xD => some s.otp.uuid
  | 0x7000, 3 => some s.marmas.jhead
  | 0x7100, 7 => some s.sec.dikPub
  | 0x7100, 8 => some s.sec.rakPub
  | 0x8200, 2 => some s.sec.tokNonce
  | 0x6A01, 0x40 => some (match s.err.rsv with | some r => r.bytes | none => [])
  | 0x6A01, n => some (Table.get ({ } : ErrRec) s.err.slots n).bytes
  | 0x6A30, 1 => some (s.err.placeLog.flatMap PlaceEntry.bytes)
  | 0x7001, n => some (Table.get [] s.marmas.jsig n)
  | 0x7102, n => some (match s.sec.sessions[n]? with | some x => x.bytes | none => [])
  | 0x7103, n => some (s.measure n)
  | 0x6B02, n => some (let r := s.rail n; if r = {} then [] else
      packLe [(2, r.target), (2, r.readback), (2, r.current), (1, r.margin), (1, b2n r.stopped)])
  | i, n =>
    if i = 0x6A10 ∨ i = 0x6A11 then
      some (match Table.get none s.err.scorecards ((i - 0x6A10) * 256 + n) with | some c => c.bytes | none => [])
    else if 0x3100 ≤ i ∧ i < 0x3110 ∧ n = 8 then some (packLe ((s.stack (i - 0x3100)).bad.map (fun b => (8, b))))
    else if 0x3200 ≤ i ∧ i < 0x320C ∧ 0x20 ≤ n ∧ n ≤ 0x28 then some ((s.port (i - 0x3200)).lane (n - 0x20)).readout
    else none

/-- The value in force of an object as its bytes (R421, R428): request objects hold none and read their default (R427, log entry 43). -/
def State.value (s : State) (k : Nat) : List Byte :=
  match objDef k with
  | none => []
  | some o =>
    let n := o.ty.size
    match s.blobValue (k / 256) (k % 256) with
    | some b => fitTo n b
    | none =>
      leBytes n (match s.numIdentity (k / 256) (k % 256), s.numUnits (k / 256) (k % 256), s.numCentral (k / 256) (k % 256) with
        | some v, _, _ => v
        | none, some v, _ => v
        | none, none, some v => v
        | none, none, none => s.objAt k)

/-- The request objects of R427, which hold no value. -/
def isRequest (k : Nat) : Bool :=
  k == okey 0x2500 2 || k == okey 0x7000 4 || k == okey 0x2000 0x10 ||
  (decide (okey 0x3100 0 ≤ k) && decide (k < okey 0x3110 0) && k % 256 == 2) ||
  (decide (okey 0x3000 0 ≤ k) && decide (k < okey 0x3090 0) && k % 256 == 3) ||
  (decide (okey 0x3200 0 ≤ k) && decide (k < okey 0x320C 0) && decide (0x50 ≤ k % 256))

/-- A value between two bounds. -/
def within (lo hi n : Nat) : Bool := decide (lo ≤ n) && decide (n ≤ hi)

/-- Bits of an object that are reserved: the device ignores what is written there (R13). -/
def reservedMask (idx sub n : Nat) : Nat :=
  if idx = 0x4100 then n % 2 ^ 1153
  else if idx = 0x2900 ∧ sub = 5 then (List.range 64).foldl (fun a i => a + (n / 2 ^ (16 * i) % 65536 / 4096 * 4096 + n / 2 ^ (16 * i) % 64) * 2 ^ (16 * i)) 0
  else if within 0x3200 0x320B idx ∧ within 0x40 0x48 sub then n % 2 ^ 480
  else if idx = 0x2901 then bits n 88 64 * 2 ^ 64 + bits n 63 63 * 2 ^ 63 + bits n 55 42 * 2 ^ 42 + bits n 24 0
  else if idx = 0x2500 ∧ sub = 2 then n % 2 ^ 96
  else if 0x2710 = idx then n % 4096
  else if idx = 0x5F04 ∧ sub = 1 then n % 2 ^ 64
  else if idx = 0x5F04 ∧ sub = 2 then n % 2 ^ 48
  else if idx = 0x7200 ∧ sub = 1 then n % 2 ^ 96
  else n

/-- The latest accepted value of an object that is not yet in force, or the value in force (R428);
reserved fields read 0 (R13). -/
def State.latest (s : State) (k : Nat) : List Byte :=
  if isRequest k then s.value k
  else match (s.marmas.live ++ s.marmas.staging).reverse.find? (fun w => w.key == k) with
  | some w => leBytes w.value.length (reservedMask (k / 256) (k % 256) (leNat w.value))
  | none => s.value k

end Sys2Proof.Machine
end

