-- ==== Sys2Proof/Machine/Rules.lean ====
section
/-!
DEFINITION. What a write of an object must keep, and when its unit is not idle (15_marmas_dictionary.md R425 checks 8 and 9), and what each
value does when it takes effect (R15, R426, R427).
-/
namespace Sys2Proof.Machine

/-! ### Values (R425 check 8) -/

/-- The latest accepted value of index.sub as a number. -/
def State.lat (s : State) (idx sub : Nat) : Nat := leNat (s.latest (okey idx sub))
/-- A 16-bit signed value. -/
def s16 (v : Nat) : Int := if v < 32768 then v else (v : Int) - 65536
/-- A target cycle (R227, R280, R430): 0, or 2 to 65,536 after CYC. -/
def State.cycleOk (s : State) (c : Nat) : Bool :=
  let d := (c + 2 ^ 32 - s.cyc) % 2 ^ 32
  c == 0 || (decide (2 ≤ d) && decide (d ≤ 65536))
/-- Whether some window entry of a committed decoder lies in a run of segments (R377). -/
def State.windowIn (s : State) (lo hi : Nat) : Bool := s.host.decCommitted && (List.range 64).any (fun i => within lo hi (s.hdmEntry i).2)

/-- Ranges of the objects of memory, translation, links and the host (R244, R266, R360, R386). -/
def State.rangeUnits (s : State) (idx sub n : Nat) : Bool :=
  if idx = 0x2400 then
    (if sub = 1 then decide (n ≤ 56)
     else if sub = 2 then within (s.lat 0x2400 1) 63 n && !(s.windowIn n (s.lat 0x2400 3))
     else if sub = 3 then within (s.lat 0x2400 2) 63 n && !(s.windowIn (s.lat 0x2400 2) n)
     else if sub = 6 then within 1 168 n else true)
  else if idx = 0x2412 then within 1 4096 n
  else if idx = 0x2414 then within 1 256 n
  else if 0x3100 ≤ idx ∧ idx < 0x3110 then
    let k := s.stack (idx - 0x3100)
    sub != 2 || (decide (n < 32) && !(bitAt k.chmap n) && decide (k.m < 4) && !(s.windowLoses (idx - 0x3100)))
  else if 0x3180 ≤ idx ∧ idx < 0x3188 then sub == 0xD || decide (n ≤ 2)
  else if idx = 0x2500 then
    (if sub = 1 then n == 0 || (n % 65536 == 0 && (match s.region n with | .hbm _ _ => true | .slm _ _ => true | _ => false))
     else if sub = 2 then n % 2 ^ 64 % 4096 == 0 else true)
  else if 0x2600 ≤ idx ∧ idx < 0x2610 then outWinLegal n s.modId
  else if 0x2610 ≤ idx ∧ idx < 0x2620 then inWinLegal n
  else if idx = 0x2700 then
    (if sub = 2 then within 10000 10000000 n else if sub = 3 then decide (n ≤ 15) else if sub = 4 ∨ sub = 7 then decide (1 ≤ n) else true)
  else if 0x2800 ≤ idx ∧ idx < 0x2810 then rallyLegal n
  else if 0x3200 ≤ idx ∧ idx < 0x320C then !(within 0x30 0x38 sub) || decide (n ≤ 2)
  else if idx = 0x2900 then (if sub = 2 then within 1000 10000000 n else true)
  else if idx = 0x2901 then decide (bits n 55 48 < 144) && bits n 24 0 % 64 == 0 && bits n 88 64 % 64 == 0
  else true

/-- Ranges of the objects of the Fixture, the embedding tables, errors and power (R227, R294, R420, R503). -/
def State.rangeCentral (s : State) (idx sub n : Nat) : Bool :=
  if idx = 0x4300 then s.cycleOk n
  else if idx = 0x4500 then sub != 1 || decide (n ≤ 1)
  else if 0x5000 ≤ idx ∧ idx < 0x5F00 then (if sub = 1 then descriptorLegal (idx - 0x5000) n else s.cycleOk n)
  else if idx = 0x5F00 then sub != 2 || decide (1 ≤ n)
  else if idx = 0x5F01 then (if sub = 1 then decide (n ≤ 512) else decide (n ≤ 32))
  else if idx = 0x5F02 then (if sub = 1 then decide (n ≤ 31) else decide (1 ≤ n))
  else if idx = 0x5F04 then sub != 1 || (decide (bits n 15 0 < 3840) && (decide (bits n 63 56 < 16) || bits n 63 56 == 0xFF))
  else if idx = 0x2A00 then
    (if sub = 1 then decide (n ≤ 1) else if sub = 2 ∨ sub = 3 then decide (n ≤ 2047) else if sub = 5 then decide (1 ≤ n) else true)
  else if idx = 0x2A01 then sub != 2 || within 1 60 n
  else if idx = 0x2B00 then decide (n ≤ 5)
  else if idx = 0x2B01 then
    let v (k : Nat) : Nat := if sub = k then n else s.lat 0x2B01 k
    sub == 1 || (decide (v 4 < v 2) && decide (v 2 < v 3))
  else if idx = 0x2B03 then
    let c := (sub - 1) % 16
    let lo := if sub ≤ 5 then s16 n else s16 (s.lat 0x2B03 (1 + c))
    let hi := if sub ≤ 5 then s16 (s.lat 0x2B03 (0x11 + c)) else s16 n
    decide (lo < hi) && decide (8 * (hi + 3) ≤ tShut c)
  else if idx = 0x2B04 then decide (n ≤ 3)
  else true

/-- Ranges of the objects of the dictionary itself, security and repair (R432, R442, R471, R485). -/
def State.rangeMgmt (s : State) (idx sub n : Nat) : Bool :=
  if idx = 0x1101 then (if sub = 1 then [0, 2, 3].contains (n % 256) else decide (n ≤ 5))
  else if idx = 0x2000 then
    (if sub = 1 then !s.marmas.staging.isEmpty && s.cycleOk n else if sub = 0x10 then n == 0xA5C3 else true)
  else if idx = 0x7101 then sub != 1 || n == 1 || !(bitAt s.otp.sec 439)
  else if idx = 0x7200 ∧ sub = 2 then
    within 1 4 n && (s.sec.fw == .staging || (if n = 2 then s.sec.fw == .staged else if n = 3 then s.sec.bootState == 1 else true))
  else if 0x3000 ≤ idx ∧ idx < 0x3090 then within 1 3 n
  else if idx = 0x8000 then (if sub = 2 then within 1 720 n else if sub = 3 then decide (n < 144) else true)
  else if idx = 0x8200 then decide (n < 144) && s.scanToken n
  else if idx = 0x8202 then n != 1 || s.tokenOk
  else true

/-- Check 8 of R425: BOOL is 0 or 1, and the object's own ranges and rules hold. Rules that depend on other objects use their latest accepted
values (log entry 44). -/
def State.valueOk (s : State) (k : Nat) (v : List Byte) : Bool :=
  let n := reservedMask (k / 256) (k % 256) (leNat v)
  (match objDef k with | some o => o.ty != .bool || decide (leNat v ≤ 1) | none => false) &&
  s.rangeUnits (k / 256) (k % 256) n && s.rangeCentral (k / 256) (k % 256) n && s.rangeMgmt (k / 256) (k % 256) n

/-! ### Idle units (R425 check 9) -/

/-- LIVE writes to an object that wait for their edge. -/
def State.waitingFor (s : State) (p : Nat → Bool) : Nat := (s.marmas.live.filter (fun w => p w.key)).length
/-- Whether some table has a valid home map entry on the module (R195, R244). -/
def State.anyHomed (s : State) : Bool := (List.range 3840).any (fun t => s.tableHomed t (s.tdesc t))

/-- Whether the CFE has a read or a write outstanding in host memory or behind a window (R261). -/
def State.cfeOut (s : State) : Bool :=
  !s.cfe.winReads.isEmpty || s.host.stores.any (fun h => h.xfer.isNone) || s.links.reqs.any (fun r => match r.owner with | .cfe _ => true | _ => false)
/-- Whether a DM.RALLY transfer is outstanding (R261, R359). -/
def State.rallyOut (s : State) : Bool := s.links.rally.any (fun r => r.2.armed && r.2.ref != 0)

/-- Whether an object's chapter refuses the write with BUSY. -/
def State.unitBusy (s : State) (idx sub n : Nat) : Bool :=
  if idx = 0x2400 then (if sub = 1 then s.start.trained else if sub = 2 ∨ sub = 3 then s.anyHomed else false)
  else if idx = 0x2500 then
    (if sub = 1 then s.cfe.queues.any (fun q => q.1 != 0 && q.2.st != .free) || !s.mem.xfers.isEmpty || s.embHolds || s.cfeOut || s.rallyOut
     else if sub = 2 then decide (16 ≤ s.waitingFor (fun k => k == okey 0x2500 2)) else false)
  else if idx = 0x2700 then sub == 1 && s.modidBusy
  else if idx = 0x2900 then sub == 5 && s.host.decCommitted
  else if 0x3000 ≤ idx ∧ idx < 0x3090 then
    let c := idx - 0x3000
    if n = 3 then s.repair.bench.any (fun b => b.core == c && s.copyBegun b)
    else decide (17 ≤ b2n s.repair.bench.isSome + s.repair.queue.length + s.waitingFor (fun k => decide (okey 0x3000 0 ≤ k) && decide (k < okey 0x3090 0)))
  else if 0x3100 ≤ idx ∧ idx < 0x3110 then
    let m := (s.stack (idx - 0x3100)).mo
    sub == 2 && (m == .drain || m == .copy || s.waitingFor (fun k => k == okey idx 2) != 0)
  else if 0x3200 ≤ idx ∧ idx < 0x320C then decide (0x50 ≤ sub) && s.retrainBusy (idx - 0x3200) (sub - 0x50)
  else if 0x5000 ≤ idx ∧ idx < 0x5F00 then
    (if sub = 1 then s.tbldescBusy (idx - 0x5000) n else if sub = 3 then s.moveInside (idx - 0x5000) else false)
  else if idx = 0x5F00 then sub == 1 && (s.embHolds || s.emb.units.any (fun u => !u.2.bank.isEmpty || !u.2.closing.isEmpty))
  else if idx = 0x5F01 then s.embHolds
  else if idx = 0x5F04 then sub == 1 && s.migreqBusy n
  else if idx = 0x7000 then s.marmas.jckWait.isSome || s.waitingFor (fun k => k == okey 0x7000 4) != 0
  else if idx = 0x7200 then sub == 2 && (s.sec.fw == .staging || s.repair.blow.any (fun b => b.svn.isSome))
  else if idx = 0x8000 then sub == 3 && s.bistBusy n
  else if idx = 0x8100 then s.repair.blow.isSome
  else if idx = 0x8200 then s.scanBusy n
  else if idx = 0x2000 then (sub == 1 || (sub == 5 && n == 1)) && s.marmas.armed.isSome
  else false

/-- The pending Fixture header and slots, held apart from the staging set (R429). -/
def isPendingFix (k : Nat) : Bool := k / 256 == 0x4000 || k / 256 == 0x4100
/-- Check 9 of R425. -/
def State.writeBusy (s : State) (o : ObjDef) (k n : Nat) : Bool :=
  (if isPendingFix k then s.fixArmed else o.app == .staged && s.marmas.armed.isSome) || s.unitBusy (k / 256) (k % 256) n
/-- Check 10 of R425 and R429: an object not yet staged needs room in the set. -/
def State.stageFull (s : State) (o : ObjDef) (k : Nat) : Bool :=
  let st := s.marmas.staging
  o.app == .staged && !(isPendingFix k) && !(st.any (fun w => w.key == k)) &&
  (decide (4096 ≤ st.length) || decide (262144 < (st.map (fun w => w.value.length)).foldl (· + ·) 0 + o.ty.size))

/-! ### Values taking effect -/

/-- A MAPOUT request takes effect (R233 step 1): DRAIN begins, after a map-out of the stack that has begun
meanwhile. -/
def State.applyMapout (s : State) (st ch : Nat) : State :=
  let k := s.stack st
  if bitAt k.chmap ch then s
  else if k.mo = .drain ∨ k.mo = .copy then s.waitMapout st ch
  else s.startMapout st ch

/-- A unit's mode changes (R234): it is emptied, its die's cache with it, and a unit that becomes SCRATCH is skimmed. -/
def State.applyUnitmode (s : State) (k u v : Nat) : State :=
  if s.unitMode k u = v then s
  else
    let s1 := (s.setObj (0x3180 + k) (u + 1) v).modSlm k (fun x => { x with lines := [], fills := x.fills.map (fun f => (f.1, true)) })
    s1.modSlm k (fun x => { x with skimming := x.skimming.filter (fun y => y != u) ++ (if v = 2 then [] else [u]) })

/-- A regulator value is committed (R243): it waits until the batches admitted under the old values have passed their due slots. -/
def State.applyRegulator (s : State) (k n : Nat) : State := s.modFix (fun f => { f with regNew := Table.set none f.regNew k (some n) })
/-- Whether an object is one of the regulator's (R243). -/
def isRegulator (idx : Nat) : Bool := within 0x2410 0x2414 idx

/-- A LIVE or STAGED value takes effect at an edge (R427). COMMIT, JCKREQ, MODRESET, FIXCOMMIT and HMAPCOMMIT have their own places in the edge. -/
def State.applyValue (s : State) (k : Nat) (v : List Byte) : State :=
  let idx := k / 256
  let sub := k % 256
  let n := reservedMask idx sub (leNat v)
  if idx = 0x2500 ∧ sub = 2 then s.modXl (fun x => { x with queue := x.queue ++ [⟨bits n 63 0, bits n 95 64⟩] })
  else if isRegulator idx then s.applyRegulator k n
  else if idx = 0x2A00 ∧ sub = 6 then (let x := s.setObjAt k n; if n = 1 then x.fatalTrigger 0x20 .mgc 0 0 0 else x)
  else if 0x3000 ≤ idx ∧ idx < 0x3090 then s.applyBenchreq (idx - 0x3000) n
  else if 0x3100 ≤ idx ∧ idx < 0x3110 ∧ sub = 2 then s.applyMapout (idx - 0x3100) n
  else if 0x3180 ≤ idx ∧ idx < 0x3188 ∧ sub ≠ 0xD then s.applyUnitmode (idx - 0x3180) (sub - 1) n
  else if 0x3200 ≤ idx ∧ idx < 0x320C then
    (if 0x50 ≤ sub then s.applyRetrain (idx - 0x3200) (sub - 0x50) n
     else if 0x30 ≤ sub then (s.setObjAt k n).applyPin (idx - 0x3200) ((sub - 0x30) % 16)
     else s.setObjAt k n)
  else if idx = 0x4500 then (if sub = 1 then s.applyCadsrc n else (s.setObjAt k n).modFix (fun f => { f with todArmed := some n }))
  else if 0x5000 ≤ idx ∧ idx < 0x5F00 ∧ sub = 1 then s.setTbldesc (idx - 0x5000) n
  else if idx = 0x5F00 ∧ sub = 2 then (s.setObjAt k n).modEmb (fun e => { e with stepEdges := none })
  else if idx = 0x5F04 then (if sub = 1 then s.applyMigreq n else s.applyMigrelease n)
  else s.setObjAt k n

end Sys2Proof.Machine
end

