-- ==== Sys2Proof/Machine/Journal.lean ====
section
/-!
DEFINITION. The change journal and its signatures (15_marmas_dictionary.md R444-R449).
-/
namespace Sys2Proof.Machine

/-- Change the dictionary's side. -/
def State.modMarmas (s : State) (f : Marmas → Marmas) : State := { s with marmas := f s.marmas }

/-- Bytes of journal entries in the ring. -/
def ringBytes (l : List JEntry) : Nat := (l.map JEntry.size).foldl (· + ·) 0
/-- Whole entries leave the oldest end until the ring holds at most 8 MiB (R448). -/
def trimRing : Nat → List JEntry → List JEntry
  | _, [] => []
  | n, e :: l => if n ≤ 8388608 then e :: l else trimRing (n - e.size) l

/-- Make one entry (R444, R446). -/
def State.entry (s : State) (kind route eid key keyid : Nat) (old new : List Byte) : State :=
  let m := s.marmas
  let e : JEntry := { jseq := m.jnext, etime := s.extTime, kind := kind, transport := route, eid := eid, key := key, keyid := keyid, cyc := s.cyc,
                      prev := if m.jnext = 0 then leBytes 32 0 else m.jhead, old := fitTo new.length old, new := new }
  let l := m.journal ++ [e]
  s.modMarmas (fun x => { x with journal := trimRing (ringBytes l) l, jnext := m.jnext + 1, jhead := sha256 e.bytes })

/-- A signed entry: GENESIS or CHECKPOINT, with a nonce and the digest of the signing public key (R445, R447). -/
def State.signedEntry (s : State) (kind key : Nat) (nonce : List Byte) : State :=
  let s1 := s.entry kind 0 0 key 0 [] (fitTo 32 nonce ++ sha256 s.sec.rakPub)
  s1.modMarmas (fun x => { x with jckCount := (x.jckCount + 1) % 2 ^ 32, unsigned := x.unsigned ++ [(s.marmas.jnext, s1.marmas.jhead)] })

/-- A JSEQ that is a multiple of 1,024 is taken by an automatic CHECKPOINT before any other entry is made (R447); none in the safe state (R448). -/
def State.autoCheckpoint (s : State) : State :=
  if s.marmas.jnext % 1024 = 0 ∧ ¬ s.err.fatal then s.signedEntry 0x11 (okey 0x7000 4) (leBytes 32 0) else s

/-- Enter a write, or the outcome of a commit (R445); the JSEQ it takes. -/
def State.journalPut (s : State) (kind route eid key keyid : Nat) (old new : List Byte) : State × Nat :=
  ((s.entry kind route eid key keyid old new).autoCheckpoint, s.marmas.jnext)

/-- The journal starts afresh with its genesis entry (R448). -/
def State.genesis (s : State) (nonce : List Byte) : State :=
  (s.modMarmas (fun x => { x with journal := [], jnext := 0, jckCount := 0, jckSigned := 0, jsig := [], unsigned := [], jckWait := none })).signedEntry
    0x10 (okey 0x7000 0) nonce

/-- A requested checkpoint (R447), made after the edge's APPLIED and REFUSED entries. -/
def State.checkpoint (s : State) (nonce : List Byte) : State :=
  if s.err.fatal then s
  else ((s.signedEntry 0x11 (okey 0x7000 4) nonce).modMarmas (fun x => { x with jckWait := some s.marmas.jnext })).autoCheckpoint

/-- JOURNAL_SIGNATURE (R447, R469): the engine stores the signature of the oldest entry that waits for one; it needs the runtime key, and the
runtime certificate's signature comes first. -/
def execJournalSignature (t : Nat) (s : State) : Host.Outcome State Fault Refusal :=
  let s := s.atB t
  let m := s.marmas
  match m.unsigned, s.sec.rak with
  | (j, digest) :: rest, some key =>
    if s.err.fatal ∨ ¬ s.sec.rakCert then .next s
    else
      let n := m.jckCount - m.unsigned.length
      let sig := (List.range 17088).map (Config.sigByte (leNat key) (strBytes "Marmas journal" ++ digest) s.free)
      .next { s.modMarmas (fun x =>
        { x with jsig := Table.set [] x.jsig (n % 16) (leBytes 8 j ++ sig), jckSigned := j, unsigned := rest,
                 jckWait := if x.jckWait = some j then none else x.jckWait }) with free := s.free + 1 }
  | _, _ => .next s

end Sys2Proof.Machine
end

