-- ==== Sys2Proof/Machine/Firmware.lean ====
section
/-!
DEFINITION. Flash, firmware packages and updates (16_security_attestation.md R454-R456, R467, R468).
-/
namespace Sys2Proof.Machine

/-! ### Flash (R454) -/

/-- A run of flash bytes; erased ones are 0xFF. -/
def State.flashBytes (s : State) (a n : Nat) : List Byte := (List.range n).map (fun i => Table.get 0xFF s.flash (a + i))
/-- Put bytes into flash. -/
def State.flashPut (s : State) (a : Nat) (bs : List Byte) : State :=
  { s with flash := (bs.zipIdx).foldl (fun f b => Table.set 0xFF f (a + b.2) b.1) s.flash }
/-- Erase a run of flash. -/
def State.flashErase (s : State) (a n : Nat) : State := { s with flash := Table.clearRange s.flash a n }

/-- Where a bank begins. -/
def bankBase (b : Nat) : Nat := b * 0x1000000
/-- STATE of a bank's header. -/
def State.bankState (s : State) (b : Nat) : Nat := (Table.get 0xFF s.flash (bankBase b + 3)).toNat
/-- TRIES of a bank's header. -/
def State.bankTries (s : State) (b : Nat) : Nat := (Table.get 0xFF s.flash (bankBase b + 2)).toNat
/-- Clear bits of one header byte: flash bits are only ever cleared, except by erasure. -/
def State.flashAnd (s : State) (a v : Nat) : State :=
  { s with flash := Table.set 0xFF s.flash a (Table.get 0xFF s.flash a &&& BitVec.ofNat 8 v) }
/-- HCRC of the 16 bytes of words 0 and 1, with STATE, TRIES and HCRC read as ones. -/
def headerCrc (h : List Byte) : W32 :=
  crc32c (h.zipIdx.map (fun b => if b.2 = 2 ∨ b.2 = 3 ∨ 12 ≤ b.2 then 0xFF else b.1))
/-- Whether MAGIC and HCRC of a bank's header are right. -/
def State.headerOk (s : State) (b : Nat) : Bool :=
  let h := s.flashBytes (bankBase b) 16
  leNat ((h.drop 4).take 4) == 0x53434642 && leNat (h.drop 12) == (headerCrc h).toNat

/-! ### Manifests (R455) -/

/-- Whether a package's manifest is valid but for its SVN (R453, R455). -/
def State.manifestOk (s : State) (p : List Byte) : Bool :=
  let byte (i : Nat) : Nat := (p.getD i 0).toNat
  let run (i n : Nat) : List Byte := (p.drop i).take n
  let comp (i : Nat) : List Byte := run (64 + 48 * i) 48
  let id (i : Nat) : Nat := leNat ((comp i).take 4)
  let slot := byte 12
  leNat (run 0 4) == 0x4D414E46 && byte 4 == 1 && decide (byte 5 ≤ 64) && within 1 16 (byte 6) && decide (byte 7 ≤ 1) && decide (slot < 4) &&
  run 13 51 == leBytes 51 0 && [1, 2, 3, 4].all (fun k => ((List.range 16).filter (fun i => id i == k)).length == 1) &&
  (List.range 16).all (fun i =>
    if byte 6 ≤ i then comp i == leBytes 48 0
    else leNat (((comp i).drop 12).take 4) == 0 && sha256 (run (leNat (((comp i).drop 4).take 4)) (leNat (((comp i).drop 8).take 4))) == (comp i).drop 16) &&
  sha256 (run 832 32) == s.rootHash slot && !(s.rootRevoked slot) &&
  s.sigOk (run 832 32) (strBytes "Scaorabel signer" ++ run 864 32) (run 896 7856) &&
  s.sigOk (run 864 32) (strBytes "Scaorabel firmware" ++ run 0 8752) (run 8752 7856) &&
  (if s.lifecycle = 0 then byte 7 == 1 else if s.lifecycle = 2 then byte 7 == 0 else true)
/-- Whether a package's SVN is at least the fused one. -/
def State.svnOk (s : State) (p : List Byte) : Bool := decide (s.fusedSvn ≤ (p.getD 5 0).toNat)
/-- The package of a bank, as its header gives its length. -/
def State.bankPackage (s : State) (b : Nat) : List Byte :=
  s.flashBytes (bankBase b + 4096) (min 0xC00000 (leNat (s.flashBytes (bankBase b + 8) 4)))

/-! ### Updates (R467) -/

/-- The bank that is not running. -/
def State.idleBank (s : State) : Nat := 1 - s.sec.bootBank
/-- The update state and its error. -/
def State.setFw (s : State) (f : FwState) (e : Nat) : State := s.modSec (fun x => { x with fw := f, fwErr := e })

/-- A write of FWACTION acts (R467). -/
def State.applyFwaction (s : State) (v : Nat) : State :=
  let b := s.idleBank
  if v = 1 then (s.flashErase (bankBase b) 4096).setFw .staging 0
  else if v = 2 then (s.flashAnd (bankBase b + 3) 0x3F).setFw .armed 0
  else if v = 3 then
    let lvl := (s.sec.manifest.getD 5 0).toNat
    let s1 := s.flashAnd (bankBase s.sec.bootBank + 3) 0x1F
    if s1.fusedSvn < lvl then s1.modRepair (fun r => { r with blow := some { svn := some lvl, since := s.bclk, n := lvl - s.fusedSvn } }) else s1
  else if v = 4 then (s.flashAnd (bankBase b + 3) 0x0F).setFw .idle 0
  else s

/-- FW_STAGING_DONE (R467): what was written to the inactive bank, what was read back, and whether the check of R455 passes on it. -/
def execFwStagingDone (t : Nat) (o : StageOutcome) (s : State) : Host.Outcome State Fault Refusal :=
  let s := s.atB t
  let b := s.idleBank
  if s.sec.fw ≠ .staging then .next s
  else match o with
  | .unreadable => .next (s.setFw .refused 1)
  | .flashError => .next (s.setFw .refused 5)
  | .done pkg back =>
    let s1 := s.flashPut (bankBase b + 4096) (back.take 0xC00000)
    if back ≠ pkg then .next (s1.setFw .refused 4)
    else if 0xC00000 < back.length ∨ ¬ s1.manifestOk back then .next (s1.setFw .refused 2)
    else if ¬ s1.svnOk back then .next (s1.setFw .refused 3)
    else
      let h := packLe [(1, 0xFF), (1, (back.getD 5 0).toNat), (1, 0x03), (1, 0x7F), (4, 0x53434642), (4, back.length), (4, 0xFFFFFFFF)]
      .next ((s1.flashPut (bankBase b) (h.take 12 ++ leBytes 4 (headerCrc h).toNat)).setFw .staged 0)

end Sys2Proof.Machine
end

