-- ==== Sys2Proof/Machine/Startup.lean ====
section
/-!
DEFINITION. Reset and start-up (19_package_startup.md R511, R512, R516-R519; 16_security_attestation.md R456-R461).
-/
namespace Sys2Proof.Machine

/-- Change start-up's state. -/
def State.modStart (s : State) (f : StartUp → StartUp) : State := { s with start := f s.start }

/-! ### Reset (R516) -/

/-- A module reset: OTP, flash and fuses stay, the signatures that verify, and the levels on the pins; everything else returns to its default. SSCDEPTH takes SSCNEXT (R498),
EXT_TIME counts from 0. -/
def State.resetModule (s : State) : State :=
  { pending := s.pending, cclk := s.cclk, bclk := s.bclk, otp := s.otp, flash := s.flash, signatures := s.signatures, free := s.free, out := s.out,
    repair := { fuses := s.repair.fuses, used := s.repair.used },
    host := { perst := s.host.perst },
    power := { braked := s.power.braked, trips := s.power.trips, sscDepth := s.obj 0x2B00 1 },
    fix := { extBase := (2 ^ 64 - s.bclk % 2 ^ 64) % 2 ^ 64 } }

/-- ALERT_N is driven low (R510): start-up held, RECOVERY, or the safe state. -/
def State.alertLow (s : State) : Bool := s.start.st == .strapHold || s.start.st == .stopped || s.start.st == .recovery || s.err.fatal
/-- FLASH_REL is high (R510). -/
def State.flashRel (s : State) : Bool := s.start.st == .held || s.start.st == .recovery

/-! ### The boot ROM (R456-R461) -/

/-- The banks in the order of `select_bank` (R456). -/
def State.bankOrder (s : State) : List Nat :=
  let svn (b : Nat) : Nat := (Table.get 0xFF s.flash (bankBase b + 1)).toNat
  let trial := [0, 1].filter (fun b => s.bankState b == 0x3F && s.bankTries b != 0)
  let acc := [0, 1].filter (fun b => s.bankState b == 0x1F)
  trial ++ (if acc = [0, 1] ∧ svn 0 < svn 1 then [1, 0] else acc)

/-- `select_bank` (R456): the state with TRIES counted down, the bank chosen, and the SECURITY causes of the banks that failed (R470). -/
def State.selectBank (s : State) (notes : List Nat) : List Nat → State × Option Nat × List Nat
  | [] => (s, none, notes)
  | b :: l =>
    if ¬ s.headerOk b then s.selectBank notes l
    else
      let n := s.bankTries b
      let s1 := if s.bankState b = 0x3F then { s with flash := Table.set 0xFF s.flash (bankBase b + 2) (BitVec.ofNat 8 (Nat.land n (n - 1))) } else s
      let p := s1.bankPackage b
      if ¬ s1.manifestOk p then s1.selectBank (notes ++ [0x01]) l
      else if ¬ s1.svnOk p then s1.selectBank (notes ++ [0x02]) l
      else (s1, some b, notes)

/-- BOOTSTATE (R468, R471): trial, fallback where the other bank is a trial or a bank before it failed, else accepted. -/
def State.bootStateOf (s : State) (b : Nat) (first : Bool) : Nat :=
  if s.bankState b = 0x3F then 1 else if s.bankState (1 - b) = 0x3F ∨ ¬ first then 2 else 0

/-- ROM steps 6 and 7 (R457, R459, R461): the keys are derived, DS is locked, the measurements recorded. -/
def State.startImage (s : State) (b bs : Nat) : State :=
  let m := (s.bankPackage b).take 16608
  let ds := s.deviceSecret
  let dik := hkdf48 ds [] (strBytes "Scaorabel DIK")
  let rak := hkdf48 ds (sha256 m) (strBytes "Scaorabel RAK" ++ [m.getD 5 0])
  let s1 := if bitAt s.otp.sec 439 then s.setObj 0x7101 1 1 else s
  let s2 := s1.modSec (fun x => { x with manifest := m, bootBank := b, bootState := bs, dsLocked := true, dik := some dik, rak := some rak,
                                         rakPub := (List.range 32).map (Config.pubByte rak), dikPub := (List.range 32).map (Config.pubByte dik) })
  s2.modSec (fun x => { x with mode7 := s2.modeMeasure })

/-! ### The firmware starts (R517 steps 6 to 12) -/

/-- The record of a start-up count sector (R518): its count where it is valid. -/
def State.countAt (s : State) (k : Nat) : Option Nat :=
  let r := s.flashBytes (0x01FE0000 + 4096 * k) 12
  if leNat (r.take 4) = 0x53545254 ∧ leNat (r.drop 8) = (crc32c (r.take 8)).toNat then some (leNat ((r.drop 4).take 4)) else none

/-- Step 12 (R518): the higher count is advanced in the other sector, and EPOCH set; a failed write leaves the ports OFF. -/
def State.startCount (s : State) (fails : Bool) : State :=
  let k : Nat × Nat := match s.countAt 0, s.countAt 1 with
    | some a, some b => if a < b then (b, 0) else (a, 1)
    | some a, none => (a, 1)
    | none, some b => (b, 0)
    | none, none => (0, 0)
  let n := (k.1 + 1) % 2 ^ 32
  let at' := 0x01FE0000 + 4096 * k.2
  let rec' := packLe [(4, 0x53545254), (4, n)]
  let s1 := s.flashErase at' 4096
  if fails then s1.postErr { cls := .config, sev := .degraded, cause := 5, ukind := .mgc }
  else (((s1.flashPut at' (rec' ++ leBytes 4 (crc32c rec').toNat)).setObj 0x2700 8 (n % 256))).modStart (fun x => { x with epochOk := true })

/-- Rows that the engines' MBIST found are repaired softly where spare rows are left (R477, R482, R517 step 7). -/
def State.softRows (s : State) (l : List (Nat × Nat × Nat × Nat)) : State :=
  l.foldl (fun x r => match repairRows x.repairs r.2.1 [(r.1, r.2.2.1, r.2.2.2)] with
    | some es => x.modRepair (fun y => { y with pend := y.pend ++ es })
    | none => x) s

/-- The next free value is number `n`. -/
def State.withFree (s : State) (n : Nat) : State := { s with free := n }
/-- The firmware's start: what the boot met is recorded, the token nonce drawn, the genesis entry made, the start-up count advanced. -/
def State.startFirmware (s : State) (f : BootFinds) (notes : List Nat) : State :=
  let s1 := notes.foldl (fun x c => x.securityRec .degraded c 0) s
  let s2 := if f.certBad then (s1.modSec (fun x => { x with certBad := true })).securityRec .degraded 0x09 0 else s1
  let s3 := ((s2.modSec (fun x => { x with tokNonce := (List.range 32).map (Config.trng s2.free) })).genesis
    ((List.range 32).map (Config.trng (s2.free + 1)))).withFree (s2.free + 2)
  (s3.softRows f.mbist).startCount f.countFails

/-- Start-up from the straps on (R511, R512, R517): test mode, RECOVERY, or an image that runs. `strap` holds CXL_BIFUR, TEST_EN and I3C_ADDR from
bit 0 up; `since` is the rise of MOD_RESET_N that would have led here without a hold. -/
def State.bootFrom (s : State) (since strap : Nat) (f : BootFinds) : State :=
  let v := bits strap 4 2
  let test : Bool := bitAt strap 1
  let s1 := s.modStart (fun x => { x with since := since, bifur := strap % 2, i3cStatic := if v = 7 then 0 else 0x30 + v,
                                          flash0 := some s.flash, mgcAt := since + 40900000 })
  if test ∧ (s.lifecycle = 0 ∨ s.lifecycle = 3) then s1.modStart (fun x => { x with st := .testMode })
  else
    let order := s1.bankOrder
    match s1.selectBank [] order with
    | (s2, none, _) => s2.modStart (fun x => { x with st := .recovery })
    | (s2, some b, notes) =>
      let bs := s2.bootStateOf b (order.head? == some b)
      let s3 := (s2.startImage b bs).modStart (fun x => { x with st := .running })
      { { s3 with bclk := since + 40900000 }.startFirmware f (notes ++ (if bs = 2 then [0x03] else [])) with bclk := s3.bclk }

/-- What manufacture and the board have done by the release (R22, R458, R510). -/
def State.given (s : State) (b : Board) : State :=
  let s1 := b.flash.foldl (fun x r => x.flashPut r.1 r.2) s
  { s1 with otp := if s.otp = {} then b.made.getD {} else s.otp, signatures := s.signatures ++ b.signatures }

/-- Three strap samples agree (R501). -/
def agree3 (l : List Nat) : Option Nat :=
  match l with
  | [a, b, c] => if a = b ∧ b = c then some a else none
  | _ => none

/-- MOD_RESET_ASSERT (R516): every unit is held in reset; the link goes down first (R383). -/
def execModResetAssert (t : Nat) (s : State) : Host.Outcome State Fault Refusal :=
  .next (((s.atB t).linkDown).resetModule)

/-- MOD_RESET_RELEASE (R517): the straps are sampled three times, and start-up runs or holds. -/
def execModResetRelease (t : Nat) (straps : List Nat) (b : Board) (f : BootFinds) (s : State) : Host.Outcome State Fault Refusal :=
  let s := s.atB t
  if s.start.st ≠ .held then .next s
  else
    let s1 := (s.given b).modStart (fun x => { x with samples := straps.take 3 })
    match agree3 (straps.take 3) with
    | some v => .next (s1.bootFrom s.bclk v f)
    | none => .next (s1.modStart (fun x => { x with st := .strapHold }))

/-- STRAP_RESAMPLE (R517): one more sample, 1 ms after the last; start-up goes on once the last three agree. -/
def execStrapResample (t strap : Nat) (f : BootFinds) (s : State) : Host.Outcome State Fault Refusal :=
  let s := s.atB t
  if s.start.st ≠ .strapHold then .next s
  else
    let l := (s.start.samples ++ [strap]).drop (s.start.samples.length - 2)
    let s1 := s.modStart (fun x => { x with samples := l })
    match agree3 l with
    | some v => .next (s1.bootFrom (s.bclk - 12000) v f)
    | none => .next s1

/-- PLL_LOCK_TIMEOUT (R517): a PLL has not locked by 1 ms: start-up stops before the ROM has done anything. -/
def execPllLockTimeout (t : Nat) (s : State) : Host.Outcome State Fault Refusal :=
  let s := s.atB t
  match s.start.flash0 with
  | some fl =>
    if s.bclk ≤ s.start.since + 1000000 then
      .next (({ s with flash := fl }.resetModule).modStart (fun x => { x with st := .stopped, since := s.start.since }))
    else .next s
  | none => .next s

/-- A channel that failed training is mapped out before first use, with no copy (R233). -/
def State.mapUntrained (s : State) (st ch : Nat) : State :=
  let k := s.stack st
  if 16 ≤ st ∨ 32 ≤ ch ∨ bitAt k.chmap ch then s
  else if 4 ≤ k.m then s.refuseMapout st ch
  else (s.modStack st (fun x => { x with chmap := x.chmap + 2 ^ ch, mo := .done, charged := k.m + 1 })).postErr
    { cls := .memory, sev := .degraded, cause := 0x05, ukind := .hbmStack, unit := st, info6 := (31 - k.m) * 2 ^ 31, info7 := ch * 2 ^ 56 }

/-- HBM_TRAINING_DONE (R517 steps 18 and 19): training ends, SPREADSEGS is fixed, and every live unit is initialised 30 ms later. -/
def execHbmTrainingDone (t : Nat) (failed : List (Nat × Nat)) (s : State) : Host.Outcome State Fault Refusal :=
  let s := s.atB t
  if s.start.st ≠ .running ∨ s.start.trained ∨ s.bclk < s.start.mgcAt then .next s
  else .next ((failed.foldl (fun x p => x.mapUntrained p.1 p.2) s).modStart (fun x => { x with trained := true, initAt := s.bclk + 30000000 }))

/-! ### Positions (R519) -/

/-- The result of a core's start-up BIST: its state, its pending entries, its records. -/
def State.startCore (s : State) (finds : List BistFind) (c : Nat) : State :=
  if bitAt s.otp.fusedOut c then s.setPstate c .fusedOut
  else if s.repair.fuses.any (fun e => bits e.2 62 60 == 7 && bits e.2 59 52 == c) then s.setPstate c .retired
  else
    let good (x : State) : State := (x.setPstate c (if bitAt s.otp.inService c then .inService else .spare)).repairRec .info 0x04 c
    match finds.find? (fun f => f.core == c) with
    | none => good (s.setBist c false true true)
    | some f =>
      if f.lb ∧ f.mb then good (s.setBist c false true true)
      else
        match (if f.lb ∧ f.again then repairRows s.repairs c f.rows else none) with
        | some es => good (((s.setBist c true true true).modRepair (fun r => { r with pend := r.pend ++ es })).repairRec .corrected 0x06 c)
        | none =>
          (((s.setBist c false f.mb f.lb).modRepair (fun r => { r with pend := r.pend ++ [fuseEntry 7 c 0 0 0] })).setPstate c .retired).repairRec .unit 0x05 c

/-- The core that stands for an in-service position: its own, or the lowest SPARE of its die where its own failed BIST (R519). -/
def State.assign (s : State) (p : Nat) : State :=
  let fused : Bool := bitAt s.otp.fusedOut p || s.repair.fuses.any (fun e => bits e.2 62 60 == 7 && bits e.2 59 52 == p)
  if ¬ bitAt s.otp.inService p ∨ fused then s
  else if s.pstate p = .inService then { s with stands := Table.set none s.stands p (some p) }
  else match s.spareFor p with
    | some k => { s.setPstate k .inService with stands := Table.set none s.stands p (some k) }
    | none => s

/-- STARTUP_COMPLETE (R517 step 20, R519): `finds` the cores whose BIST did not pass at once. -/
def execStartupComplete (t : Nat) (finds : List BistFind) (s : State) : Host.Outcome State Fault Refusal :=
  let s := s.atB t
  if s.start.st ≠ .running ∨ ¬ s.start.trained ∨ s.start.complete then .next s
  else
    let s1 := (List.range 144).foldl (fun x c => x.startCore finds c) s
    let s2 := (List.range 144).foldl State.assign s1
    .next ((s2.modFix (fun f => { f with ready := true })).modStart (fun x => { x with complete := true }))

/-- RAK_CERTIFICATE_READY (R457 step 9). -/
def execRakCertificateReady (t : Nat) (s : State) : Host.Outcome State Fault Refusal :=
  let s := s.atB t
  if s.start.st ≠ .running ∨ s.bclk < s.start.mgcAt ∨ s.sec.rak.isNone then .next s
  else .next ((s.modSec (fun x => { x with rakCert := true, dik := none })).modStart (fun x => { x with flash0 := none }))

/-- DYNAMIC_ADDRESS_ASSIGNMENT (R434): the I3C bus controller assigns a dynamic address, by SETDASA to the static address or by the assignment
procedure. Before the firmware runs the target takes no part on the bus; in RECOVERY the ROM does. -/
def execDynamicAddressAssignment (t addr : Nat) (dasa : Bool) (s : State) : Host.Outcome State Fault Refusal :=
  let s := s.atB t
  let up : Bool := s.start.st == .recovery || (s.start.st == .running && decide (s.start.mgcAt ≤ s.bclk))
  if ¬ up ∨ (dasa ∧ s.start.i3cStatic = 0) then .next s
  else .next (s.modMarmas (fun m => { m with i3cDyn := addr % 128 }))

end Sys2Proof.Machine
end

