-- ==== Sys2Proof/Machine/Marmas.lean ====
section
/-!
DEFINITION. The dictionary's requests (15_marmas_dictionary.md R421-R441, R522; 16_security_attestation.md R466): routes, reads, writes, DESCRIBE,
NEXT, JREAD, and the rows that write one object each.
-/
namespace Sys2Proof.Machine

/-! ### Routes and responses (R422, R433, R434, R436) -/

/-- What a route answers: nothing, the boot ROM's few reads (R458), or everything. -/
inductive RouteSt
  | silent | rom | opened
  deriving DecidableEq, Repr

/-- The state of a route (R434, R458). A request inside a session that does not exist reaches nobody. -/
def State.route (s : State) (o : Origin) : RouteSt :=
  let link : Bool := !(o.route == 1 || o.route == 3) || s.host.linkUp
  let sess : Bool := o.session == 0 || s.sec.sessions.any (fun x => x.id == o.session && x.established && x.transport == o.route && x.eid == o.eid)
  if s.start.st = .recovery then (if o.route = 2 then .rom else .silent)
  else if s.start.st = .running ∧ s.start.mgcAt ≤ s.bclk ∧ link ∧ sess ∧ o.route < 4 then .opened
  else .silent

/-- The access an origin has to an object (R422, R423). -/
def ObjDef.acc (d : ObjDef) (o : Origin) : OAcc := if o.route = 0 then d.f else if o.route = 1 then d.h else d.m

/-- A response (R436). -/
structure Resp where
  status : Status := .ok
  merr : Nat := 0
  effcyc : Nat := 0
  jseq : Nat := 0
  data : List Byte := []
  deriving DecidableEq, Repr

/-- A refusal with STATUS CANCELLED and its MERR (R436). -/
def cancel (merr : Nat) : Resp := { status := .cancelled, merr := merr }

/-- Send a response to a request of an operation on index.sub, and count a refusal (R436, R442). -/
def State.respond (s : State) (o : Origin) (op key : Nat) (pend : Bool) (r : Resp) : State :=
  let w0 := b2n pend * 2 ^ 56 + key % 256 * 2 ^ 48 + key / 256 * 2 ^ 32 + o.tag * 2 ^ 16 + (op % 128 + 128) * 2 ^ 8 + 1
  let w1 := r.data.length * 2 ^ 48 + r.status.code * 2 ^ 40 + r.merr * 2 ^ 32 + r.effcyc % 2 ^ 32
  let s1 := if r.status = .ok then s else s.modMarmas (fun m => { m with mrefused := satInc m.mrefused 64 })
  s1.emit (.marmas o.route o.eid [w0, w1, r.jseq] r.data)

/-- A request is taken from its route (MREQS, R442). -/
def State.take (s : State) (o : Origin) : State :=
  s.modMarmas (fun m => { m with mreqs := listSet m.mreqs o.route (satInc (m.mreqs.getD o.route 0) 64) })

/-- Most data bytes a response carries on a route (R433). -/
def routeMax (o : Origin) : Nat := if o.route < 2 then 4072 else 1024

/-! ### Writes (R425, R426) -/

/-- Whether a write from origin M comes inside a session that may write (R441, R466). -/
def State.sessionOk (s : State) (o : Origin) : Bool :=
  let root := s.value (okey 0x7101 2)
  o.route < 2 || s.obj 0x7101 1 == 0 ||
  (root != leBytes 32 0 && s.sec.sessions.any (fun x => x.id == o.session && o.session != 0 && x.established && x.both && x.owner == root))

/-- The cycle whose edge a LIVE write accepted now waits for (R426): the next one, or the one after it once the next is announced. -/
def State.effCycle (s : State) : Nat := (match s.fix.lastEdge with | none => 0 | some _ => s.fix.cycle + 1) + b2n s.fix.edgeDue.isSome

/-- Whether a value has a length its object's type does not take (R421, R425). -/
def lengthBad (t : OTy) (v : List Byte) : Bool :=
  match t with
  | .str n => decide (n < v.length)
  | t => t.size != v.length

/-- Whether a read's offset lies outside an object of its type (R428). -/
def offsetBad (t : OTy) (off : Nat) : Bool :=
  match t with
  | .blob n => decide (n ≤ off)
  | _ => off != 0

/-- The checks of R425 from the second on: the refusal, if any. -/
def State.judgeWrite (s : State) (o : Origin) (key : Nat) (v : List Byte) : Option Resp :=
  if s.err.fatal ∧ key ≠ okey 0x2000 0x10 then some { status := .deviceFatal }
  else match objDef key with
  | none => some (cancel 1)
  | some d =>
    if d.acc o ≠ .rw then some (cancel 2)
    else if d.app = .const then some (cancel 5)
    else if ¬ s.sessionOk o then some (cancel 8)
    else if lengthBad d.ty v then some (cancel 3)
    else if ¬ s.valueOk key v then some (cancel 4)
    else if s.writeBusy d key (reservedMask (key / 256) (key % 256) (leNat v)) then some { status := .busy }
    else if s.stageFull d key then some (cancel 6)
    else none

/-- A QUIESCED value takes effect at acceptance (R426). -/
def State.applyQuiesced (s : State) (key n : Nat) : State :=
  let idx := key / 256
  if idx = 0x2500 then s.setRoot n
  else if idx = 0x2700 then s.applyModid n
  else if idx = 0x7200 then s.applyFwaction n
  else if idx = 0x8000 then (s.setObjAt key n).applyBistrun n
  else if idx = 0x8100 then s.applyFuserepair n
  else if idx = 0x8200 then (s.setObjAt key n).applyScanreq n
  else if idx = 0x8202 then (if n = 1 then s.applyToken else s)
  else s.setObjAt key n

/-- A write of COMMIT arms the set (R430), one of DISCARD empties it (R431). -/
def State.armCommit (s : State) (jseq v : Nat) : State × Nat :=
  let c := if v = 0 then s.effCycle else s.fix.cycle + (v + 2 ^ 32 - s.cyc) % 2 ^ 32
  ((s.setObj 0x2000 1 v).modMarmas (fun m => { m with armed := some (c, jseq), commitState := 2 }), c)
def State.discard (s : State) : State := s.modMarmas (fun m => { m with staging := [], commitState := 0 })

/-- Stage a value (R429): a second write to an object replaces its staged value. -/
def State.stage (s : State) (w : Waiting) : State :=
  s.modMarmas (fun m => { m with staging := m.staging.filter (fun x => x.key != w.key) ++ [w], commitState := 1 })

/-- MODRESET in the safe state (R432): 1 ms after acceptance. -/
def State.safeReset (s : State) : State := { (s.linkDown).resetModule with bclk := s.bclk + 1000000 }

/-- An accepted write (R426): where its value goes, and its EFFCYC. -/
def State.accept (s : State) (o : Origin) (d : ObjDef) (key : Nat) (v : List Byte) (jseq : Nat) : State × Nat :=
  let n := reservedMask (key / 256) (key % 256) (leNat v)
  if key = okey 0x2000 1 then s.armCommit jseq n
  else if key = okey 0x2000 5 then (if n = 1 then s.discard else s, s.cyc)
  else if key = okey 0x6A00 2 then (s.setErqhead (o.route ≠ 1) n, s.cyc)
  else if key = okey 0x6A02 1 then (s.freeCard n, s.cyc)
  else if isPendingFix key then (s.setObjAt key n, 0)
  else if d.app = .quiesced then (s.applyQuiesced key n, s.cyc)
  else if d.app = .staged then (s.stage { jseq := jseq, key := key, value := v }, 0)
  else if key = okey 0x4500 1 ∧ s.fix.cad = .free then (if n = 1 then s.cadsrcFree else s.setObj 0x4500 1 0, s.cyc)
  else (s.modMarmas (fun m => { m with live := m.live ++ [{ jseq := jseq, key := key, value := v, eff := s.effCycle }] }), s.effCycle)

/-- What a refusal itself does: a map-out that cannot be done reads REFUSED (R232, R377), a refused secured write is recorded (R470). -/
def State.noteRefusal (s : State) (o : Origin) (key n : Nat) (r : Resp) : State :=
  let st := key / 256 - 0x3100
  let k := s.stack st
  if r.merr = 8 then s.securityRec .info 0x04 o.session
  else if r.merr = 4 ∧ 0x3100 ≤ key / 256 ∧ key / 256 < 0x3110 ∧ key % 256 = 2 ∧ n < 32 ∧ ¬ bitAt k.chmap n ∧ k.mo ≠ .drain ∧ k.mo ≠ .copy then
    s.refuseMapout st n
  else s

/-- A write of an object (R425, R426): judged, journalled, answered. -/
def State.writeObject (s : State) (o : Origin) (key : Nat) (v : List Byte) : State :=
  match s.judgeWrite o key v, objDef key with
  | some r, _ => (s.noteRefusal o key (leNat v) r).respond o 2 key false r
  | none, none => s
  | none, some d =>
    let j := s.journalPut 1 o.route (if o.route < 2 then 0 else o.eid) key (if o.route < 2 then 0 else o.session) (s.latest key) v
    let a := j.1.accept o d key v j.2
    let s2 := a.1.respond o 2 key false { effcyc := a.2, jseq := j.2 }
    if s2.err.fatal ∧ key = okey 0x2000 0x10 then s2.safeReset else s2

/-- A write request on a route: taken, or answered BUSY by the boot ROM, or not at all. -/
def State.writeRequest (s : State) (o : Origin) (key : Nat) (v : List Byte) : State :=
  match s.route o with
  | .silent => s
  | .rom => s.respond o 2 key false { status := .busy }
  | .opened => (s.take o).writeObject o key v

/-- A write of a number to index.sub, in as many bytes as its type has. -/
def State.writeNum (s : State) (o : Origin) (idx sub n : Nat) : State :=
  s.writeRequest o (okey idx sub) (leBytes (match objDef (okey idx sub) with | some d => d.ty.size | none => 0) n)

/-- A write to object `sub` of the `i`-th of `count` indices from `base` on; a command naming none of them writes nothing. -/
def State.writeOf (s : State) (o : Origin) (base count i sub n : Nat) : State :=
  if i < count then s.writeNum o (base + i) sub n else s

/-! ### Requests by their headers (R433, R435, R437) -/

/-- A request header with its data (R435). -/
structure Req where
  o : Origin
  w0 : Nat
  w1 : Nat
  w2 : Nat
  data : List Byte
  deriving DecidableEq, Repr

def Req.op (r : Req) : Nat := bits r.w0 15 8
def Req.key (r : Req) : Nat := bits r.w0 47 32 * 256 + bits r.w0 55 48
def Req.pend (r : Req) : Bool := bitAt r.w0 56
def Req.len (r : Req) : Nat := bits r.w1 63 48
def Req.off (r : Req) : Nat := bits r.w1 31 0
/-- The origin with the tag the header carries. -/
def Req.origin (r : Req) : Origin := { r.o with tag := bits r.w0 31 16 }

/-- Whether the header is well formed (R435). -/
def Req.wellFormed (r : Req) : Bool :=
  bits r.w0 63 57 == 0 && bits r.w0 7 0 == 1 && within 1 5 r.op && bits r.w1 47 32 == 0 && (!r.pend || r.op == 1) &&
  (r.len == 0 || r.op == 1 || r.op == 2 || r.op == 5) && (r.off == 0 || r.op == 1 || r.op == 5) && (r.w2 == 0 || r.op == 5) &&
  (r.op != 2 || r.len == r.data.length)

/-- A request on its route (R433, R434, R458): one that is too long is answered LENGTH on MCTP and refused by the mailbox itself, one
that is not well formed FORMAT; the boot ROM serves reads of 0x1000 and 0x7100 and answers BUSY to the rest. A row takes only requests of its own
operation; a reserved operation is refused by whichever row brings it. -/
def State.request (s : State) (op : Nat) (r : Req) (f : State → Origin → State) : State :=
  let o := r.origin
  let defined : Bool := within 1 5 r.op
  if defined && r.op != op then s
  else match s.route o with
  | .silent => s
  | .rom => if r.op = 1 ∧ r.wellFormed ∧ (r.key / 256 = 0x1000 ∨ r.key / 256 = 0x7100) then f s o else s.respond o r.op r.key r.pend { status := .busy }
  | .opened =>
    if o.route = 1 ∧ 4096 < 24 + r.data.length then s.emit (.mailbox 0xC000 0x16 [])
    else
      let s1 := s.take o
      if 2 ≤ o.route ∧ 1048 < 24 + r.data.length then s1.respond o r.op r.key r.pend (cancel 3)
      else if ¬ r.wellFormed then s1.respond o r.op r.key r.pend (cancel 7)
      else f s1 o

/-- MARMAS_READ (R428, R522). -/
def execMarmasRead (t : Nat) (o : Origin) (w0 w1 w2 : Nat) (data : List Byte) (s : State) : Host.Outcome State Fault Refusal :=
  let r : Req := ⟨o, w0, w1, w2, data⟩
  .next ((s.atB t).request 1 r (fun s o =>
    match objDef r.key with
    | none => s.respond o 1 r.key r.pend (cancel 1)
    | some d =>
      if d.acc o = .no then s.respond o 1 r.key r.pend (cancel 2)
      else if r.off ≠ 0 ∧ offsetBad d.ty r.off then s.respond o 1 r.key r.pend (cancel 3)
      else
        let v := if r.pend then s.latest r.key else s.value r.key
        let most := if r.len = 0 then routeMax o else min r.len (routeMax o)
        s.respond o 1 r.key r.pend { data := (v.drop r.off).take most }))

/-- MARMAS_WRITE (R425). -/
def execMarmasWrite (t : Nat) (o : Origin) (w0 w1 w2 : Nat) (data : List Byte) (s : State) : Host.Outcome State Fault Refusal :=
  let r : Req := ⟨o, w0, w1, w2, data⟩
  .next ((s.atB t).request 2 r (fun s o => s.writeObject o r.key data))

/-- The code of a type (R421). -/
def OTy.code : OTy → Nat
  | .u8 => 1 | .u16 => 2 | .u32 => 3 | .u64 => 4 | .i8 => 5 | .i16 => 6 | .i32 => 7 | .i64 => 8 | .bool => 9 | .time64 => 0xA | .str _ => 0xB | .blob _ => 0xC
/-- The codes of R438. -/
def OApp.code : OApp → Nat
  | .live => 0 | .staged => 1 | .quiesced => 2 | .const => 3
def OAcc.code : OAcc → Nat
  | .no => 0 | .ro => 1 | .rw => 2
/-- Objects whose default is a strap, an OTP or boot value, or a count (R424), which they hold until reset. -/
def bootDefault (k : Nat) : Bool :=
  [okey 0x1000 2, okey 0x1000 3, okey 0x1000 6, okey 0x1000 7, okey 0x1000 9, okey 0x1100 1, okey 0x1100 3, okey 0x2700 8, okey 0x2900 1, okey 0x7100 1,
   okey 0x7100 2, okey 0x7100 3, okey 0x7100 4, okey 0x7100 5, okey 0x7100 6].contains k
/-- The 16 bytes that DESCRIBE returns (R438). -/
def State.describe (s : State) (k : Nat) (d : ObjDef) : List Byte :=
  let dflt := match d.ty with
    | .str _ | .blob _ => 0
    | _ => if bootDefault k then leNat (s.value k) else if k = okey 0x7101 1 then b2n (bitAt s.otp.sec 439) else d.dflt
  packLe [(1, d.ty.code), (1, d.app.code), (1, d.h.code + d.m.code * 4 + d.f.code * 16), (1, 0), (4, d.ty.size), (8, dflt)]

/-- DESCRIBE (R438). -/
def execDescribe (t : Nat) (o : Origin) (w0 w1 w2 : Nat) (data : List Byte) (s : State) : Host.Outcome State Fault Refusal :=
  let r : Req := ⟨o, w0, w1, w2, data⟩
  .next ((s.atB t).request 3 r (fun s o => match objDef r.key with
    | some d => s.respond o 3 r.key false { data := s.describe r.key d }
    | none => s.respond o 3 r.key false (cancel 1)))

/-- The first key of an object's definition above a key. -/
def ObjDef.after (d : ObjDef) (k : Nat) : Option Nat :=
  if k < d.lo then some d.lo
  else
    let x := k + 1 - d.lo
    if d.rep = 0 then (if k < d.hi then some (k + 1) else none)
    else if d.rep < x / 256 then none
    else if x % 256 ≤ d.hi - d.lo then some (k + 1)
    else if x / 256 < d.rep then some (d.lo + 256 * (x / 256 + 1)) else none
/-- The next existing object in address order (R437). -/
def nextObject (k : Nat) : Option Nat :=
  (dict.filterMap (fun d => d.after k)).foldl (fun a n => match a with | none => some n | some m => some (min m n)) none

/-- NEXT (R437). -/
def execNext (t : Nat) (o : Origin) (w0 w1 w2 : Nat) (data : List Byte) (s : State) : Host.Outcome State Fault Refusal :=
  let r : Req := ⟨o, w0, w1, w2, data⟩
  .next ((s.atB t).request 4 r (fun s o =>
    s.respond o 4 r.key false { data := leBytes 4 (match nextObject r.key with | some k => k * 256 | none => 0xFFFFFF00) }))

/-- Whole entries that fit in `n` bytes. -/
def wholeEntries : Nat → List JEntry → List Byte
  | _, [] => []
  | n, e :: l => if e.size ≤ n then e.bytes ++ wholeEntries (n - e.size) l else []

/-- JREAD (R437, R448). -/
def execJread (t : Nat) (o : Origin) (w0 w1 w2 : Nat) (data : List Byte) (s : State) : Host.Outcome State Fault Refusal :=
  let r : Req := ⟨o, w0, w1, w2, data⟩
  .next ((s.atB t).request 5 r (fun s o =>
    let l := s.marmas.journal.dropWhile (fun e => e.jseq != w2)
    let most := if r.len = 0 then routeMax o else min r.len (routeMax o)
    match l with
    | [] => s.respond o 5 r.key false (cancel 9)
    | e :: rest =>
      if e.size ≤ r.off then s.respond o 5 r.key false (cancel 3)
      else
        let part := e.bytes.drop r.off
        s.respond o 5 r.key false
          { jseq := w2, data := if part.length ≤ most then part ++ wholeEntries (most - part.length) rest else part.take most }))

/-! ### Rows that write one object -/

/-- COMMIT (R430). -/
def execCommit (t : Nat) (o : Origin) (c : Nat) (s : State) : Host.Outcome State Fault Refusal := .next ((s.atB t).writeNum o 0x2000 1 c)
/-- DISCARD (R431). -/
def execDiscard (t : Nat) (o : Origin) (v : Nat) (s : State) : Host.Outcome State Fault Refusal := .next ((s.atB t).writeNum o 0x2000 5 v)
/-- MODRESET (R432, R516): the reset comes with the next edge, or 1 ms later in the safe state. -/
def execModreset (t : Nat) (o : Origin) (v : Nat) (s : State) : Host.Outcome State Fault Refusal := .next ((s.atB t).writeNum o 0x2000 0x10 v)
/-- JCKREQ (R447): the checkpoint entry is made at the edge of effect. -/
def execJckreq (t : Nat) (o : Origin) (nonce : List Byte) (s : State) : Host.Outcome State Fault Refusal :=
  .next ((s.atB t).writeRequest o (okey 0x7000 4) nonce)
/-- MAPOUT (R232, R233): stack and channel. -/
def execMapout (t : Nat) (o : Origin) (st ch : Nat) (s : State) : Host.Outcome State Fault Refusal := .next ((s.atB t).writeOf o 0x3100 16 st 2 ch)
/-- VACATED (R233 step 3). -/
def execVacated (t : Nat) (o : Origin) (st v : Nat) (s : State) : Host.Outcome State Fault Refusal := .next ((s.atB t).writeOf o 0x3100 16 st 4 v)
/-- TBLDESC (R193, R195, R227): the descriptor of a table. -/
def execTbldesc (t : Nat) (o : Origin) (table desc : Nat) (s : State) : Host.Outcome State Fault Refusal := .next ((s.atB t).writeOf o 0x5000 3840 table 1 desc)
/-- HMAPCOMMIT (R197, R227). -/
def execHmapcommit (t : Nat) (o : Origin) (table c : Nat) (s : State) : Host.Outcome State Fault Refusal := .next ((s.atB t).writeOf o 0x5000 3840 table 3 c)
/-- MIGREQ (R222, R227): table, stripe, destination module and stack. -/
def execMigreq (t : Nat) (o : Origin) (table stripe m st : Nat) (s : State) : Host.Outcome State Fault Refusal :=
  .next ((s.atB t).writeNum o 0x5F04 1 (table % 2 ^ 16 + stripe % 2 ^ 32 * 2 ^ 16 + m % 256 * 2 ^ 48 + st % 256 * 2 ^ 56))
/-- MIGRELEASE (R224, R227): table and stripe. -/
def execMigrelease (t : Nat) (o : Origin) (table stripe : Nat) (s : State) : Host.Outcome State Fault Refusal :=
  .next ((s.atB t).writeNum o 0x5F04 2 (table % 2 ^ 16 + stripe % 2 ^ 32 * 2 ^ 16))
/-- CADSRC (R272). -/
def execCadsrc (t : Nat) (o : Origin) (v : Nat) (s : State) : Host.Outcome State Fault Refusal := .next ((s.atB t).writeNum o 0x4500 1 v)
/-- FIXCOMMIT (R280). -/
def execFixcommit (t : Nat) (o : Origin) (c : Nat) (s : State) : Host.Outcome State Fault Refusal := .next ((s.atB t).writeNum o 0x4300 1 c)
/-- LRETRAIN (R337, R360): a lane of a port. -/
def execLretrain (t : Nat) (o : Origin) (n l v : Nat) (s : State) : Host.Outcome State Fault Refusal := .next ((s.atB t).writeOf o 0x3200 36 n (0x50 + l) v)
/-- MODID (R347, R520). -/
def execModid (t : Nat) (o : Origin) (v : Nat) (s : State) : Host.Outcome State Fault Refusal := .next ((s.atB t).writeNum o 0x2700 1 v)
/-- PTROOT (R261). -/
def execPtroot (t : Nat) (o : Origin) (root : Nat) (s : State) : Host.Outcome State Fault Refusal := .next ((s.atB t).writeNum o 0x2500 1 root)
/-- XLINV (R259): first DVA and pages. -/
def execXlinv (t : Nat) (o : Origin) (dva pages : Nat) (s : State) : Host.Outcome State Fault Refusal :=
  .next ((s.atB t).writeNum o 0x2500 2 (dva % 2 ^ 64 + pages % 2 ^ 32 * 2 ^ 64))
/-- ERQHEAD (R392, R394): the host's write through BAR0, or a management write. -/
def execErqhead (t : Nat) (o : Option Origin) (v : Nat) (s : State) : Host.Outcome State Fault Refusal :=
  let s := s.atB t
  match o with
  | some o => .next (s.writeNum o 0x6A00 2 v)
  | none => .next (if ¬ s.host.linkUp ∨ s.err.fatal then s else s.setErqhead false v)
/-- SCFREE (R399): the host's write through BAR0, or a management write. -/
def execScfree (t : Nat) (o : Option Origin) (k : Nat) (s : State) : Host.Outcome State Fault Refusal :=
  let s := s.atB t
  match o with
  | some o => .next (s.writeNum o 0x6A02 1 k)
  | none => .next (if ¬ s.host.linkUp ∨ s.err.fatal then s else s.freeCard k)
/-- FATALREQ (R401): a write by the firmware. -/
def execFatalreq (t : Nat) (o : Origin) (v : Nat) (s : State) : Host.Outcome State Fault Refusal := .next ((s.atB t).writeNum o 0x2A00 6 v)
/-- FWACTION_STAGE (R467). -/
def execFwactionStage (t : Nat) (o : Origin) (s : State) : Host.Outcome State Fault Refusal := .next ((s.atB t).writeNum o 0x7200 2 1)
/-- FWACTION_ACTIVATE (R467). -/
def execFwactionActivate (t : Nat) (o : Origin) (s : State) : Host.Outcome State Fault Refusal := .next ((s.atB t).writeNum o 0x7200 2 2)
/-- FWACTION_ACCEPT (R467). -/
def execFwactionAccept (t : Nat) (o : Origin) (s : State) : Host.Outcome State Fault Refusal := .next ((s.atB t).writeNum o 0x7200 2 3)
/-- FWACTION_ABORT (R467). -/
def execFwactionAbort (t : Nat) (o : Origin) (s : State) : Host.Outcome State Fault Refusal := .next ((s.atB t).writeNum o 0x7200 2 4)
/-- TOKENSUBMIT (R484). -/
def execTokensubmit (t : Nat) (o : Origin) (v : Nat) (s : State) : Host.Outcome State Fault Refusal := .next ((s.atB t).writeNum o 0x8202 1 v)
/-- SCANREQ (R483). -/
def execScanreq (t : Nat) (o : Origin) (c : Nat) (s : State) : Host.Outcome State Fault Refusal := .next ((s.atB t).writeNum o 0x8200 1 c)
/-- BENCH (R473, R475): a bench request for a core. -/
def execBench (t : Nat) (o : Origin) (c : Nat) (s : State) : Host.Outcome State Fault Refusal := .next ((s.atB t).writeOf o 0x3000 256 c 3 1)
/-- RETURN (R479). -/
def execReturn (t : Nat) (o : Origin) (c : Nat) (s : State) : Host.Outcome State Fault Refusal := .next ((s.atB t).writeOf o 0x3000 256 c 3 2)
/-- BENCH_CANCEL (R475). -/
def execBenchCancel (t : Nat) (o : Origin) (c : Nat) (s : State) : Host.Outcome State Fault Refusal := .next ((s.atB t).writeOf o 0x3000 256 c 3 3)
/-- BISTRUN (R477). -/
def execBistrun (t : Nat) (o : Origin) (c : Nat) (s : State) : Host.Outcome State Fault Refusal := .next ((s.atB t).writeNum o 0x8000 3 c)
/-- FUSEREPAIR (R482). -/
def execFuserepair (t : Nat) (o : Origin) (v : Nat) (s : State) : Host.Outcome State Fault Refusal := .next ((s.atB t).writeNum o 0x8100 1 v)

end Sys2Proof.Machine
end

