-- ==== Sys2Proof/Machine/Spdm.lean ====
section
/-!
DEFINITION. MCTP control commands (15_marmas_dictionary.md R434) and the SPDM responder (16_security_attestation.md R451, R463-R466, R470).
Message contents that the DMTF standards lay out and the spec does not are free bytes, or follow the standard where the log says so.
-/
namespace Sys2Proof.Machine

/-- Whether an MCTP binding answers (R434, R458): I3C and VDM, the firmware running, VDM with its link. -/
def State.mctpUp (s : State) (o : Origin) : Bool :=
  (o.route == 2 || o.route == 3) && s.route { o with session := 0 } != .silent

/-- The endpoint ID of a binding. -/
def State.eidOf (s : State) (o : Origin) : Nat := if o.route = 2 then s.marmas.eidI3c else s.marmas.eidVdm

/-- Answer an MCTP control command with its completion code and values. -/
def State.mctpAnswer (s : State) (o : Origin) (code cc : Nat) (vals : List Nat) : Host.Outcome State Fault Refusal :=
  .next (if s.mctpUp o then s.emit (.mctp o.route o.eid code cc vals) else s)

/-- SET_ENDPOINT_ID (R434): the bus owner assigns the binding's endpoint ID; the null and the broadcast ID are refused. -/
def execSetEndpointId (t : Nat) (o : Origin) (eid : Nat) (s : State) : Host.Outcome State Fault Refusal :=
  let s := s.atB t
  let ok : Bool := 0 < eid && eid < 255
  let s1 := if s.mctpUp o ∧ ok then
      s.modMarmas (fun m => if o.route = 2 then { m with eidI3c := eid } else { m with eidVdm := eid })
    else s
  s1.mctpAnswer o 1 (if ok then 0 else 2) [s1.eidOf o]

/-- GET_ENDPOINT_ID (R434). -/
def execGetEndpointId (t : Nat) (o : Origin) (s : State) : Host.Outcome State Fault Refusal :=
  let s := s.atB t
  s.mctpAnswer o 2 0 [s.eidOf o]

/-- GET_ENDPOINT_UUID (R434): the UUID object's bytes. -/
def execGetEndpointUuid (t : Nat) (o : Origin) (s : State) : Host.Outcome State Fault Refusal :=
  let s := s.atB t
  s.mctpAnswer o 3 0 ((s.value (okey 0x1000 0xD)).map (·.toNat))

/-- The message types of R434. -/
def messageTypes : List Nat := [0x00, 0x05, 0x06, 0x7E]

/-- GET_MCTP_VERSION_SUPPORT (R434): version 1.3 of the base; a free version for another supported message type. -/
def execGetMctpVersionSupport (t : Nat) (o : Origin) (ty : Nat) (s : State) : Host.Outcome State Fault Refusal :=
  let s := s.atB t
  if ty = 0xFF ∨ ty = 0 then s.mctpAnswer o 4 0 [1, 3]
  else if messageTypes.contains ty then ({ s with free := s.free + 1 }).mctpAnswer o 4 0 [(Config.spdmByte (0x100 + ty) s.free 0).toNat]
  else s.mctpAnswer o 4 0x80 []

/-- GET_MESSAGE_TYPE_SUPPORT (R434). -/
def execGetMessageTypeSupport (t : Nat) (o : Origin) (s : State) : Host.Outcome State Fault Refusal := (s.atB t).mctpAnswer o 5 0 messageTypes

/-- GET_VENDOR_DEFINED_MESSAGE_SUPPORT (R433, R434): one set, the PCI vendor identifier. -/
def execGetVendorDefinedMessageSupport (t : Nat) (o : Origin) (sel : Nat) (s : State) : Host.Outcome State Fault Refusal :=
  let s := s.atB t
  if sel = 0 then s.mctpAnswer o 6 0 [0xFF, 0, leNat (s.value (okey 0x1000 2))] else s.mctpAnswer o 6 2 []

/-! ### The SPDM responder -/

/-- Free bytes of a message. -/
def State.spdmBytes (s : State) (code n : Nat) : List Byte := (List.range n).map (Config.spdmByte code s.free)

/-- Free bytes have been drawn. -/
def State.drawn (s : State) : State := { s with free := s.free + 1 }

/-- The session an SPDM request comes in. -/
def State.sessionOf (s : State) (o : Origin) : Option Session :=
  s.sec.sessions.find? (fun x => x.id == o.session && x.transport == o.route && x.eid == o.eid)

/-- Answer an SPDM request (R464), counted in SPDMREQS and, an error, in SPDMERRS (R471). -/
def State.spdmAnswer (s : State) (transport eid session : Nat) (name : SpdmRsp) (vals : List Nat) (data : List Byte) : State :=
  let bad : Bool := match name with | .error _ => true | _ => false
  (s.modSec (fun x => { x with spdmReqs := satInc x.spdmReqs 64, spdmErrs := if bad then satInc x.spdmErrs 64 else x.spdmErrs })).emit
    (.spdm transport eid session name vals data)
/-- Answer on the connection a request came on. -/
def State.spdmRsp (s : State) (o : Origin) (name : SpdmRsp) (vals : List Nat) (data : List Byte) : State :=
  s.spdmAnswer o.route o.eid o.session name vals data
/-- Answer an error. -/
def State.spdmErr (s : State) (o : Origin) (e : SpdmErr) : State := s.spdmRsp o (.error e) [] []

/-- BCLKs within which a signature is returned at once (CTExponent 13, R463, R464), and one heartbeat period (R463). -/
def ctTime : Nat := 8192000
def heartbeatTime : Nat := 60000000000

/-- ResponseNotReady (R464): RDTExponent 15 and RDTM 1, for the request's code. -/
def State.notReady (s : State) (w : SigWait) : State := s.spdmAnswer w.transport w.eid w.session (.error .responseNotReady) [15, 1, w.code] []

/-- Signatures that have waited longer than CTExponent allows are answered ResponseNotReady (R464). -/
def State.deferSigs (s : State) : State :=
  let late (w : SigWait) : Bool := !w.deferred && decide (w.askedAt + ctTime < s.bclk)
  let s1 := (s.sec.sigs.filter late).foldl State.notReady s
  s1.modSec (fun x => { x with sigs := x.sigs.map (fun w => if late w then { w with deferred := true } else w) })

/-- An SPDM request: time, late signatures, then the request where its binding and its session exist; the boot ROM answers Busy (R458). -/
def State.spdm (s : State) (t : Nat) (o : Origin) (f : State → State) : Host.Outcome State Fault Refusal :=
  let s := (s.atB t).deferSigs
  if o.route ≠ 2 ∧ o.route ≠ 3 then .next s
  else match s.route { o with session := 0 } with
  | .silent => .next s
  | .rom => .next (s.spdmErr o .busy)
  | .opened => .next (if o.session ≠ 0 ∧ s.sessionOf o = none then s else f s)

/-- Whether certificate slot 0 is empty (R453, R462). -/
def State.slotEmpty (s : State) : Bool := s.sec.certBad || s.lifecycle == 0 || s.lifecycle == 3

/-- A request that needs the RAK certificate, of a certificate slot (R462, R464). -/
def State.withCert (s : State) (o : Origin) (slot : Nat) (f : State → State) : State :=
  if s.slotEmpty ∨ slot ≠ 0 then s.spdmErr o .invalidRequest
  else if ¬ s.sec.rakCert then s.spdmErr o .busy
  else f s

/-- A response that the RAK signs (R451, R464, R469): the answer Unspecified without the key or without a nonce; else it waits. -/
def State.signed (s : State) (o : Origin) (session code arg : Nat) (body : List Byte) : State :=
  if s.sec.rak = none then s.spdmErr o .unspecified
  else match s.random 32 with
  | (s1, none) => s1.spdmErr o .unspecified
  | (s1, some nonce) =>
    let w : SigWait := { transport := o.route, eid := o.eid, session := session, code := code, arg := arg, body := body ++ nonce, askedAt := s1.bclk }
    s1.modSec (fun x => { x with sigs := x.sigs ++ [w] })

/-- The response a signed request gets. -/
def sigName (code : Nat) : SpdmRsp := if code = 0x83 then .challengeAuth else if code = 0xE0 then .measurements else .keyExchangeRsp

/-- The connection's chunked messages. -/
def State.chunking (s : State) (o : Origin) : Chunking :=
  match s.sec.chunks.find? (fun c => c.transport == o.route && c.eid == o.eid && c.session == o.session) with
  | some c => c
  | none => { transport := o.route, eid := o.eid, session := o.session }
/-- Replace the connection's chunked messages. -/
def State.setChunking (s : State) (c : Chunking) : State :=
  let rest := s.sec.chunks.filter (fun d => !(d.transport == c.transport && d.eid == c.eid && d.session == c.session))
  s.modSec (fun x => { x with chunks := rest ++ [c] })

/-- A signed response goes out (R464): its body and 17,088 bytes of signature, kept for CHUNK_GET. A KEY_EXCHANGE_RSP goes outside its session. -/
def State.sendSigned (s : State) (w : SigWait) : State :=
  match s.sec.rak with
  | none => s.spdmAnswer w.transport w.eid w.session (.error .unspecified) [] []
  | some key =>
    let sig := (List.range 17088).map (Config.sigByte (leNat key) w.body s.free)
    let conn := if w.code = 0xE4 then 0 else w.session
    let o : Origin := { route := w.transport, eid := w.eid, session := conn, tag := 0 }
    let s1 := ({ s with free := s.free + 1 }).setChunking { s.chunking o with large := w.body ++ sig }
    s1.spdmAnswer w.transport w.eid conn (sigName w.code) [w.arg] (w.body ++ sig)

/-- GET_VERSION (R463): 1.2 and 1.3. -/
def execGetVersion (t : Nat) (o : Origin) (s : State) : Host.Outcome State Fault Refusal := s.spdm t o (fun s => s.spdmRsp o .version [0x12, 0x13] [])

/-- The capability flags of R463, in the SPDM standard's places. -/
def spdmCaps : Nat := [1, 2, 4, 5, 6, 7, 8, 9, 12, 13, 14, 17].foldl (fun a b => a + 2 ^ b) 0

/-- GET_CAPABILITIES (R463): the flags, CTExponent, DataTransferSize, MaxSPDMmsgSize. -/
def execGetCapabilities (t : Nat) (o : Origin) (s : State) : Host.Outcome State Fault Refusal :=
  s.spdm t o (fun s => s.spdmRsp o .capabilities [spdmCaps, 13, 4096, 65536] [])

/-- NEGOTIATE_ALGORITHMS (R463): SHA-256 twice, no BaseAsymAlgo, the ExtAsym entry's registry and algorithm, DHE secp384r1, AES-256-GCM, and the
requester's signature as it chose it: ECDSA P-384 (0) or the ExtAsym entry (1). -/
def execNegotiateAlgorithms (t : Nat) (o : Origin) (req : Bool) (s : State) : Host.Outcome State Fault Refusal :=
  s.spdm t o (fun s => s.spdmRsp o .algorithms [256, 256, 0, 3, 0x0101, 384, 256, b2n req] [])

/-- GET_DIGESTS (R462, R464): the slots in use and the digest of the chain; no slot where it is empty. -/
def execGetDigests (t : Nat) (o : Origin) (s : State) : Host.Outcome State Fault Refusal :=
  s.spdm t o (fun s =>
    if s.slotEmpty then s.spdmRsp o .digests [0] []
    else s.withCert o 0 (fun s => (s.spdmRsp o .digests [1] (s.spdmBytes 0x81 32)).drawn))

/-- GET_CERTIFICATE (R462, R464): `len` bytes of the chain from `off`. -/
def execGetCertificate (t : Nat) (o : Origin) (slot off len : Nat) (s : State) : Host.Outcome State Fault Refusal :=
  s.spdm t o (fun s => s.withCert o slot (fun s =>
    (s.spdmRsp o .certificate [slot, off] (s.spdmBytes 0x82 (min len 4096))).drawn))

/-- CHALLENGE (R464): CHALLENGE_AUTH signed by the RAK. -/
def execChallenge (t : Nat) (o : Origin) (slot : Nat) (s : State) : Host.Outcome State Fault Refusal :=
  s.spdm t o (fun s => s.withCert o slot (fun s => s.signed o o.session 0x83 slot []))

/-- A measurement block in the DMTF form (R465): its index, value type, whether it is raw, its size, and the value. -/
def State.block (s : State) (n : Nat) : List Byte :=
  let v := s.measure n
  let ty := if n = 1 then 0x00 else if n ≤ 6 then 0x01 else if n = 7 then 0x85 else if n = 8 then 0x87 else 0x83
  packLe [(1, n), (1, 1), (2, 3 + v.length), (1, ty), (2, v.length)] ++ v

/-- GET_MEASUREMENTS (R464, R465): the count (0), one block, or all (0xFF), signed on request. -/
def execGetMeasurements (t : Nat) (o : Origin) (index : Nat) (sig : Bool) (s : State) : Host.Outcome State Fault Refusal :=
  s.spdm t o (fun s =>
    let body := if index = 0 then [] else if index = 0xFF then (List.range 9).flatMap (fun i => s.block (i + 1)) else s.block index
    if ¬ (index ≤ 9 ∨ index = 0xFF) then s.spdmErr o .invalidRequest
    else if sig then s.withCert o 0 (fun s => s.signed o o.session 0xE0 index body)
    else s.spdmRsp o .measurements [if index = 0 then 9 else index] body)

/-- KEY_EXCHANGE (R463, R464): a session in handshake; at most four on both bindings. -/
def execKeyExchange (t : Nat) (o : Origin) (s : State) : Host.Outcome State Fault Refusal :=
  s.spdm t o (fun s => s.withCert o 0 (fun s =>
    if s.sec.rak = none then s.spdmErr o .unspecified
    else if 4 ≤ s.sec.sessions.length then s.spdmErr o .sessionLimitExceeded
    else match s.random 48 with
    | (s1, none) => s1.spdmErr o .unspecified
    | (s1, some dhe) =>
      let id := s1.sec.nextSession
      let s2 := s1.signed o id 0xE4 id dhe
      if s2.sec.sigs.length = s1.sec.sigs.length then s2
      else s2.modSec (fun x => { x with nextSession := id % (2 ^ 32 - 1) + 1,
                                        sessions := x.sessions ++ [{ id := id, transport := o.route, eid := o.eid, lastBeat := s2.bclk }] })))

/-- A session ends (R466): what waits for it goes with it. -/
def State.endSession (s : State) (id : Nat) : State :=
  s.modSec (fun x => { x with sessions := x.sessions.filter (fun y => y.id != id), sigs := x.sigs.filter (fun w => w.session != id),
                              chunks := x.chunks.filter (fun c => c.session != id) })

/-- A request of a session: `hand` in its handshake, after its KEY_EXCHANGE_RSP, or else established. -/
def State.inSession (s : State) (o : Origin) (hand : Bool) (f : State → Session → State) : State :=
  match s.sessionOf o with
  | some x =>
    if o.session ≠ 0 ∧ x.established ≠ hand ∧ ¬ s.sec.sigs.any (fun w => w.session == x.id && w.code == 0xE4) then f s x
    else s.spdmErr o .unsupportedRequest
  | none => s.spdmErr o .unsupportedRequest

/-- Change a session. -/
def State.modSession (s : State) (id : Nat) (f : Session → Session) : State :=
  s.modSec (fun x => { x with sessions := x.sessions.map (fun y => if y.id = id then f y else y) })

/-- FINISH (R464, R466, R470): the session is established, with what the requester proved: whether it authenticated, and the digest of the
certificate its chain ends at. A failed authentication ends it. -/
def execFinish (t : Nat) (o : Origin) (ok both : Bool) (owner : List Byte) (s : State) : Host.Outcome State Fault Refusal :=
  s.spdm t o (fun s => s.inSession o true (fun s x =>
    if ok then
      let own := if both then owner else []
      (s.modSession x.id (fun y => { y with established := true, both := both, owner := own, at' := s.extTime, lastBeat := s.bclk })).spdmRsp
        o .finishRsp [] []
    else ((s.endSession x.id).securityRec .info 0x04 x.id).spdmErr o .decryptError))

/-- HEARTBEAT (R463): the session's period starts again. -/
def execHeartbeat (t : Nat) (o : Origin) (s : State) : Host.Outcome State Fault Refusal :=
  s.spdm t o (fun s => s.inSession o false (fun s x => (s.modSession x.id (fun y => { y with lastBeat := s.bclk })).spdmRsp o .heartbeatAck [] []))

/-- KEY_UPDATE (R463): the session's keys are updated. -/
def execKeyUpdate (t : Nat) (o : Origin) (s : State) : Host.Outcome State Fault Refusal :=
  s.spdm t o (fun s => s.inSession o false (fun s x => (s.modSession x.id (fun y => { y with keyGen := y.keyGen + 1 })).spdmRsp o .keyUpdateAck [] []))

/-- END_SESSION (R460, R466). -/
def execEndSession (t : Nat) (o : Origin) (s : State) : Host.Outcome State Fault Refusal :=
  s.spdm t o (fun s => s.inSession o false (fun s x => (s.endSession x.id).spdmRsp o .endSessionAck [] []))

/-- CHUNK_SEND (R463): bytes of a large request, at most 65,536; the last chunk ends it. -/
def execChunkSend (t : Nat) (o : Origin) (seq size : Nat) (last : Bool) (s : State) : Host.Outcome State Fault Refusal :=
  s.spdm t o (fun s =>
    let c := s.chunking o
    if 65536 < c.got + size ∨ 4096 < size then (s.setChunking { c with got := 0 }).spdmErr o .invalidRequest
    else (s.setChunking { c with got := if last then 0 else c.got + size }).spdmRsp o .chunkSendAck [seq] [])

/-- CHUNK_GET (R463): chunk `seq` of the connection's last large response, each message within DataTransferSize. -/
def execChunkGet (t : Nat) (o : Origin) (seq : Nat) (s : State) : Host.Outcome State Fault Refusal :=
  s.spdm t o (fun s =>
    let data := (s.chunking o).large
    let start := if seq = 0 then 0 else 4080 + 4084 * (seq - 1)
    let part := (data.drop start).take (if seq = 0 then 4080 else 4084)
    if part.isEmpty then s.spdmErr o .invalidRequest
    else s.spdmRsp o .chunkResponse [seq, b2n (decide (data.length ≤ start + part.length))] part)

/-- RESPOND_IF_READY (R464): the deferred response to a request of this code, or ResponseNotReady again. -/
def execRespondIfReady (t : Nat) (o : Origin) (code : Nat) (s : State) : Host.Outcome State Fault Refusal :=
  s.spdm t o (fun s =>
    let mine (w : SigWait) : Bool :=
      w.deferred && w.code == code && w.transport == o.route && w.eid == o.eid && (w.session == o.session || (code == 0xE4 && o.session == 0))
    match s.sec.sigs.find? mine with
    | none => s.spdmErr o (if s.sec.rak = none then .unspecified else .invalidRequest)
    | some w => if w.ready then (s.modSec (fun x => { x with sigs := x.sigs.erase w })).sendSigned w else s.notReady w)

/-- SPDM_SIGNATURE_DONE (R450, R464): the oldest signature asked for is made; its response goes out, or waits for RESPOND_IF_READY. -/
def execSpdmSignatureDone (t : Nat) (s : State) : Host.Outcome State Fault Refusal :=
  let s := (s.atB t).deferSigs
  match s.sec.sigs.find? (fun w => !w.ready) with
  | none => .next s
  | some w =>
    if w.deferred then .next (s.modSec (fun x => { x with sigs := x.sigs.map (fun y => if y = w then { y with ready := true } else y) }))
    else .next ((s.modSec (fun x => { x with sigs := x.sigs.erase w })).sendSigned w)

/-- HEARTBEAT_LOSS (R463, R470): a session whose period has lapsed ends. -/
def execHeartbeatLoss (t : Nat) (id : Nat) (s : State) : Host.Outcome State Fault Refusal :=
  let s := s.atB t
  match s.sec.sessions.find? (fun x => x.id == id) with
  | some x => .next (if x.established ∧ x.lastBeat + heartbeatTime ≤ s.bclk then (s.endSession id).securityRec .info 0x05 id else s)
  | none => .next s

/-- TRNG_HEALTH_FAILURE (R451, R470): reseeding stops until module reset. -/
def execTrngHealthFailure (t : Nat) (s : State) : Host.Outcome State Fault Refusal :=
  let s := s.atB t
  if s.sec.trngFailed ∨ s.start.st = .held then .next s
  else .next ((s.modSec (fun x => { x with trngFailed := true })).securityRec .unit 0x08 0)

/-- ENCAPSULATED_REQUEST (R464): answered within the handshake of a session; its content is the standard's. -/
def execEncapsulatedRequest (t : Nat) (o : Origin) (code : Nat) (s : State) : Host.Outcome State Fault Refusal :=
  s.spdm t o (fun s => s.inSession o true (fun s _ => (s.spdmRsp o .encapsulated [code] (s.spdmBytes code 4)).drawn))

end Sys2Proof.Machine
end

