-- ==== Sys2Proof/Machine/Edge.lean ====
section
/-!
DEFINITION. The cycle edge (10_fixture_cadence.md R281): the actions of every unit in their order.
-/
namespace Sys2Proof.Machine

/-! ### Actions 1 and 2 -/

/-- The edge itself (R273-R275, R269): CYC, EDGETIME, and the announced cadence state. The first edge leaves CYC at 0 (R272). -/
def State.beginEdge (s : State) (e : Nat) : State :=
  let s1 := s.modFix (fun f =>
    { f with cycle := if f.lastEdge.isSome then f.cycle + 1 else 0,
             lastPeriod := match f.lastEdge with | some l => (e - l) % 2 ^ 32 | none => 0,
             lastEdge := some e, edgeTime := (f.extBase + e) % 2 ^ 64, edgeDue := none, nextCad := none })
  match s.fix.nextCad with
  | some (c, n) => (s1.setCad c).modFix (fun f => { f with holdcnt := n })
  | none => s1

/-! ### Writes that wait for the edge (R426, R427, R430) -/

/-- LIVE writes of index.sub whose edge this is, in JSEQ order. -/
def State.dueLive (s : State) (p : Nat → Bool) : List Waiting := s.marmas.live.filter (fun w => decide (w.eff ≤ s.fix.cycle) && p w.key)
/-- They have taken effect. -/
def State.dropLive (s : State) (p : Nat → Bool) : State :=
  s.modMarmas (fun m => { m with live := m.live.filter (fun w => !(decide (w.eff ≤ s.fix.cycle) && p w.key)) })
/-- Of several writes to one object at one edge the last is the value in force; each write of a request object makes its request (R427). -/
def lastWrites (l : List Waiting) : List Waiting := l.filter (fun w => isRequest w.key || !(l.any (fun v => v.key == w.key && decide (w.jseq < v.jseq))))

/-- FIXCOMMIT and HMAPCOMMIT act within actions 3 and 7. -/
def isFixcommit (k : Nat) : Bool := k == okey 0x4300 1
def isHmapcommit (k : Nat) : Bool := decide (okey 0x5000 0 ≤ k) && decide (k < okey 0x5F00 0) && k % 256 == 3
/-- Requests served after the values: JCKREQ and MODRESET. -/
def isEdgeEnd (k : Nat) : Bool := k == okey 0x7000 4 || k == okey 0x2000 0x10

/-- Action 3 (R280): FIXCOMMIT writes, then the swap. -/
def State.fixEdge (s : State) : State :=
  let l := lastWrites (s.dueLive isFixcommit)
  (l.foldl (fun x w => x.applyFixcommit (leNat w.value)) (s.dropLive isFixcommit)).tableEdge

/-- The value an object would have if the staging set took effect. -/
def State.afterCommit (s : State) (k : Nat) : Nat :=
  match s.marmas.staging.find? (fun w => w.key == k) with
  | some w => leNat w.value
  | none => match Table.get none s.fix.regNew k with
    | some v => v
    | none => s.objAt k

/-- Whether a stream class has admitted work (R240, R243): charges of the ledger, and what runs for admitted commands. -/
def State.classBusy (s : State) (c : Nat) : Bool :=
  s.fix.ledger.any (fun p => (p.hbm != 0 && p.hcls == c) || (c == 1 && p.emb.any (fun e => e != 0))) ||
  s.mem.xfers.any (fun x => x.sclass == c) || (c == 1 && !(s.emb.looks.isEmpty && s.emb.upds.isEmpty))

/-- Whether a staged regulator share breaks R243: shares of one target that sum above 256, or none for a class with admitted work. -/
def State.shareBad (s : State) (k : Nat) : Bool :=
  let idx := k / 256
  let sum := ((List.range 8).map (fun i => s.afterCommit (okey idx (i + 1)))).foldl (· + ·) 0
  (idx == 0x2410 || idx == 0x2411) && (decide (256 < sum) || (s.afterCommit k == 0 && s.classBusy (k % 256 - 1)))

/-- Whether a staged value fails at its commit (R425, R430): its ranges and rules, or its unit is not idle. -/
def State.stagedBad (s : State) (w : Waiting) : Bool :=
  !(s.valueOk w.key w.value) || s.unitBusy (w.key / 256) (w.key % 256) (reservedMask (w.key / 256) (w.key % 256) (leNat w.value)) || s.shareBad w.key

/-- The first cycle by which every due slot and placement of what has been admitted is past (R243). -/
def State.lastAdmitted (s : State) : Nat := (s.fix.ledger.map (fun p => (p.first + p.slots - 1) / s.nslots + 1)).foldl max s.fix.lastDue

/-- A commit (R430, R445): the whole set takes effect, in JSEQ order, or none of it; either way an entry is journalled. -/
def State.commitSet (s : State) (jseq : Nat) : State :=
  let set := s.marmas.staging
  let put (x : State) (kind err : Nat) : State :=
    if x.err.fatal then x
    else (x.journalPut kind 0 0 (okey 0x2000 1) 0 [] (packLe [(8, jseq), (4, err), (4, set.length)])).1
  let s1 := s.modMarmas (fun m => { m with armed := none })
  match set.find? s.stagedBad with
  | some w =>
    let err := w.key * 256 + 4
    let s2 := s1.modMarmas (fun m => { m with commitState := 4, commitErr := err })
    put (s2.postErr { cls := .config, sev := .info, cause := 0x01, ukind := .mgc }) 3 err
  | none =>
    let s2 := s1.modMarmas (fun m => { m with staging := [], commitState := 3, commitErr := 0 })
    let s3 := set.foldl (fun x w => x.applyValue w.key w.value) s2
    let s4 := if set.any (fun w => isRegulator (w.key / 256)) then s3.modFix (fun f => { f with regUntil := max f.regUntil s.lastAdmitted }) else s3
    put s4 2 0

/-- Regulator values whose wait is over come into force (R243): what was admitted under the old ones has passed its due slot. -/
def State.regulatorEdge (s : State) : State :=
  if s.fix.regUntil ≤ s.fix.cycle then
    (s.fix.regNew.foldl (fun x p => match p.2 with | some v => x.setObjAt p.1 v | none => x) s).modFix (fun f => { f with regNew := [], regUntil := 0 })
  else s

/-- The values of action 5 in JSEQ order, a commit at its own JSEQ (R427). -/
def State.applyWrites (s : State) : State :=
  let p (k : Nat) : Bool := !(isFixcommit k) && !(isHmapcommit k) && !(isEdgeEnd k)
  let l := lastWrites (s.dueLive p)
  let s1 := s.dropLive p
  let put (x : State) (ws : List Waiting) : State := ws.foldl (fun y w => y.applyValue w.key w.value) x
  match s.marmas.armed with
  | some (c, j) =>
    if c ≤ s.fix.cycle then put ((put s1 (l.filter (fun w => decide (w.jseq < j)))).commitSet j) (l.filter (fun w => decide (j < w.jseq))) else put s1 l
  | none => put s1 l

/-- Requested checkpoints, after the edge's APPLIED and REFUSED entries (R447). -/
def State.checkpointEdge (s : State) : State :=
  let p (k : Nat) : Bool := k == okey 0x7000 4
  (s.dueLive p).foldl (fun x w => x.checkpoint w.value) (s.dropLive p)

/-! ### Map-out steps (R233) -/

/-- The record of a map-out step (R523). -/
def State.mapoutRec (s : State) (st : Nat) : State :=
  let k := s.stack st
  s.postErr { cls := .memory, sev := .degraded, cause := 0x05, ukind := .hbmStack, unit := st, info6 := (31 - k.m) * 2 ^ 31, info7 := k.moChan * 2 ^ 56 }

/-- Work slowed by the charge of a map-out (R233, R290): a stack's bytes, class by class. -/
def State.slowedStack (s : State) (st : Nat) : State :=
  (List.range 8).foldl (fun x c => x.slowed (fun p => if p.hcls = c then p.hbm * 32 else 0)
    (x.slotns * x.shareOf c * 10 * (32 - max (x.stack st).m (x.stack st).charged))) s

/-- Steps 2 and 5 of a stack's map-out: the charge of the edge after DRAIN began, with the stripes set moving; the switch after the last block. -/
def State.mapoutSwitch (s : State) (st : Nat) : State :=
  let k := s.stack st
  if k.mo = .drain ∧ k.charged ≤ k.m then ((s.modStack st (fun x => { x with charged := k.m + 1 })).moveDisplaced st).slowedStack st
  else if k.mo = .copy ∧ k.copied then
    ((s.mapoutRec st).modStack st (fun x => { x with chmap := Nat.lor x.chmap (2 ^ x.moChan), mo := .done, copied := false, charged := k.m + 1 })).setObj (0x3100 + st) 4 0
  else if k.mo = .drain ∨ k.mo = .copy then s
  else match k.moWait with
    | [] => s
    | ch :: l => let s1 := s.modStack st (fun x => { x with moWait := l }); if bitAt k.chmap ch then s1 else s1.startMapout st ch

/-- Step 4: COPY once VACATED is 1 and no stripe is left in the removed range. -/
def State.mapoutCopy (s : State) (st : Nat) : State :=
  if (s.stack st).mo = .drain ∧ s.obj (0x3100 + st) 4 = 1 ∧ ¬ s.displaced st then
    (s.modStack st (fun x => { x with mo := .copy, copied := false })).mapoutRec st
  else s

/-- Every stack's turn. -/
def State.eachStack (s : State) (f : State → Nat → State) : State := (List.range 16).foldl f s

/-! ### The edge -/

/-- Action 7 (R197, R222): HMAPCOMMIT writes, switches of generations, moves. -/
def State.hmapEdge (s : State) : State :=
  let l := lastWrites (s.dueLive isHmapcommit)
  (l.foldl (fun x w => x.armHmap (w.key / 256 % 0x1000) (leNat w.value)) (s.dropLive isHmapcommit)).switchGens.migEdge

/-- The ledger keeps what still runs, what has not been released, and what the open step's combine capacity still counts (R287, R288). -/
def State.ledgerEdge (s : State) : State :=
  s.modFix (fun f => { f with ledger := f.ledger.filter (fun p =>
    decide (f.cycle * s.nslots < p.first + p.slots) || decide (0 ≤ s.stepOf (p.first / s.nslots)) ||
    (!p.released && s.cfe.cmds.any (fun c => c.q == p.q && c.cseq == p.cseq && c.st != .done))) })

/-- The actions that stop in the safe state (R402) and those that do not. -/
def State.workEdge (s : State) (rows : List (Nat × RowFinding)) : State :=
  let s1 := s.fixEdge.benchEdge
  let s2 := ((s1.eachStack State.mapoutSwitch).applyWrites).eachStack State.mapoutCopy
  let s3 := s2.regulatorEdge.checkpointEdge.stepEdge rows |>.hmapEdge.applyInvalidations.heatEdge.replEdge
  s3.linkEdge.applyQuotas.attachEdge.hostEdge.ledgerEdge.xcEdge

/-- MODRESET's request of this edge (R432). -/
def State.resetDue (s : State) : Bool := !(s.dueLive (fun k => k == okey 0x2000 0x10)).isEmpty

/-- CYCLE_EDGE (R33, R281): the announced edge at its BCLK. In the safe state time, cadence, writes and power go on (R402). `fnd` is what
the power sensors and the applies of a step boundary find (R493, R217, R236). -/
def execCycleEdge (t : Nat) (fnd : EdgeFind) (s : State) : Host.Outcome State Fault Refusal :=
  let s := s.atB t
  match s.fix.edgeDue with
  | none => .next s
  | some e =>
    if s.bclk < e then .next s
    else
      let s1 := s.beginEdge e
      let s2 := (if s.stopped then s1.applyWrites else s1.workEdge fnd.rows).powerEdge fnd.watts
      .next (if s2.resetDue then s2.linkDown.resetModule else s2)

end Sys2Proof.Machine
end

