-- ==== Sys2Proof/Machine/Bar.lean ====
section
/-!
DEFINITION. What the host reads through BAR0 and the doorbell page of BAR2 (13_host_cxl.md R365, R366): the CFE registers (11_command_front_end.md R329-R331), the core control
pages (05_core_programs.md R165, R166) and the error block (14_errors_integrity.md R395). No row of the table is a read; these are the values one returns.
-/
namespace Sys2Proof.Machine

/-- The CFE's control page (R329): CFECTL reads 0. -/
def State.cfePage (s : State) : List Byte :=
  let f := s.cfe
  packLe [(4, 0), (4, f.parked.length * 4 + f.att.code), (8, f.admsq.toNat), (8, f.admcr.toNat), (4, f.admint.toNat), (4, 0), (4, f.kibOf 0 + f.kibAll)]

/-- QSTAT of a queue (R330). -/
def State.qstat (s : State) (q : Nat) : List Byte :=
  let u := s.cfe.queue q
  packLe [(4, u.dbtail.toNat), (4, u.fhead.toNat), (4, u.postseq.toNat), (4, u.nextseq.toNat),
    (2, u.dbign), (2, (s.cfe.cmdsOf q).length), (4, u.haltseq.toNat),
    (4, u.incarn * 2 ^ 24 + u.cr * 2 ^ 16 + u.prio * 2 ^ 14 + b2n u.dbflag * 2 ^ 13 + u.waiton * 2 ^ 10 + u.fetch.code * 2 ^ 8 + u.szlogm4 * 16 + u.st.code),
    (4, u.spawned)]

/-- CRSTAT of a ring (R331). -/
def State.crstat (s : State) (r : Nat) : List Byte :=
  let g := s.cfe.ring r
  packLe [(4, g.chead.toNat), (4, g.ctail.toNat),
    (8, g.intgap * 2 ^ 48 + b2n g.inten * 2 ^ 47 + g.vec * 2 ^ 36 + g.szlogm4 * 2 ^ 32 + s.cfe.parkedOf r * 2 ^ 17 + b2n g.opened)]

/-- The core control page of a core (R165, R166), its first 512 bytes; the rest reads 0. -/
def Core.page (c : Core) (t : Nat) : List Byte :=
  let rt (n : Nat) : Nat := (List.range 32).foldl (fun a i => a + Table.get 0 c.rtags (32 * n + i) % 4 * 2 ^ (2 * i)) 0
  packLe ([(4, c.cstat t), (4, 0), (4, c.tck t), (4, c.etk t), (4, c.pc), (4, c.vxstat.toNat), (8, c.hgctl.toNat), (4, c.cachectl.toNat), (4, 0),
      (8, rt 0), (8, rt 1), (8, rt 2), (4, b2n c.ondeck.isSome)]) ++ leBytes 188 0 ++
    packLe ((List.range 64).map (fun i => (4, (Table.get 0 c.arr i).toNat)))

/-- The registers of the error block below the record slots (R395); SCFREE reads 0. -/
def State.errPage (s : State) : List Byte :=
  let e := s.err
  packLe [(4, e.erqtail.toNat), (4, e.erqhead.toNat), (8, e.erqovf), (4, s.errStat), (4, e.scorecards.length), (4, 0)] ++ leBytes 36 0 ++
    (match e.rsv with | some r => r.bytes | none => leBytes 64 0)

/-- The registers around a BAR0 offset, as the offset at which they begin and their bytes; none where nothing stands. -/
def State.bar0Region (s : State) (off : Nat) : Option (Nat × List Byte) :=
  if 0x20000 ≤ off ∧ off < 0x21000 then some (0x20000, s.cfePage)
  else if 0x21000 ≤ off ∧ off < 0x23000 then (let q := (off - 0x21000) / 32; some (0x21000 + 32 * q, s.qstat q))
  else if 0x23000 ≤ off ∧ off < 0x24000 then (let r := (off - 0x23000) / 16; some (0x23000 + 16 * r, s.crstat r))
  else if 0x28000 ≤ off ∧ off < 0x30000 then
    (let v := (off - 0x28000) / 16
     let m := Table.get {} s.host.msix v
     some (0x28000 + 16 * v, packLe [(8, m.addr), (4, m.data), (4, b2n m.mask)]))
  else if 0x30000 ≤ off ∧ off < 0x30100 then some (0x30000, leBytes 256 s.host.pba)
  else if 0x100000 ≤ off ∧ off < 0x190000 then
    (let c := (off - 0x100000) / 4096; some (0x100000 + 4096 * c, (s.coreNow c).page s.cclk))
  else if 0x200000 ≤ off ∧ off < 0x201000 then some (0x200000, s.errPage)
  else if 0x201000 ≤ off ∧ off < 0x202000 then
    (let n := (off - 0x201000) / 64; some (0x201000 + 64 * n, (Table.get {} s.err.slots n).bytes))
  else if 0x210000 ≤ off ∧ off < 0x400000 then
    (let k := (off - 0x210000) / 4096
     some (0x210000 + 4096 * k, match Table.get none s.err.scorecards k with | some c => c.bytes | none => []))
  else none

/-- What a read of BAR0 returns (R365, R366): 4 or 8 bytes, naturally aligned; any other access, and a reserved offset, reads 0. -/
def State.bar0Read (s : State) (off size : Nat) : List Byte :=
  if (size = 4 ∨ size = 8) ∧ off % size = 0 then
    match s.bar0Region off with
    | some (a, bs) => fitTo size (bs.drop (off - a))
    | none => leBytes size 0
  else leBytes size 0

/-- What a read of the configuration space returns (R361, R364): the identifiers and the processing-accelerator class code stand in the header; what the
module does not fix reads as last written. -/
def State.cfgRead (s : State) (off size : Nat) : List Byte :=
  (List.range size).map (fun i =>
    match off + i with
    | 0 => BitVec.ofNat 8 s.otp.pciVid
    | 1 => BitVec.ofNat 8 (s.otp.pciVid / 256)
    | 2 => BitVec.ofNat 8 s.otp.pciDid
    | 3 => BitVec.ofNat 8 (s.otp.pciDid / 256)
    | 11 => 0x12#8
    | a => Table.get 0 s.host.cfg a)

/-- What a read of a doorbell register in the doorbell page of BAR2 returns (R299): DBTAIL of a queue, CHEAD of a ring; reserved offsets read 0. -/
def State.doorbell (s : State) (off : Nat) : Nat :=
  if off < 0x400 then (s.cfe.queue (off / 4)).dbtail.toNat
  else if off < 0x800 then (s.cfe.ring ((off - 0x400) / 4)).chead.toNat
  else 0
/-- What a read of the doorbell page returns (R299, R366): 4 or 8 bytes, naturally aligned; any other access reads 0. -/
def State.bar2Read (s : State) (off size : Nat) : List Byte :=
  if (size = 4 ∨ size = 8) ∧ off % size = 0 then fitTo size (leBytes 4 (s.doorbell off) ++ leBytes 4 (s.doorbell (off + 4))) else leBytes size 0

end Sys2Proof.Machine
end

