-- ==== Sys2Proof/Machine/VxOps.lean ====
section
/-!
DEFINITION. The common layout of the vector engine (04_vector_engine.md R115, R122-R127): which operands a function has, what it
computes in each lane, and the one shared meaning of its fifty functions.
-/
namespace Sys2Proof.Machine

/-- The shapes of functions (R125): what they read and what they write. -/
inductive VxShape
  | unary | binary | mov | fma | red | cmp | maskFn | mgen | sel
  deriving DecidableEq, Repr

/-- The shape of a function. -/
def vxShape : VxFn → VxShape
  | .add | .sub | .mul | .min | .max | .div | .and | .or | .xor | .shl | .shra | .shrl => .binary
  | .abs | .neg | .sqrt | .rcp | .relu | .scale2 => .unary
  | .exp2 | .exp | .log2 | .ln | .rsqrt | .tanh | .sigmoid | .erf | .silu | .gelu => .unary
  | .f2i | .i2f | .itag => .unary
  | .mov => .mov
  | .fma | .fnma => .fma
  | .rsum | .rmax | .rmin | .csum | .cmax | .cmin => .red
  | .eq | .ne | .lt | .le | .gt | .ge | .unord => .cmp
  | .mand | .mor | .mxor | .mandn => .maskFn
  | .mgen => .mgen
  | .sel => .sel

/-- Whether a function is a transcendental. -/
def vxIsTrn : VxFn → Bool
  | .exp2 | .exp | .log2 | .ln | .rsqrt | .tanh | .sigmoid | .erf | .silu | .gelu => true
  | _ => false

/-- Occupancy in CCLK (R115). -/
def vxOcc (fn : VxFn) : Nat :=
  match fn with
  | .div | .sqrt | .rcp => 16
  | f => if vxIsTrn f then 16 else 4
/-- Latency from issue to result in CCLK (R115). -/
def vxLat (fn : VxFn) : Nat :=
  match fn with
  | .div | .sqrt | .rcp => 24
  | .fma | .fnma => 10
  | .rsum | .rmax | .rmin | .csum | .cmax | .cmin => 14
  | f => if vxIsTrn f then 28 else 8

/-- Whether the B operand is read, under BM. -/
def vxReadsB (fn : VxFn) (f : VxOps) : Bool :=
  match vxShape fn with
  | .binary | .fma | .cmp | .sel => f.bm != 3
  | .mov => f.bm == 1 || f.bm == 2
  | _ => false
/-- Whether register VA is read. -/
def vxReadsA (fn : VxFn) (f : VxOps) : Bool :=
  match vxShape fn with
  | .maskFn | .mgen => false
  | .mov => f.bm == 0
  | _ => true
/-- Whether the destination is a mask. -/
def vxMaskDest (fn : VxFn) : Bool :=
  match vxShape fn with | .cmp | .maskFn | .mgen => true | _ => false

/-- The B fields of a function that has a B operand (R124): BIDX in range, unused fields 0. -/
def vxBOk (f : VxOps) : Bool :=
  match f.bm.toNat with
  | 0 => f.bidx == 0 && f.imm == 0
  | 1 => decide (f.bidx.toNat ≤ 15) && f.imm == 0
  | 2 => f.imm == 0
  | _ => f.vb == 0 && f.bidx == 0

/-- Illegal encodings of the common layout (R95, R113, R123-R125). -/
def vxIllegal (fn : VxFn) (f : VxOps) : Bool :=
  let noB := f.vb == 0 && f.bm == 0 && f.bidx == 0
  let shapeOk : Bool := match vxShape fn with
    | .unary => noB && (match fn with
        | .scale2 => decide (-320 ≤ f.imm.toInt) && decide (f.imm.toInt ≤ 320)
        | .itag => decide (f.imm.toNat ≤ 254)
        | _ => f.imm == 0)
    | .red => noB && f.imm == 0
    | .binary | .fma | .cmp => vxBOk f
    | .mov => if f.bm = 0 then noB && f.imm == 0 else f.va == 0 && vxBOk f
    | .sel => vxBOk f && !f.mz
    | .maskFn => decide (f.va.toNat ≤ 7) && decide (f.vb.toNat ≤ 7) && f.bm == 0 && f.bidx == 0 && f.imm == 0
    | .mgen => f.va == 0 && f.vb == 0 && f.bm == 3 && f.bidx == 0 && decide (f.imm.toNat < 2 ^ 12)
  !shapeOk || f.rsv != 0 || (vxShape fn != .fma && f.vc != 0) ||
    (vxMaskDest fn && (f.vd == 0 || decide (7 < f.vd.toNat)))

/-- Hazards on registers and masks (R116). -/
def vxHazard (fn : VxFn) (f : VxOps) (t : Nat) (c : Core) : Bool :=
  (vxReadsA fn f && c.vPending false f.va.toNat t) || (vxReadsB fn f && c.vPending false f.vb.toNat t) ||
  (vxShape fn == .fma && c.vPending false f.vc.toNat t) ||
  (vxShape fn == .maskFn && (c.vPending true f.va.toNat t || c.vPending true f.vb.toNat t)) ||
  c.vPending true f.msk.toNat t || c.vPending (vxMaskDest fn) f.vd.toNat t

/-- Lane `l` of the B operand (R124, BM). -/
def vxBAt (c : Core) (f : VxOps) (l : Nat) : W32 :=
  match f.bm.toNat with
  | 0 => (c.vreg f.vb.toNat).getD l 0
  | 1 => (c.vreg f.vb.toNat).getD (64 * f.bidx.toNat + l % 64) 0
  | 2 => (c.vreg f.vb.toNat).getD (64 * (l / 64) + f.bidx.toNat) 0
  | _ => f.imm
/-- The B operand by lane. -/
def vxB (c : Core) (f : VxOps) : List W32 := (List.range nLanes).map (vxBAt c f)

/-- The lane function of a unary or binary function (R125, R126); `tag` is the TAG of VA, which only I2F reads. -/
def vxLane (fn : VxFn) (it : Bool) (imm : W32) (tag : Nat) (a b c : W32) : LaneRes :=
  match fn with
  | .add => if it then intAdd a b else fpAdd a b
  | .sub => if it then intSub a b else fpSub a b
  | .mul => if it then intMul a b else fpMul a b
  | .min => if it then intMinMax false a b else fpMinMax false a b
  | .max => if it then intMinMax true a b else fpMinMax true a b
  | .abs => if it then intAbs a else fpAbs a
  | .neg => if it then intNeg a else fpNeg a
  | .div => fpDiv a b
  | .sqrt => fpSqrt a
  | .rcp => fpRcp a
  | .relu => fpRelu a
  | .scale2 => fpScale2 a imm.toInt
  | .and => (a &&& b, ({ } : VFlags))
  | .or => (a ||| b, ({ } : VFlags))
  | .xor => (a ^^^ b, ({ } : VFlags))
  | .shl => intShl a b
  | .shra => intShra a b
  | .shrl => intShrl a b
  | .fma => fpFma false a b c
  | .fnma => fpFma true a b c
  | .exp2 => trnLane .exp2 a
  | .exp => trnLane .exp a
  | .log2 => trnLane .log2 a
  | .ln => trnLane .ln a
  | .rsqrt => trnLane .rsqrt a
  | .tanh => trnLane .tanh a
  | .sigmoid => trnLane .sigmoid a
  | .erf => trnLane .erf a
  | .silu => trnLane .silu a
  | .gelu => trnLane .gelu a
  | .f2i => fpToInt a
  | .i2f => intToFp a tag
  | .mov | .itag | .sel | .mand | .mor | .mxor | .mandn | .mgen | .eq | .ne | .lt | .le | .gt | .ge | .unord
  | .rsum | .rmax | .rmin | .csum | .cmax | .cmin => (a, ({ } : VFlags))

/-- The reduction of a list of lanes (R127). -/
def vxReduce (fn : VxFn) (it : Bool) (l : List W32) : LaneRes :=
  match fn with
  | .rsum | .csum => if it then intSum l else fpSum l
  | .rmax | .cmax => if it then intExtreme true l else fpExtreme true l
  | _ => if it then intExtreme false l else fpExtreme false l
/-- Whether a reduction runs over rows. -/
def vxRowRed : VxFn → Bool
  | .rsum | .rmax | .rmin => true
  | _ => false
/-- The comparison of a CMP function. -/
def vxCmpFn : VxFn → CmpFn
  | .eq => .eq | .ne => .ne | .lt => .lt | .le => .le | .gt => .gt | .ge => .ge | _ => .unord

/-- The TAG a register destination takes (R112). -/
def vxTag (fn : VxFn) (f : VxOps) (c : Core) : Nat :=
  match fn with
  | .itag => f.imm.toNat % 256
  | .mov => if f.bm = 0 then c.vtag f.va.toNat else if f.bm = 3 then 127 else c.vtag f.vb.toNat
  | _ => 127

/-- Results and flags by lane, masked-off lanes raising none (R123). -/
def laneFlags (mask : Nat) (l : List LaneRes) : VFlags :=
  orFlags ((l.zipIdx.filter (fun x => bitAt mask x.2)).map (fun x => x.1.2))

/-- A reduction written to VD (R123, R127): results to column 0 or row 0, every other lane +0 whatever the mask. -/
def vxRed (fn : VxFn) (f : VxOps) (c : Core) : Core × VFlags :=
  let a := c.vreg f.va.toNat
  let m := c.mask f.msk.toNat
  let old := c.vreg f.vd.toNat
  let rows := vxRowRed fn
  let src (k : Nat) : List W32 :=
    let idx := if rows then (List.range 64).map (fun j => 64 * k + j) else (List.range 16).map (fun i => 64 * i + k)
    (idx.filter (fun l => bitAt m l)).map (fun l => a.getD l 0)
  let res := (List.range (if rows then 16 else 64)).map (fun k => (if rows then 64 * k else k, vxReduce fn f.it (src k)))
  let lanes := (List.range 1024).map (fun l =>
    match res.find? (fun x => x.1 == l) with
    | some x => if bitAt m l then x.2.1 else if f.mz then 0 else old.getD l 0
    | none => 0)
  let c1 := { c with vregs := Table.set zeroReg c.vregs f.vd.toNat lanes,
                     vtags := if m % 2 ^ 1024 = 0 ∧ ¬ f.mz then c.vtags else Table.set 127 c.vtags f.vd.toNat 127 }
  (c1, orFlags ((res.filter (fun x => bitAt m x.1)).map (fun x => x.2.2)))

/-- What a function of the common layout does to the core's registers, and the flags it raises. MANDN is VA AND NOT VB (PRESUMED: the
spec gives the name only; log 105). -/
def vxCompute (fn : VxFn) (f : VxOps) (c : Core) : Core × VFlags :=
  let m := c.mask f.msk.toNat
  let a := c.vreg f.va.toNat
  match vxShape fn with
  | .red => vxRed fn f c
  | .cmp =>
    let r := (List.range nLanes).map (fun l =>
      if f.it then intCmp (vxCmpFn fn) (a.getD l 0) (vxBAt c f l) else fpCmp (vxCmpFn fn) (a.getD l 0) (vxBAt c f l))
    (c.writeMask f.vd.toNat m f.mz (maskOf (r.map (·.1))),
     orFlags ((r.zipIdx.filter (fun x => bitAt m x.2)).map (fun x => x.1.2)))
  | .maskFn =>
    let x := c.mask f.va.toNat
    let y := c.mask f.vb.toNat
    let r := match fn with
      | .mand => Nat.land x y | .mor => Nat.lor x y | .mxor => Nat.xor x y | _ => Nat.land x (Nat.xor y allMask)
    (c.writeMask f.vd.toNat m f.mz r, ({ } : VFlags))
  | .mgen =>
    let r := (List.range 1024).map (fun l =>
      decide (l / 64 < bits f.imm.toNat 11 7) && decide (l % 64 < bits f.imm.toNat 6 0))
    (c.writeMask f.vd.toNat m f.mz (maskOf r), ({ } : VFlags))
  | .sel =>
    (c.writeReg f.vd.toNat allMask false (maskMerge m false (vxB c f) a) 127, ({ } : VFlags))
  | .mov =>
    (c.writeReg f.vd.toNat m f.mz (if f.bm = 0 then a else vxB c f) (vxTag fn f c), ({ } : VFlags))
  | _ =>
    let tag := c.vtag f.va.toNat
    let vc := c.vreg f.vc.toNat
    let r := (List.range nLanes).map (fun l => vxLane fn f.it f.imm tag (a.getD l 0) (vxBAt c f l) (vc.getD l 0))
    (c.writeReg f.vd.toNat m f.mz (r.map (·.1)) (vxTag fn f c), laneFlags m r)

/-- Finish a VX instruction that writes a register or a mask: flags, the pending write, the port and the queue. -/
def Core.vxDone (c : Core) (mask : Bool) (vd t occ lat w : Nat) (fl : VFlags) : Core :=
  ((c.raise t lat w fl).setPending mask vd t (t + lat)).issued .vx t (t + occ) (t + lat)

/-- A function of the common layout (R122): a fixed function of its operands. `res` says that the residue check of the
engine finds a mismatch in this instruction (VXE_RESIDUE). -/
def vxIssue (fn : VxFn) (t p : Nat) (f : VxOps) (res : Bool) (s : State) : Host.Outcome State Fault Refusal :=
  s.issue t p .vx (.vx fn f) (fun c => c.portFree.get .vx)
    (fun c => [(vxIllegal fn f, .illegalEncoding), (vxHazard fn f t c, .hazard), (res, .vxeResidue)])
    (fun _ _ => []) .ok
    (fun s w => s.modCore p (fun c =>
      let r := vxCompute fn f c
      r.1.vxDone (vxMaskDest fn) f.vd.toNat t (vxOcc fn) (vxLat fn) w r.2))

end Sys2Proof.Machine
end

