-- ==== Sys2Proof/Machine/Vx.lean ====
section
/-!
DEFINITION. The vector engine's instructions (04_vector_engine.md): the functions of the common layout (R125-R127), VX.RDA
(R128, R129), VX.QNT (R130, R131), VX.DQT (R132), VX.LD and VX.ST (R133).
-/
namespace Sys2Proof.Machine

/-! ### The common layout -/

/-- VX_ALU_ADD (R125). -/
def execVxAluAdd (t p : Nat) (f : VxOps) (res : Bool) (s : State) : Host.Outcome State Fault Refusal := vxIssue .add t p f res s
/-- VX_ALU_SUB (R125). -/
def execVxAluSub (t p : Nat) (f : VxOps) (res : Bool) (s : State) : Host.Outcome State Fault Refusal := vxIssue .sub t p f res s
/-- VX_ALU_MUL (R125). -/
def execVxAluMul (t p : Nat) (f : VxOps) (res : Bool) (s : State) : Host.Outcome State Fault Refusal := vxIssue .mul t p f res s
/-- VX_ALU_MIN (R125). -/
def execVxAluMin (t p : Nat) (f : VxOps) (res : Bool) (s : State) : Host.Outcome State Fault Refusal := vxIssue .min t p f res s
/-- VX_ALU_MAX (R125). -/
def execVxAluMax (t p : Nat) (f : VxOps) (res : Bool) (s : State) : Host.Outcome State Fault Refusal := vxIssue .max t p f res s
/-- VX_ALU_ABS (R125). -/
def execVxAluAbs (t p : Nat) (f : VxOps) (res : Bool) (s : State) : Host.Outcome State Fault Refusal := vxIssue .abs t p f res s
/-- VX_ALU_NEG (R125). -/
def execVxAluNeg (t p : Nat) (f : VxOps) (res : Bool) (s : State) : Host.Outcome State Fault Refusal := vxIssue .neg t p f res s
/-- VX_ALU_DIV (R125). -/
def execVxAluDiv (t p : Nat) (f : VxOps) (res : Bool) (s : State) : Host.Outcome State Fault Refusal := vxIssue .div t p f res s
/-- VX_ALU_SQRT (R125). -/
def execVxAluSqrt (t p : Nat) (f : VxOps) (res : Bool) (s : State) : Host.Outcome State Fault Refusal := vxIssue .sqrt t p f res s
/-- VX_ALU_RCP (R125). -/
def execVxAluRcp (t p : Nat) (f : VxOps) (res : Bool) (s : State) : Host.Outcome State Fault Refusal := vxIssue .rcp t p f res s
/-- VX_ALU_MOV (R125). -/
def execVxAluMov (t p : Nat) (f : VxOps) (res : Bool) (s : State) : Host.Outcome State Fault Refusal := vxIssue .mov t p f res s
/-- VX_ALU_RELU (R125). -/
def execVxAluRelu (t p : Nat) (f : VxOps) (res : Bool) (s : State) : Host.Outcome State Fault Refusal := vxIssue .relu t p f res s
/-- VX_ALU_SCALE2 (R125). -/
def execVxAluScale2 (t p : Nat) (f : VxOps) (res : Bool) (s : State) : Host.Outcome State Fault Refusal := vxIssue .scale2 t p f res s
/-- VX_ALU_AND (R125). -/
def execVxAluAnd (t p : Nat) (f : VxOps) (res : Bool) (s : State) : Host.Outcome State Fault Refusal := vxIssue .and t p f res s
/-- VX_ALU_OR (R125). -/
def execVxAluOr (t p : Nat) (f : VxOps) (res : Bool) (s : State) : Host.Outcome State Fault Refusal := vxIssue .or t p f res s
/-- VX_ALU_XOR (R125). -/
def execVxAluXor (t p : Nat) (f : VxOps) (res : Bool) (s : State) : Host.Outcome State Fault Refusal := vxIssue .xor t p f res s
/-- VX_ALU_SHL (R125). -/
def execVxAluShl (t p : Nat) (f : VxOps) (res : Bool) (s : State) : Host.Outcome State Fault Refusal := vxIssue .shl t p f res s
/-- VX_ALU_SHRA (R125). -/
def execVxAluShra (t p : Nat) (f : VxOps) (res : Bool) (s : State) : Host.Outcome State Fault Refusal := vxIssue .shra t p f res s
/-- VX_ALU_SHRL (R125). -/
def execVxAluShrl (t p : Nat) (f : VxOps) (res : Bool) (s : State) : Host.Outcome State Fault Refusal := vxIssue .shrl t p f res s
/-- VX_FMA (R125). -/
def execVxFma (t p : Nat) (f : VxOps) (res : Bool) (s : State) : Host.Outcome State Fault Refusal := vxIssue .fma t p f res s
/-- VX_FMA_NEGATED (R125). -/
def execVxFmaNegated (t p : Nat) (f : VxOps) (res : Bool) (s : State) : Host.Outcome State Fault Refusal := vxIssue .fnma t p f res s
/-- VX_TRN_EXP2 (R125). -/
def execVxTrnExp2 (t p : Nat) (f : VxOps) (res : Bool) (s : State) : Host.Outcome State Fault Refusal := vxIssue .exp2 t p f res s
/-- VX_TRN_EXP (R125). -/
def execVxTrnExp (t p : Nat) (f : VxOps) (res : Bool) (s : State) : Host.Outcome State Fault Refusal := vxIssue .exp t p f res s
/-- VX_TRN_LOG2 (R125). -/
def execVxTrnLog2 (t p : Nat) (f : VxOps) (res : Bool) (s : State) : Host.Outcome State Fault Refusal := vxIssue .log2 t p f res s
/-- VX_TRN_LN (R125). -/
def execVxTrnLn (t p : Nat) (f : VxOps) (res : Bool) (s : State) : Host.Outcome State Fault Refusal := vxIssue .ln t p f res s
/-- VX_TRN_RSQRT (R125). -/
def execVxTrnRsqrt (t p : Nat) (f : VxOps) (res : Bool) (s : State) : Host.Outcome State Fault Refusal := vxIssue .rsqrt t p f res s
/-- VX_TRN_TANH (R125). -/
def execVxTrnTanh (t p : Nat) (f : VxOps) (res : Bool) (s : State) : Host.Outcome State Fault Refusal := vxIssue .tanh t p f res s
/-- VX_TRN_SIGMOID (R125). -/
def execVxTrnSigmoid (t p : Nat) (f : VxOps) (res : Bool) (s : State) : Host.Outcome State Fault Refusal := vxIssue .sigmoid t p f res s
/-- VX_TRN_ERF (R125). -/
def execVxTrnErf (t p : Nat) (f : VxOps) (res : Bool) (s : State) : Host.Outcome State Fault Refusal := vxIssue .erf t p f res s
/-- VX_TRN_SILU (R125). -/
def execVxTrnSilu (t p : Nat) (f : VxOps) (res : Bool) (s : State) : Host.Outcome State Fault Refusal := vxIssue .silu t p f res s
/-- VX_TRN_GELU (R125). -/
def execVxTrnGelu (t p : Nat) (f : VxOps) (res : Bool) (s : State) : Host.Outcome State Fault Refusal := vxIssue .gelu t p f res s
/-- VX_RED_RSUM (R125). -/
def execVxRedRsum (t p : Nat) (f : VxOps) (res : Bool) (s : State) : Host.Outcome State Fault Refusal := vxIssue .rsum t p f res s
/-- VX_RED_RMAX (R125). -/
def execVxRedRmax (t p : Nat) (f : VxOps) (res : Bool) (s : State) : Host.Outcome State Fault Refusal := vxIssue .rmax t p f res s
/-- VX_RED_RMIN (R125). -/
def execVxRedRmin (t p : Nat) (f : VxOps) (res : Bool) (s : State) : Host.Outcome State Fault Refusal := vxIssue .rmin t p f res s
/-- VX_RED_CSUM (R125). -/
def execVxRedCsum (t p : Nat) (f : VxOps) (res : Bool) (s : State) : Host.Outcome State Fault Refusal := vxIssue .csum t p f res s
/-- VX_RED_CMAX (R125). -/
def execVxRedCmax (t p : Nat) (f : VxOps) (res : Bool) (s : State) : Host.Outcome State Fault Refusal := vxIssue .cmax t p f res s
/-- VX_RED_CMIN (R125). -/
def execVxRedCmin (t p : Nat) (f : VxOps) (res : Bool) (s : State) : Host.Outcome State Fault Refusal := vxIssue .cmin t p f res s
/-- VX_CMP_EQ (R125). -/
def execVxCmpEq (t p : Nat) (f : VxOps) (res : Bool) (s : State) : Host.Outcome State Fault Refusal := vxIssue .eq t p f res s
/-- VX_CMP_NE (R125). -/
def execVxCmpNe (t p : Nat) (f : VxOps) (res : Bool) (s : State) : Host.Outcome State Fault Refusal := vxIssue .ne t p f res s
/-- VX_CMP_LT (R125). -/
def execVxCmpLt (t p : Nat) (f : VxOps) (res : Bool) (s : State) : Host.Outcome State Fault Refusal := vxIssue .lt t p f res s
/-- VX_CMP_LE (R125). -/
def execVxCmpLe (t p : Nat) (f : VxOps) (res : Bool) (s : State) : Host.Outcome State Fault Refusal := vxIssue .le t p f res s
/-- VX_CMP_GT (R125). -/
def execVxCmpGt (t p : Nat) (f : VxOps) (res : Bool) (s : State) : Host.Outcome State Fault Refusal := vxIssue .gt t p f res s
/-- VX_CMP_GE (R125). -/
def execVxCmpGe (t p : Nat) (f : VxOps) (res : Bool) (s : State) : Host.Outcome State Fault Refusal := vxIssue .ge t p f res s
/-- VX_CMP_UNORD (R125). -/
def execVxCmpUnord (t p : Nat) (f : VxOps) (res : Bool) (s : State) : Host.Outcome State Fault Refusal := vxIssue .unord t p f res s
/-- VX_CMP_MAND (R125). -/
def execVxCmpMand (t p : Nat) (f : VxOps) (res : Bool) (s : State) : Host.Outcome State Fault Refusal := vxIssue .mand t p f res s
/-- VX_CMP_MOR (R125). -/
def execVxCmpMor (t p : Nat) (f : VxOps) (res : Bool) (s : State) : Host.Outcome State Fault Refusal := vxIssue .mor t p f res s
/-- VX_CMP_MXOR (R125). -/
def execVxCmpMxor (t p : Nat) (f : VxOps) (res : Bool) (s : State) : Host.Outcome State Fault Refusal := vxIssue .mxor t p f res s
/-- VX_CMP_MANDN (R125). -/
def execVxCmpMandn (t p : Nat) (f : VxOps) (res : Bool) (s : State) : Host.Outcome State Fault Refusal := vxIssue .mandn t p f res s
/-- VX_CMP_MGEN (R125). -/
def execVxCmpMgen (t p : Nat) (f : VxOps) (res : Bool) (s : State) : Host.Outcome State Fault Refusal := vxIssue .mgen t p f res s
/-- VX_SEL (R125). -/
def execVxSel (t p : Nat) (f : VxOps) (res : Bool) (s : State) : Host.Outcome State Fault Refusal := vxIssue .sel t p f res s
/-- VX_CVT_F2I (R125). -/
def execVxCvtF2i (t p : Nat) (f : VxOps) (res : Bool) (s : State) : Host.Outcome State Fault Refusal := vxIssue .f2i t p f res s
/-- VX_CVT_I2F (R125). -/
def execVxCvtI2f (t p : Nat) (f : VxOps) (res : Bool) (s : State) : Host.Outcome State Fault Refusal := vxIssue .i2f t p f res s
/-- VX_CVT_ITAG (R125). -/
def execVxCvtItag (t p : Nat) (f : VxOps) (res : Bool) (s : State) : Host.Outcome State Fault Refusal := vxIssue .itag t p f res s

/-! ### VX.RDA -/

/-- Illegal encodings of VX.RDA (R72, R128). -/
def rdaIllegal (c : Core) (f : VxRda) : Bool :=
  let isInt := f.fmto == 7
  (f.fmto != 6 && f.fmto != 7) || isInt != (c.tile f.acc.toNat).intOp ||
  (if isInt then f.ostep == 0 else f.ostep != 0) || f.rsv != 0

/-- The values of the block (R128). -/
def rdaVals (c : Core) (f : VxRda) : List Int :=
  (List.range 16).flatMap (fun i => (List.range 64).map (fun j =>
    c.slotVal f.acc.toNat (16 * f.rb.toNat + i) (64 * b2n f.ch + j)))

/-- The conversion of a block (R69, R70, R72, R73): final shift, saturation replays, lanes with their flags, OSAT. The whole
block is converted whatever the mask, which never changes timing (R115, R123). -/
def rdaConvert (c : Core) (f : VxRda) : Option (Int × Nat × List LaneRes × Bool) :=
  let tl := c.tile f.acc.toNat
  let osh := sfield f.osh
  if f.fmto = 7 then
    match satSearch (rdaVals c f) tl.anchor f.ostep.toNat tl.rmax osh 0 with
    | none => none
    | some (o, k, r) =>
      some (o, k, (r.zip (rdaVals c f)).map (fun x =>
        (BitVec.ofInt 32 x.1, ({ pe := !(scaleExact x.2.natAbs 1 (tl.anchor - o) 0) } : VFlags))), tl.osat)
  else
    let one (v : Int) : LaneRes × Bool :=
      let w := fmtFP32.writeOut v 1 (tl.anchor - osh)
      let r := fmtFP32.round v.natAbs 1 (tl.anchor - osh)
      ((BitVec.ofNat 32 w.1, ({ ovf := w.2, pe := w.2 || r.inexact, uf := r.inexact && r.tiny } : VFlags)), w.2)
    let l := (rdaVals c f).map one
    some (osh, 0, l.map (·.1), l.any (·.2))

/-- The checks of VX.RDA (R109, R116). -/
def rdaChecks (t : Nat) (f : VxRda) (res : Bool) (c : Core) : List (Bool × Cause) :=
  let tl := c.tile f.acc.toNat
  [(rdaIllegal c f, .illegalEncoding),
   (!tl.done || decide (t < tl.inFlight) || c.vPending true f.msk.toNat t || c.vPending false f.vd.toNat t, .hazard),
   ((rdaConvert c f).isNone, .satExhausted),
   (res, .vxeResidue)]

/-- VX.RDA as a write-out: lanes, TAG 127 + OSH, the tile's OSH, SAT_REPLAYS and OSAT, and the histogram (R128, R129). The histogram counts
the unmasked lanes, each once, at the final OSH (DESIGN CHOICE: log 104). -/
def rdaEffect (t w : Nat) (f : VxRda) (c : Core) : Core :=
  match rdaConvert c f with
  | none => c
  | some (osh, k, lanes, osat) =>
    let m := c.mask f.msk.toNat
    let tl := c.tile f.acc.toNat
    let tag := if f.fmto = 7 then (127 + osh).toNat else 127
    let c1 := c.writeReg f.vd.toNat m f.mz (lanes.map (·.1)) tag
    let c2 := c1.setTile f.acc.toNat { tl with osh := osh, satReplays := k, osat := osat,
                                               rdaFlight := max tl.rdaFlight (t + 10 + 4 * k) }
    let c3 := if hgEnabled c2.hgctl && !c2.hgctl.getLsbD 2 then
      c2.histCount t (((rdaVals c f).zipIdx.filter (fun x => bitAt m x.2)).map (fun x => ⟨x.1, tl.anchor - osh⟩)) else c2
    c3.vxDone false f.vd.toNat t (4 + 4 * k) (10 + 4 * k) w (laneFlags m lanes)

/-- Saturation replays of a block. -/
def rdaReplays (c : Core) (f : VxRda) : Nat := match rdaConvert c f with | some (_, k, _, _) => k | none => 0

/-- VX.RDA (R128). -/
def execVxRda (t p : Nat) (f : VxRda) (res : Bool) (s : State) : Host.Outcome State Fault Refusal :=
  s.issue t p .vx (.vxRda f) (fun c => c.portFree.get .vx) (rdaChecks t f res) (fun _ _ => []) .ok
    (fun s w =>
      let k := rdaReplays (s.core p) f
      let s1 := s.modCore p (rdaEffect t w f)
      if k = 0 then s1
      else (s1.modCmd (s.taskRef p) (fun d => { d with srepl := min (d.srepl + k) 15 })).recordReason (s.taskRef p) 0x01)

/-! ### VX.QNT -/

/-- The largest finite magnitude F of a quantized format (R131). -/
def qntMax (fmt : Nat) : Nat :=
  match fmt with | 0 => 127 | 1 => 7 | 2 => 448 | 3 => 57344 | _ => 6
/-- Columns quantized per row. -/
def qntCols (f : VxQnt) : Nat := if f.gsz = 2 then 128 else 64
/-- Byte address of output row 0, the row stride, bytes per row, groups per row. -/
def qntBase (f : VxQnt) : Nat := f.daddr.toNat * 128
def qntStride (f : VxQnt) : Nat := f.dstr.toNat * 64
def qntRow (f : VxQnt) : Nat := rowBytes f.fmtq.toNat (qntCols f)
def qntGroups (f : VxQnt) : Nat := qntCols f / groupSize f.gsz.toNat

/-- Illegal encodings of VX.QNT (R130). -/
def qntIllegal (f : VxQnt) : Bool :=
  decide (4 < f.fmtq.toNat) || f.scl == 3 || f.gsz == 3 || (f.gsz == 2 && f.va == 31) || f.tsc == 255 || f.floor == 255 ||
  (f.scl == 2 && (decide (f.floor.toNat < 113) || decide (142 < f.floor.toNat))) ||
  (f.scl == 0 && f.saddr != 0) || f.rsv != 0 ||
  !(oneBank (qntBase f) (extent 16 (qntRow f) (qntStride f))) ||
  (f.scl != 0 && !(oneBank f.saddr.toNat (extent 16 (qntGroups f * scaleBytes f.scl.toNat) f.sstr.toNat)))

/-- Row `i` of the source: each lane with its mask bit; VA + 1 is governed by the same mask bits (R130). -/
def qntLanes (c : Core) (f : VxQnt) (i : Nat) : List (W32 × Bool) :=
  let m := c.mask f.msk.toNat
  let row (r : Nat) : List (W32 × Bool) :=
    (((c.vreg r).drop (64 * i)).take 64).zipIdx.map (fun x => (x.1, bitAt m (64 * i + x.2)))
  row f.va.toNat ++ (if f.gsz = 2 then row (f.va.toNat + 1) else [])

/-- Exact value of a lane; a masked lane counts as 0; none for an unmasked NaN or infinity (R131). -/
def qntValue (x : W32 × Bool) : Option Dy :=
  if x.2 then (match fp32 x.1 with | .num _ v => some v | _ => none) else some Dy.zero

/-- All inputs by row. -/
def qntInputs (c : Core) (f : VxQnt) : Option (List (List Dy)) :=
  allSome ((List.range 16).map (fun i => allSome ((qntLanes c f i).map qntValue)))

/-- The largest magnitude of a list. -/
def dyMax (l : List Dy) : Dy := l.foldl (fun a x => if Dy.lt a x.abs then x.abs else a) Dy.zero

/-- An FP16 magnitude of n / d × 2^e rounded toward +infinity, at most 65,504 (R131). -/
def fp16Up (n d : Nat) (e : Int) : Dy :=
  if n = 0 then Dy.zero
  else
    let q := max (ilog2 n d e) (-14) - 10
    let u := scaleFloor n d e q + (if scaleExact n d e q then 0 else 1)
    if Dy.lt ⟨65504, 0⟩ ⟨u, q⟩ then ⟨65504, 0⟩ else ⟨u, q⟩

/-- The scale of a group (R131): its exact value and the code written. -/
def groupScale (scl floor bigF : Nat) (amax : Dy) : Dy × Nat :=
  if scl = 1 then
    let e := ((List.range (255 - floor)).map (fun i => floor + i)).find? (fun (e : Nat) => Dy.le amax ⟨bigF, (e : Int) - 127⟩)
    let e := e.getD 254
    (⟨1, (e : Int) - 127⟩, e)
  else if scl = 2 then
    let s0 := fp16Up amax.m.natAbs bigF amax.e
    let fl : Dy := ⟨1, (floor : Int) - 127⟩
    let s := if Dy.lt s0 fl then fl else s0
    (s, (fmtFP16.round s.m.natAbs 1 s.e).code)
  else (⟨1, 0⟩, 0)

/-- Element of a group (R131): x / (t × s) rounded once, clamped at ±F. -/
def quantElem (fmt : Nat) (t : Int) (s x : Dy) : Nat × VFlags :=
  let e := x.e - s.e - t
  let neg := decide (x.m < 0)
  let w := fmtWidth fmt
  match fpFmtOf fmt with
  | some ff =>
    let r := ff.round x.m.natAbs s.m.natAbs e
    if r.overflow then (ff.signed neg ff.maxCode, ({ ovf := true, pe := true } : VFlags))
    else (if r.code = 0 then 0 else ff.signed neg r.code, ({ pe := r.inexact, uf := r.inexact && r.tiny } : VFlags))
  | none =>
    let q := scaleRound x.m.natAbs s.m.natAbs e 0
    let big := decide (qntMax fmt < q)
    let v : Nat := if big then qntMax fmt else q
    ((if neg then (2 ^ w - v) % 2 ^ w else v),
     ({ ovf := big, pe := big || !(scaleExact x.m.natAbs s.m.natAbs e 0) } : VFlags))

/-- One group quantized: the scale code, and the element codes with their flags (R131). -/
def quantGroup (f : VxQnt) (xs : List Dy) : Nat × List (Nat × VFlags) :=
  let t : Int := (f.tsc.toNat : Int) - 127
  let amax := (dyMax xs).scale2 (-t)
  let s := groupScale f.scl.toNat f.floor.toNat (qntMax f.fmtq.toNat) amax
  (s.2, xs.map (fun x => quantElem f.fmtq.toNat t s.1 x))

/-- Split a row into groups. -/
def groupsOf (g : Nat) (l : List Dy) : List (List Dy) :=
  (List.range (l.length / g)).map (fun i => (l.drop (i * g)).take g)

/-- Hazards of VX.QNT (R116). -/
def qntHazard (f : VxQnt) (t : Nat) (c : Core) : Bool :=
  c.vPending false f.va.toNat t || (f.gsz == 2 && c.vPending false (f.va.toNat + 1) t) || c.vPending true f.msk.toNat t

/-- The checks of VX.QNT (R116, R130, R131). -/
def qntChecks (t : Nat) (f : VxQnt) (res : Bool) (c : Core) : List (Bool × Cause) :=
  [(qntIllegal f, .illegalEncoding), (qntHazard f t c, .hazard), ((qntInputs c f).isNone, .invalidOperand),
   (c.inCacheUnit (qntBase f) (extent 16 (qntRow f) (qntStride f)) ||
     (f.scl != 0 && c.inCacheUnit f.saddr.toNat (extent 16 (qntGroups f * scaleBytes f.scl.toNat) f.sstr.toNat)),
    .cacheUnitAccess),
   (res, .vxeResidue)]

/-- Occupancy of VX.QNT; the SPM is written 12 CCLK after the occupancy (R115). -/
def qntOcc (f : VxQnt) : Nat := if f.gsz = 2 then 16 else 8

/-- Load/store and scale port accesses (R116, R148). -/
def qntAccesses (t : Nat) (f : VxQnt) (_ : Core) (w : Nat) : List Access :=
  accessRun .vxLoadStore .vx (qntBase f) t (qntOcc f) 1 t w ::
  (if f.scl = 0 then [] else [accessRun .vxScale .vx f.saddr.toNat t (qntOcc f) 1 t w])

/-- What a VX.QNT writes (R55, R131): the quantized rows, and the rows of their scales. -/
def qntActs (f : VxQnt) (q : List (List (Nat × List (Nat × VFlags)))) : List SpmAct :=
  q.zipIdx.map (fun r => .bytes (qntBase f + r.2 * qntStride f) (packRow (fmtWidth f.fmtq.toNat) (r.1.flatMap (fun g => g.2.map (·.1))))) ++
  (if f.scl = 0 then [] else q.zipIdx.map (fun r =>
    .bytes (f.saddr.toNat + r.2 * f.sstr.toNat) (r.1.flatMap (fun g => leBytes (scaleBytes f.scl.toNat) g.1))))

/-- Elements and scales in the SPM at issue + 20 or + 28 (R115), flags, and the histogram's quantize inputs (R131). -/
def qntEffect (t w : Nat) (f : VxQnt) (c : Core) : Core :=
  match qntInputs c f with
  | none => c
  | some rows =>
    let q := rows.map (fun r => (groupsOf (groupSize f.gsz.toNat) r).map (quantGroup f))
    let c2 := c.addDue .vx t [(t + qntOcc f + 12, qntActs f q)]
    let masks := (List.range 16).map (fun i => (qntLanes c f i).map (·.2))
    let fl := orFlags (((q.map (fun r => r.flatMap (fun g => g.2.map (·.2)))).zip masks).flatMap (fun x =>
      (x.1.zip x.2).map (fun y => if y.2 then y.1 else ({ } : VFlags))))
    let seen := ((rows.zip masks).flatMap (fun x => (x.1.zip x.2).filter (·.2))).map (·.1)
    let c3 := if hgEnabled c2.hgctl && c2.hgctl.getLsbD 2 then c2.histCount t seen else c2
    (c3.raise t (qntOcc f + 12) w fl).issued .vx t (t + qntOcc f) (t + qntOcc f + 12)

/-- VX.QNT (R130). -/
def execVxQnt (t p : Nat) (f : VxQnt) (res : Bool) (s : State) : Host.Outcome State Fault Refusal :=
  s.issue t p .vx (.vxQnt f) (fun c => c.portFree.get .vx) (qntChecks t f res) (qntAccesses t f) .ok
    (fun s w => s.modCore p (qntEffect t w f))

/-! ### VX.DQT -/

/-- Byte address of element row 0, row stride and bytes per row. -/
def dqtBase (f : VxDqt) : Nat := f.aaddr.toNat * 128
def dqtStride (f : VxDqt) : Nat := f.astr.toNat * 64
def dqtRow (f : VxDqt) : Nat := rowBytes f.fmtq.toNat 64
/-- Bytes a scale row spans from its first scale. -/
def dqtScaleRow (f : VxDqt) : Nat := ((64 * b2n f.goff + 63) / groupSize f.gsz.toNat + 1) * scaleBytes f.scl.toNat
/-- Extent of the scales: the tile scale byte, or 16 scale rows. -/
def dqtScaleExtent (f : VxDqt) : Nat := if f.fmtq = 7 then 1 else extent 16 (dqtScaleRow f) f.sstr.toNat

/-- Illegal encodings of VX.DQT (R132). -/
def dqtIllegal (f : VxDqt) : Bool :=
  (decide (4 < f.fmtq.toNat) && f.fmtq != 7) || f.scl == 3 || f.gsz == 3 || f.rsv != 0 ||
  (f.fmtq == 7 && (f.scl != 0 || f.gsz != 0 || f.sstr != 0)) ||
  !(oneBank (dqtBase f) (extent 16 (dqtRow f) (dqtStride f))) ||
  ((f.scl != 0 || f.fmtq == 7) && !(oneBank f.saddr.toNat (dqtScaleExtent f)))

/-- The exact value of lane (i, j): element × group scale × tensor scale; none for an invalid code (R51, R132). -/
def dqtValue (c : Core) (f : VxDqt) (l : Nat) : Option Dy :=
  let i := l / 64
  let j := l % 64
  let el := elemValue f.fmtq.toNat (c.elem f.fmtq.toNat (dqtBase f + i * dqtStride f) j)
  let sc := if f.fmtq = 7 then e8m0 (c.spm.read f.saddr.toNat).toNat
    else c.scaleAt f.scl.toNat (f.saddr.toNat + i * f.sstr.toNat) ((64 * b2n f.goff + j) / groupSize f.gsz.toNat)
  match el, sc, e8m0 f.tsc.toNat with
  | some v, some s, some ts => some ((v.mul s).mul ts)
  | _, _, _ => none

/-- The lanes converted; a masked-off lane computes nothing (R123). -/
def dqtLanes (c : Core) (f : VxDqt) : Option (List LaneRes) :=
  let m := c.mask f.msk.toNat
  allSome ((List.range 1024).map (fun l =>
    if bitAt m l then (dqtValue c f l).map (fun v => rounded v.m 1 v.e) else some (0, ({ } : VFlags))))

/-- The checks of VX.DQT. -/
def dqtChecks (t : Nat) (f : VxDqt) (res : Bool) (c : Core) : List (Bool × Cause) :=
  [(dqtIllegal f, .illegalEncoding),
   (c.vPending false f.vd.toNat t || c.vPending true f.msk.toNat t, .hazard),
   ((dqtLanes c f).isNone, .invalidOperand),
   (c.inCacheUnit (dqtBase f) (extent 16 (dqtRow f) (dqtStride f)) ||
     ((f.scl != 0 || f.fmtq == 7) && c.inCacheUnit f.saddr.toNat (dqtScaleExtent f)), .cacheUnitAccess),
   (c.lostRead (dqtBase f) (extent 16 (dqtRow f) (dqtStride f)) ||
     ((f.scl != 0 || f.fmtq == 7) && c.lostRead f.saddr.toNat (dqtScaleExtent f)), .uncorrectable),
   (res, .vxeResidue)]

/-- Its port accesses (R115, R148). -/
def dqtAccesses (t : Nat) (f : VxDqt) (_ : Core) (w : Nat) : List Access :=
  accessRun .vxLoadStore .vx (dqtBase f) t 8 1 t w ::
  (if f.scl = 0 ∧ f.fmtq ≠ 7 then [] else [accessRun .vxScale .vx f.saddr.toNat t 8 1 t w])

/-- VX.DQT (R132). -/
def execVxDqt (t p : Nat) (f : VxDqt) (ecc : Ecc) (res : Bool) (s : State) : Host.Outcome State Fault Refusal :=
  s.issue t p .vx (.vxDqt f) (fun c => c.portFree.get .vx) (dqtChecks t f res) (dqtAccesses t f) ecc
    (fun s w => s.modCore p (fun c =>
      match dqtLanes c f with
      | none => c
      | some r =>
        let m := c.mask f.msk.toNat
        (c.writeReg f.vd.toNat m f.mz (r.map (·.1)) 127).vxDone false f.vd.toNat t 8 16 w (laneFlags m r)))

/-! ### VX.LD and VX.ST -/

/-- Byte address of row 0, row stride, bytes per element. -/
def lsBase (f : VxLs) : Nat := f.addr.toNat * 128
def lsStride (f : VxLs) : Nat := f.str.toNat * 64
def lsElem (f : VxLs) : Nat := if f.fmt = 5 then 2 else 4

/-- Illegal encodings of VX.LD and VX.ST (R133). -/
def lsIllegal (f : VxLs) : Bool :=
  decide (f.fmt.toNat < 5) || decide (7 < f.fmt.toNat) || decide (lsStride f < 64 * lsElem f) || f.rsv != 0 ||
  !(oneBank (lsBase f) (extent 16 (64 * lsElem f) (lsStride f)))

/-- Occupancy: 512 B per CCLK (R115, R116). -/
def lsOcc (f : VxLs) : Nat := if f.fmt = 5 then 4 else 8

/-- The load/store port. -/
def lsAccesses (t : Nat) (f : VxLs) (_ : Core) (w : Nat) : List Access := [accessRun .vxLoadStore .vx (lsBase f) t (lsOcc f) 1 t w]

/-- The lanes a VX.LD reads: BF16 widened exactly. -/
def ldLanes (c : Core) (f : VxLs) : List W32 :=
  (List.range 1024).map (fun l =>
    let v := c.spm.readNat (lsBase f + l / 64 * lsStride f + l % 64 * lsElem f) (lsElem f)
    if f.fmt = 5 then bf16ToFp32 v else BitVec.ofNat 32 v)

/-- VX.LD (R133). -/
def execVxLd (t p : Nat) (f : VxLs) (ecc : Ecc) (res : Bool) (s : State) : Host.Outcome State Fault Refusal :=
  s.issue t p .vx (.vxLd f) (fun c => c.portFree.get .vx)
    (fun c => [(lsIllegal f, .illegalEncoding),
      (c.vPending false f.vr.toNat t || c.vPending true f.msk.toNat t, .hazard),
      (c.inCacheUnit (lsBase f) (extent 16 (64 * lsElem f) (lsStride f)), .cacheUnitAccess),
      (c.lostRead (lsBase f) (extent 16 (64 * lsElem f) (lsStride f)), .uncorrectable), (res, .vxeResidue)])
    (lsAccesses t f) ecc
    (fun s w => s.modCore p (fun c =>
      (c.writeReg f.vr.toNat (c.mask f.msk.toNat) f.mz (ldLanes c f) 127).vxDone false f.vr.toNat t (lsOcc f)
        (if f.fmt = 5 then 12 else 16) w {}))

/-- The element a VX.ST writes for a lane, and its flags: BF16 by rounding (R133). -/
def stElem (f : VxLs) (x : W32) : Nat × VFlags := if f.fmt = 5 then fp32ToBf16 x else (x.toNat, ({ } : VFlags))

/-- Issue to SPM of a VX.ST (R115). -/
def stLat (f : VxLs) : Nat := if f.fmt = 5 then 8 else 12

/-- The elements a VX.ST stores: an unmasked lane's; a masked-off element is left unchanged (R123). -/
def stElems (f : VxLs) (c : Core) : List (Nat × Nat × VFlags) :=
  ((List.range nLanes).filter (fun l => bitAt (c.mask f.msk.toNat) l)).map (fun l => (l, stElem f ((c.vreg f.vr.toNat).getD l 0)))

/-- Their bytes. -/
def stActs (f : VxLs) (els : List (Nat × Nat × VFlags)) : List SpmAct :=
  els.map (fun e => .bytes (lsBase f + e.1 / 64 * lsStride f + e.1 % 64 * lsElem f) (leBytes (lsElem f) e.2.1))

/-- The store, in the SPM at issue + 12 or + 8 (R115), and its flags. -/
def stEffect (t w : Nat) (f : VxLs) (c : Core) : Core :=
  let els := stElems f c
  ((c.addDue .vx t [(t + stLat f, stActs f els)]).raise t (stLat f) w (orFlags (els.map (fun e => e.2.2)))).issued .vx t (t + lsOcc f)
    (t + stLat f)

/-- VX.ST (R133). -/
def execVxSt (t p : Nat) (f : VxLs) (res : Bool) (s : State) : Host.Outcome State Fault Refusal :=
  s.issue t p .vx (.vxSt f) (fun c => c.portFree.get .vx)
    (fun c => [(lsIllegal f || f.mz, .illegalEncoding),
      (c.vPending false f.vr.toNat t || c.vPending true f.msk.toNat t, .hazard),
      (c.inCacheUnit (lsBase f) (extent 16 (64 * lsElem f) (lsStride f)), .cacheUnitAccess), (res, .vxeResidue)])
    (lsAccesses t f) .ok
    (fun s w => s.modCore p (stEffect t w f))

end Sys2Proof.Machine
end

