-- ==== Sys2Proof/Machine/Dispatch.lean ====
section
/-!
DEFINITION. Each command's meaning: one arm per constructor, one direct call.
-/
namespace Sys2Proof.Machine

def exec (i : Instr) (s : State) : Host.Outcome State Fault Refusal :=
  match i with
  | .instructionFetch t p ecc => Sys2Proof.Machine.execInstructionFetch t p ecc s
  | .instructionDispatch t p => Sys2Proof.Machine.execInstructionDispatch t p s
  | .syGate t p f => Sys2Proof.Machine.execSyGate t p f s
  | .gateOpen t p q => Sys2Proof.Machine.execGateOpen t p q s
  | .syWaitc t p f => Sys2Proof.Machine.execSyWaitc t p f s
  | .arrivalTimeout t p => Sys2Proof.Machine.execArrivalTimeout t p s
  | .mxLdw t p f ecc => Sys2Proof.Machine.execMxLdw t p f ecc s
  | .mxMul t p f ecc ups => Sys2Proof.Machine.execMxMul t p f ecc ups s
  | .operationJudgement t p e => Sys2Proof.Machine.execOperationJudgement t p e s
  | .mxWo t p f => Sys2Proof.Machine.execMxWo t p f s
  | .mvMul t p f ecc ups => Sys2Proof.Machine.execMvMul t p f ecc ups s
  | .vxAluAdd t p f res => Sys2Proof.Machine.execVxAluAdd t p f res s
  | .vxAluSub t p f res => Sys2Proof.Machine.execVxAluSub t p f res s
  | .vxAluMul t p f res => Sys2Proof.Machine.execVxAluMul t p f res s
  | .vxAluMin t p f res => Sys2Proof.Machine.execVxAluMin t p f res s
  | .vxAluMax t p f res => Sys2Proof.Machine.execVxAluMax t p f res s
  | .vxAluAbs t p f res => Sys2Proof.Machine.execVxAluAbs t p f res s
  | .vxAluNeg t p f res => Sys2Proof.Machine.execVxAluNeg t p f res s
  | .vxAluDiv t p f res => Sys2Proof.Machine.execVxAluDiv t p f res s
  | .vxAluSqrt t p f res => Sys2Proof.Machine.execVxAluSqrt t p f res s
  | .vxAluRcp t p f res => Sys2Proof.Machine.execVxAluRcp t p f res s
  | .vxAluMov t p f res => Sys2Proof.Machine.execVxAluMov t p f res s
  | .vxAluRelu t p f res => Sys2Proof.Machine.execVxAluRelu t p f res s
  | .vxAluScale2 t p f res => Sys2Proof.Machine.execVxAluScale2 t p f res s
  | .vxAluAnd t p f res => Sys2Proof.Machine.execVxAluAnd t p f res s
  | .vxAluOr t p f res => Sys2Proof.Machine.execVxAluOr t p f res s
  | .vxAluXor t p f res => Sys2Proof.Machine.execVxAluXor t p f res s
  | .vxAluShl t p f res => Sys2Proof.Machine.execVxAluShl t p f res s
  | .vxAluShra t p f res => Sys2Proof.Machine.execVxAluShra t p f res s
  | .vxAluShrl t p f res => Sys2Proof.Machine.execVxAluShrl t p f res s
  | .vxFma t p f res => Sys2Proof.Machine.execVxFma t p f res s
  | .vxFmaNegated t p f res => Sys2Proof.Machine.execVxFmaNegated t p f res s
  | .vxTrnExp2 t p f res => Sys2Proof.Machine.execVxTrnExp2 t p f res s
  | .vxTrnExp t p f res => Sys2Proof.Machine.execVxTrnExp t p f res s
  | .vxTrnLog2 t p f res => Sys2Proof.Machine.execVxTrnLog2 t p f res s
  | .vxTrnLn t p f res => Sys2Proof.Machine.execVxTrnLn t p f res s
  | .vxTrnRsqrt t p f res => Sys2Proof.Machine.execVxTrnRsqrt t p f res s
  | .vxTrnTanh t p f res => Sys2Proof.Machine.execVxTrnTanh t p f res s
  | .vxTrnSigmoid t p f res => Sys2Proof.Machine.execVxTrnSigmoid t p f res s
  | .vxTrnErf t p f res => Sys2Proof.Machine.execVxTrnErf t p f res s
  | .vxTrnSilu t p f res => Sys2Proof.Machine.execVxTrnSilu t p f res s
  | .vxTrnGelu t p f res => Sys2Proof.Machine.execVxTrnGelu t p f res s
  | .vxRedRsum t p f res => Sys2Proof.Machine.execVxRedRsum t p f res s
  | .vxRedRmax t p f res => Sys2Proof.Machine.execVxRedRmax t p f res s
  | .vxRedRmin t p f res => Sys2Proof.Machine.execVxRedRmin t p f res s
  | .vxRedCsum t p f res => Sys2Proof.Machine.execVxRedCsum t p f res s
  | .vxRedCmax t p f res => Sys2Proof.Machine.execVxRedCmax t p f res s
  | .vxRedCmin t p f res => Sys2Proof.Machine.execVxRedCmin t p f res s
  | .vxCmpEq t p f res => Sys2Proof.Machine.execVxCmpEq t p f res s
  | .vxCmpNe t p f res => Sys2Proof.Machine.execVxCmpNe t p f res s
  | .vxCmpLt t p f res => Sys2Proof.Machine.execVxCmpLt t p f res s
  | .vxCmpLe t p f res => Sys2Proof.Machine.execVxCmpLe t p f res s
  | .vxCmpGt t p f res => Sys2Proof.Machine.execVxCmpGt t p f res s
  | .vxCmpGe t p f res => Sys2Proof.Machine.execVxCmpGe t p f res s
  | .vxCmpUnord t p f res => Sys2Proof.Machine.execVxCmpUnord t p f res s
  | .vxCmpMand t p f res => Sys2Proof.Machine.execVxCmpMand t p f res s
  | .vxCmpMor t p f res => Sys2Proof.Machine.execVxCmpMor t p f res s
  | .vxCmpMxor t p f res => Sys2Proof.Machine.execVxCmpMxor t p f res s
  | .vxCmpMandn t p f res => Sys2Proof.Machine.execVxCmpMandn t p f res s
  | .vxCmpMgen t p f res => Sys2Proof.Machine.execVxCmpMgen t p f res s
  | .vxSel t p f res => Sys2Proof.Machine.execVxSel t p f res s
  | .vxCvtF2i t p f res => Sys2Proof.Machine.execVxCvtF2i t p f res s
  | .vxCvtI2f t p f res => Sys2Proof.Machine.execVxCvtI2f t p f res s
  | .vxCvtItag t p f res => Sys2Proof.Machine.execVxCvtItag t p f res s
  | .vxRda t p f res => Sys2Proof.Machine.execVxRda t p f res s
  | .vxQnt t p f res => Sys2Proof.Machine.execVxQnt t p f res s
  | .vxDqt t p f ecc res => Sys2Proof.Machine.execVxDqt t p f ecc res s
  | .vxLd t p f ecc res => Sys2Proof.Machine.execVxLd t p f ecc res s
  | .vxSt t p f res => Sys2Proof.Machine.execVxSt t p f res s
  | .arithFlagTrap t p => Sys2Proof.Machine.execArithFlagTrap t p s
  | .dmXferCopy t p f ecc => Sys2Proof.Machine.execDmXferCopy t p f ecc s
  | .dmXferTranspose t p f ecc => Sys2Proof.Machine.execDmXferTranspose t p f ecc s
  | .dmLitePut t p f => Sys2Proof.Machine.execDmLitePut t p f s
  | .dmLiteGet t p f => Sys2Proof.Machine.execDmLiteGet t p f s
  | .dmRally t tb p f => Sys2Proof.Machine.execDmRally t tb p f s
  | .dmSkim t p f => Sys2Proof.Machine.execDmSkim t p f s
  | .dmCopy t p f ecc => Sys2Proof.Machine.execDmCopy t p f ecc s
  | .pageWalk t xu dva id ue => Sys2Proof.Machine.execPageWalk t xu dva id ue s
  | .unitArrival t tc id fnd oldBad => Sys2Proof.Machine.execUnitArrival t tc id fnd oldBad s
  | .sourceRelease t tc r => Sys2Proof.Machine.execSourceRelease t tc r s
  | .transferAck t id => Sys2Proof.Machine.execTransferAck t id s
  | .ctEnd t p f => Sys2Proof.Machine.execCtEnd t p f s
  | .ctEndRetire t p => Sys2Proof.Machine.execCtEndRetire t p s
  | .ondeckRecord t p w => Sys2Proof.Machine.execOndeckRecord t p w s
  | .ctNop t p f => Sys2Proof.Machine.execCtNop t p f s
  | .ctWrc t p r => Sys2Proof.Machine.execCtWrc t p r s
  | .cachectlApply t p => Sys2Proof.Machine.execCachectlApply t p s
  | .ctRtag t p f => Sys2Proof.Machine.execCtRtag t p f s
  | .ctSts t p f => Sys2Proof.Machine.execCtSts t p f s
  | .ctHgdump t p f => Sys2Proof.Machine.execCtHgdump t p f s
  | .ctCinv t p f => Sys2Proof.Machine.execCtCinv t p f s
  | .taskOverrun t p => Sys2Proof.Machine.execTaskOverrun t p s
  | .haltedCoreRelease t tb p => Sys2Proof.Machine.execHaltedCoreRelease t tb p s
  | .atomicAdd t tc x e => Sys2Proof.Machine.execAtomicAdd t tc x e s
  | .atomicMin t tc x e => Sys2Proof.Machine.execAtomicMin t tc x e s
  | .atomicMax t tc x e => Sys2Proof.Machine.execAtomicMax t tc x e s
  | .atomicAnd t tc x e => Sys2Proof.Machine.execAtomicAnd t tc x e s
  | .atomicOr t tc x e => Sys2Proof.Machine.execAtomicOr t tc x e s
  | .atomicXor t tc x e => Sys2Proof.Machine.execAtomicXor t tc x e s
  | .atomicSwap t tc x e => Sys2Proof.Machine.execAtomicSwap t tc x e s
  | .atomicCas t tc x e => Sys2Proof.Machine.execAtomicCas t tc x e s
  | .atomicFin t tc x e => Sys2Proof.Machine.execAtomicFin t tc x e s
  | .slmCacheFill t k ok => Sys2Proof.Machine.execSlmCacheFill t k ok s
  | .slmUnitSkimDone t k u => Sys2Proof.Machine.execSlmUnitSkimDone t k u s
  | .patrolScrub t dpa e => Sys2Proof.Machine.execPatrolScrub t dpa e s
  | .mapout t o st ch => Sys2Proof.Machine.execMapout t o st ch s
  | .vacated t o st v => Sys2Proof.Machine.execVacated t o st v s
  | .mapoutCopyDone t st badBlocks => Sys2Proof.Machine.execMapoutCopyDone t st badBlocks s
  | .lookupRequest t tc x ue => Sys2Proof.Machine.execLookupRequest t tc x ue s
  | .rowFetch t tc src st tag home fnd => Sys2Proof.Machine.execRowFetch t tc src st tag home fnd s
  | .updateRequest t tc x fnd ue => Sys2Proof.Machine.execUpdateRequest t tc x fnd ue s
  | .tbldesc t o table desc => Sys2Proof.Machine.execTbldesc t o table desc s
  | .hmapcommit t o table c => Sys2Proof.Machine.execHmapcommit t o table c s
  | .migreq t o table stripe m st => Sys2Proof.Machine.execMigreq t o table stripe m st s
  | .migrationCopyDone t table stripe badBlock => Sys2Proof.Machine.execMigrationCopyDone t table stripe badBlock s
  | .migrelease t o table stripe => Sys2Proof.Machine.execMigrelease t o table stripe s
  | .cadencePulse t => Sys2Proof.Machine.execCadencePulse t s
  | .madeEdge t => Sys2Proof.Machine.execMadeEdge t s
  | .relockFailure t => Sys2Proof.Machine.execRelockFailure t s
  | .cycleEdge t fnd => Sys2Proof.Machine.execCycleEdge t fnd s
  | .cadsrc t o v => Sys2Proof.Machine.execCadsrc t o v s
  | .ppsEdge t => Sys2Proof.Machine.execPpsEdge t s
  | .ppsLost t => Sys2Proof.Machine.execPpsLost t s
  | .fixcommit t o c => Sys2Proof.Machine.execFixcommit t o c s
  | .phaseRelease t tc q cseq recs => Sys2Proof.Machine.execPhaseRelease t tc q cseq recs s
  | .sqDoorbell t q tail => Sys2Proof.Machine.execSqDoorbell t q tail s
  | .crDoorbell t r head => Sys2Proof.Machine.execCrDoorbell t r head s
  | .fetchPass t q f => Sys2Proof.Machine.execFetchPass t q f s
  | .bufferFetched t q => Sys2Proof.Machine.execBufferFetched t q s
  | .run t q cseq f => Sys2Proof.Machine.execRun t q cseq f s
  | .repeatRun t q cseq f => Sys2Proof.Machine.execRepeat t q cseq f s
  | .nop t q cseq => Sys2Proof.Machine.execNop t q cseq s
  | .spawn t q cseq f => Sys2Proof.Machine.execSpawn t q cseq f s
  | .completionIssue t q f => Sys2Proof.Machine.execCompletionIssue t q f s
  | .intgapExpiry t r => Sys2Proof.Machine.execIntgapExpiry t r s
  | .createSq t => Sys2Proof.Machine.execCreateSq t s
  | .createCr t => Sys2Proof.Machine.execCreateCr t s
  | .destroySq t => Sys2Proof.Machine.execDestroySq t s
  | .destroyCr t => Sys2Proof.Machine.execDestroyCr t s
  | .recoverResume t => Sys2Proof.Machine.execRecoverResume t s
  | .recoverSkip t => Sys2Proof.Machine.execRecoverSkip t s
  | .recoverAbort t => Sys2Proof.Machine.execRecoverAbort t s
  | .setquota t => Sys2Proof.Machine.execSetquota t s
  | .rebindSq t => Sys2Proof.Machine.execRebindSq t s
  | .rebindCr t => Sys2Proof.Machine.execRebindCr t s
  | .cfectlAttach t => Sys2Proof.Machine.execCfectlAttach t s
  | .cfectlDetach t => Sys2Proof.Machine.execCfectlDetach t s
  | .farastWrite t tc n k fnd => Sys2Proof.Machine.execFarastWrite t tc n k fnd s
  | .farastRead t tc n k ue e => Sys2Proof.Machine.execFarastRead t tc n k ue e s
  | .readresp t tc n k => Sys2Proof.Machine.execReadresp t tc n k s
  | .eack t tc n k => Sys2Proof.Machine.execEack t tc n k s
  | .embIdx t tc n k => Sys2Proof.Machine.execEmbIdx t tc n k s
  | .embPart t tc n k => Sys2Proof.Machine.execEmbPart t tc n k s
  | .embUpd t tc n k fnd => Sys2Proof.Machine.execEmbUpd t tc n k fnd s
  | .embCtlSent t tc n k => Sys2Proof.Machine.execEmbCtlSent t tc n k s
  | .embCtlDone t tc n k => Sys2Proof.Machine.execEmbCtlDone t tc n k s
  | .embCtlReplay t tc n k => Sys2Proof.Machine.execEmbCtlReplay t tc n k s
  | .embCtlCombined t tc n k => Sys2Proof.Machine.execEmbCtlCombined t tc n k s
  | .embCtlFault t tc n k => Sys2Proof.Machine.execEmbCtlFault t tc n k s
  | .embMig t tc n k => Sys2Proof.Machine.execEmbMig t tc n k s
  | .rallyPart t tc n k => Sys2Proof.Machine.execRallyPart t tc n k s
  | .rallyAccept t tc n k => Sys2Proof.Machine.execRallyAccept t tc n k s
  | .rallyReplay t tc n k => Sys2Proof.Machine.execRallyReplay t tc n k s
  | .rallyFault t tc n k => Sys2Proof.Machine.execRallyFault t tc n k s
  | .notArmedResend t dst eseq => Sys2Proof.Machine.execNotArmedResend t dst eseq s
  | .rallyTimeout t tc e => Sys2Proof.Machine.execRallyTimeout t tc e s
  | .controlWord t n fields => Sys2Proof.Machine.execControlWord t n fields s
  | .controlWordLoss t n => Sys2Proof.Machine.execControlWordLoss t n s
  | .linkRetryTimeout t n => Sys2Proof.Machine.execLinkRetryTimeout t n s
  | .failoverTrigger t n l csym ucw lockLost => Sys2Proof.Machine.execFailoverTrigger t n l csym ucw lockLost s
  | .mirrorCheck t n ok => Sys2Proof.Machine.execMirrorCheck t n ok s
  | .lcmdMirror t n => Sys2Proof.Machine.execLcmdMirror t n s
  | .lcmdSwitch t n rx => Sys2Proof.Machine.execLcmdSwitch t n rx s
  | .lcmdNarrow t n rx => Sys2Proof.Machine.execLcmdNarrow t n rx s
  | .lcmdWiden t n rx => Sys2Proof.Machine.execLcmdWiden t n rx s
  | .eqAdapt t n l d => Sys2Proof.Machine.execEqAdapt t n l d s
  | .eqreadRefresh t n l snr eyeh eyew csym ucw => Sys2Proof.Machine.execEqreadRefresh t n l snr eyeh eyew csym ucw s
  | .lretrain t o n l v => Sys2Proof.Machine.execLretrain t o n l v s
  | .laneTrained t n l rx pass rtt => Sys2Proof.Machine.execLaneTrained t n l rx pass rtt s
  | .e2eTimeout t dst eseq => Sys2Proof.Machine.execE2eTimeout t dst eseq s
  | .modid t o v => Sys2Proof.Machine.execModid t o v s
  | .ptroot t o root => Sys2Proof.Machine.execPtroot t o root s
  | .xlinv t o dva pages => Sys2Proof.Machine.execXlinv t o dva pages s
  | .cxlLinkDown t => Sys2Proof.Machine.execCxlLinkDown t s
  | .cxlHotReset t => Sys2Proof.Machine.execCxlHotReset t s
  | .cxlPerstAssert t => Sys2Proof.Machine.execCxlPerstAssert t s
  | .cxlPerstRelease t => Sys2Proof.Machine.execCxlPerstRelease t s
  | .functionLevelReset t => Sys2Proof.Machine.execFunctionLevelReset t s
  | .hosttoExpiry t id => Sys2Proof.Machine.execHosttoExpiry t id s
  | .linkBTakeover t => Sys2Proof.Machine.execLinkBTakeover t s
  | .cxlLinkTrained t width speed => Sys2Proof.Machine.execCxlLinkTrained t width speed s
  | .hostReadResponse t tc id data poison => Sys2Proof.Machine.execHostReadResponse t tc id data poison s
  | .hostWriteGo t tc id => Sys2Proof.Machine.execHostWriteGo t tc id s
  | .hostSnoop t addr => Sys2Proof.Machine.execHostSnoop t addr s
  | .hdmRead t off hold e => Sys2Proof.Machine.execHdmRead t off hold e s
  | .hdmWrite t off data hold poison e => Sys2Proof.Machine.execHdmWrite t off data hold poison e s
  | .hdmDecoderCommit t base ways lock => Sys2Proof.Machine.execHdmDecoderCommit t base ways lock s
  | .biResponse t line data => Sys2Proof.Machine.execBiResponse t line data s
  | .mailboxH2dWrite t tc n off data => Sys2Proof.Machine.execMailboxH2dWrite t tc n off data s
  | .mailboxD2hRead t n => Sys2Proof.Machine.execMailboxD2hRead t n s
  | .getSupportedLogs t => Sys2Proof.Machine.execGetSupportedLogs t s
  | .getLog t => Sys2Proof.Machine.execGetLog t s
  | .getEventRecords t => Sys2Proof.Machine.execGetEventRecords t s
  | .clearEventRecords t => Sys2Proof.Machine.execClearEventRecords t s
  | .msixUnmask t enable funcMask vec addr data mask => Sys2Proof.Machine.execMsixUnmask t enable funcMask vec addr data mask s
  | .barIneffectiveAccess t bar off size wr => Sys2Proof.Machine.execBarIneffectiveAccess t bar off size wr s
  | .registerWrite t space off size value => Sys2Proof.Machine.execRegisterWrite t space off size value s
  | .erqhead t o v => Sys2Proof.Machine.execErqhead t o v s
  | .scfree t o k => Sys2Proof.Machine.execScfree t o k s
  | .errgapExpiry t => Sys2Proof.Machine.execErrgapExpiry t s
  | .fatalreq t o v => Sys2Proof.Machine.execFatalreq t o v s
  | .handlerWatchdog t => Sys2Proof.Machine.execHandlerWatchdog t s
  | .safeStateEntry t trig => Sys2Proof.Machine.execSafeStateEntry t trig s
  | .crossCheckRun t a b o => Sys2Proof.Machine.execCrossCheckRun t a b o s
  | .sealReread t dpa bad => Sys2Proof.Machine.execSealReread t dpa bad s
  | .marmasRead t o w0 w1 w2 data => Sys2Proof.Machine.execMarmasRead t o w0 w1 w2 data s
  | .marmasWrite t o w0 w1 w2 data => Sys2Proof.Machine.execMarmasWrite t o w0 w1 w2 data s
  | .describe t o w0 w1 w2 data => Sys2Proof.Machine.execDescribe t o w0 w1 w2 data s
  | .next t o w0 w1 w2 data => Sys2Proof.Machine.execNext t o w0 w1 w2 data s
  | .jread t o w0 w1 w2 data => Sys2Proof.Machine.execJread t o w0 w1 w2 data s
  | .commit t o c => Sys2Proof.Machine.execCommit t o c s
  | .discard t o v => Sys2Proof.Machine.execDiscard t o v s
  | .modreset t o v => Sys2Proof.Machine.execModreset t o v s
  | .jckreq t o nonce => Sys2Proof.Machine.execJckreq t o nonce s
  | .journalSignature t => Sys2Proof.Machine.execJournalSignature t s
  | .setEndpointId t o eid => Sys2Proof.Machine.execSetEndpointId t o eid s
  | .getEndpointId t o => Sys2Proof.Machine.execGetEndpointId t o s
  | .getEndpointUuid t o => Sys2Proof.Machine.execGetEndpointUuid t o s
  | .getMctpVersionSupport t o ty => Sys2Proof.Machine.execGetMctpVersionSupport t o ty s
  | .getMessageTypeSupport t o => Sys2Proof.Machine.execGetMessageTypeSupport t o s
  | .getVendorDefinedMessageSupport t o sel => Sys2Proof.Machine.execGetVendorDefinedMessageSupport t o sel s
  | .getVersion t o => Sys2Proof.Machine.execGetVersion t o s
  | .getCapabilities t o => Sys2Proof.Machine.execGetCapabilities t o s
  | .negotiateAlgorithms t o req => Sys2Proof.Machine.execNegotiateAlgorithms t o req s
  | .getDigests t o => Sys2Proof.Machine.execGetDigests t o s
  | .getCertificate t o slot off len => Sys2Proof.Machine.execGetCertificate t o slot off len s
  | .challenge t o slot => Sys2Proof.Machine.execChallenge t o slot s
  | .getMeasurements t o index sig => Sys2Proof.Machine.execGetMeasurements t o index sig s
  | .keyExchange t o => Sys2Proof.Machine.execKeyExchange t o s
  | .finish t o ok both owner => Sys2Proof.Machine.execFinish t o ok both owner s
  | .heartbeat t o => Sys2Proof.Machine.execHeartbeat t o s
  | .keyUpdate t o => Sys2Proof.Machine.execKeyUpdate t o s
  | .endSession t o => Sys2Proof.Machine.execEndSession t o s
  | .chunkSend t o seq size last => Sys2Proof.Machine.execChunkSend t o seq size last s
  | .chunkGet t o seq => Sys2Proof.Machine.execChunkGet t o seq s
  | .respondIfReady t o code => Sys2Proof.Machine.execRespondIfReady t o code s
  | .spdmSignatureDone t => Sys2Proof.Machine.execSpdmSignatureDone t s
  | .heartbeatLoss t id => Sys2Proof.Machine.execHeartbeatLoss t id s
  | .rakCertificateReady t => Sys2Proof.Machine.execRakCertificateReady t s
  | .trngHealthFailure t => Sys2Proof.Machine.execTrngHealthFailure t s
  | .fwactionStage t o => Sys2Proof.Machine.execFwactionStage t o s
  | .fwStagingDone t o => Sys2Proof.Machine.execFwStagingDone t o s
  | .fwactionActivate t o => Sys2Proof.Machine.execFwactionActivate t o s
  | .fwactionAccept t o => Sys2Proof.Machine.execFwactionAccept t o s
  | .fwactionAbort t o => Sys2Proof.Machine.execFwactionAbort t o s
  | .tokensubmit t o v => Sys2Proof.Machine.execTokensubmit t o v s
  | .scanreq t o c => Sys2Proof.Machine.execScanreq t o c s
  | .bench t o c => Sys2Proof.Machine.execBench t o c s
  | .benchCancel t o c => Sys2Proof.Machine.execBenchCancel t o c s
  | .returnCore t o c => Sys2Proof.Machine.execReturn t o c s
  | .benchCopyDone t ok => Sys2Proof.Machine.execBenchCopyDone t ok s
  | .hardLoss t c => Sys2Proof.Machine.execHardLoss t c s
  | .bistrun t o c => Sys2Proof.Machine.execBistrun t o c s
  | .bistDone t c lb mb rows again => Sys2Proof.Machine.execBistDone t c lb mb rows again s
  | .unitTest t c u fail => Sys2Proof.Machine.execUnitTest t c u fail s
  | .fuserepair t o v => Sys2Proof.Machine.execFuserepair t o v s
  | .avsStep t l fails => Sys2Proof.Machine.execAvsStep t l fails s
  | .thermalSample t vals => Sys2Proof.Machine.execThermalSample t vals s
  | .thermtrip t die => Sys2Proof.Machine.execThermtrip t die s
  | .pwrbrakeChange t low => Sys2Proof.Machine.execPwrbrakeChange t low s
  | .railOutOfTolerance t r mv ns => Sys2Proof.Machine.execRailOutOfTolerance t r mv ns s
  | .pllLockLoss t pll die => Sys2Proof.Machine.execPllLockLoss t pll die s
  | .modResetAssert t => Sys2Proof.Machine.execModResetAssert t s
  | .modResetRelease t straps b f => Sys2Proof.Machine.execModResetRelease t straps b f s
  | .strapResample t strap f => Sys2Proof.Machine.execStrapResample t strap f s
  | .pllLockTimeout t => Sys2Proof.Machine.execPllLockTimeout t s
  | .hbmTrainingDone t failed => Sys2Proof.Machine.execHbmTrainingDone t failed s
  | .startupComplete t finds => Sys2Proof.Machine.execStartupComplete t finds s
  | .encapsulatedRequest t o code => Sys2Proof.Machine.execEncapsulatedRequest t o code s
  | .dataObjectExchange t proto => Sys2Proof.Machine.execDataObjectExchange t proto s
  | .dynamicAddressAssignment t addr dasa => Sys2Proof.Machine.execDynamicAddressAssignment t addr dasa s
  | .fuseBlowDone t errs => Sys2Proof.Machine.execFuseBlowDone t errs s
  | .testAccessPort t inner => Sys2Proof.Machine.execTestAccessPort t inner s

end Sys2Proof.Machine
end

