-- ==== Sys2Proof/WellFormed.lean ====
section
/-!
DEFINITION. Which commands name parts the block has: cores, queues, rings, ports, lanes, stacks, dies, translation units, routes, tables. A meaning is
defined on every command; one that is ill-formed names nothing the spec gives the block.
-/
namespace Sys2Proof

/-- 144 physical cores (R21, R22). -/
def coreOk (p : Nat) : Bool := decide (p < 144)
/-- 256 queues and 256 rings (R295, R316). -/
def queueOk (q : Nat) : Bool := decide (q < 256)
/-- 12 Farast ports (R349). -/
def portOk (n : Nat) : Bool := decide (n < 12)
/-- 9 lanes of a port in each direction (R332). -/
def laneOk (l : Nat) : Bool := decide (l < 9)
/-- 16 HBM stacks. -/
def stackOk (st : Nat) : Bool := decide (st < 16)
/-- 8 foundation dies. -/
def dieOk (k : Nat) : Bool := decide (k < 8)
/-- Translation units: 144 cores, 16 embedding engines, the Command Front End and two inbound units (R252). -/
def xuOk (x : Nat) : Bool := decide (x < 163)
/-- 64 mailbox slots (R367). -/
def slotOk (n : Nat) : Bool := decide (n < 64)
/-- 26 rails (R486). -/
def railOk (r : Nat) : Bool := decide (r < 26)
/-- Embedding tables (R193). -/
def tableOk (t : Nat) : Bool := decide (t < 3840)
/-- The four routes (R422), each with an endpoint of 8 bits. -/
def originOk (o : Origin) : Bool := decide (o.route < 4) && decide (o.eid < 256)

/-- The widths of what is fused (R22, R442, R452): 2,048 security bits, 144 positions, the identity. -/
def fusesOk (x : Otp) : Bool :=
  decide (x.sec < 2 ^ 2048) && decide (x.inService < 2 ^ 144) && decide (x.fusedOut < 2 ^ 144) && decide (x.pciVid < 2 ^ 16) &&
  decide (x.pciDid < 2 ^ 16) && decide (x.silRev < 2 ^ 8) && decide (x.vxeRev < 2 ^ 16) &&
  decide (x.serial.length ≤ 32) && decide (x.uuid.length ≤ 16) && decide (x.i3cPid < 2 ^ 48)

/-- A well-formed command. -/
def Instr.wellFormed : Instr → Bool
  | .instructionFetch _ p _ => coreOk p
  | .instructionDispatch _ p => coreOk p
  | .syGate _ p _ => coreOk p
  | .gateOpen _ p _ => coreOk p
  | .syWaitc _ p _ => coreOk p
  | .arrivalTimeout _ p => coreOk p
  | .mxLdw _ p _ _ => coreOk p
  | .mxMul _ p _ _ _ => coreOk p
  | .operationJudgement _ p _ => coreOk p
  | .mxWo _ p _ => coreOk p
  | .mvMul _ p _ _ _ => coreOk p
  | .vxAluAdd _ p _ _ => coreOk p
  | .vxAluSub _ p _ _ => coreOk p
  | .vxAluMul _ p _ _ => coreOk p
  | .vxAluMin _ p _ _ => coreOk p
  | .vxAluMax _ p _ _ => coreOk p
  | .vxAluAbs _ p _ _ => coreOk p
  | .vxAluNeg _ p _ _ => coreOk p
  | .vxAluDiv _ p _ _ => coreOk p
  | .vxAluSqrt _ p _ _ => coreOk p
  | .vxAluRcp _ p _ _ => coreOk p
  | .vxAluMov _ p _ _ => coreOk p
  | .vxAluRelu _ p _ _ => coreOk p
  | .vxAluScale2 _ p _ _ => coreOk p
  | .vxAluAnd _ p _ _ => coreOk p
  | .vxAluOr _ p _ _ => coreOk p
  | .vxAluXor _ p _ _ => coreOk p
  | .vxAluShl _ p _ _ => coreOk p
  | .vxAluShra _ p _ _ => coreOk p
  | .vxAluShrl _ p _ _ => coreOk p
  | .vxFma _ p _ _ => coreOk p
  | .vxFmaNegated _ p _ _ => coreOk p
  | .vxTrnExp2 _ p _ _ => coreOk p
  | .vxTrnExp _ p _ _ => coreOk p
  | .vxTrnLog2 _ p _ _ => coreOk p
  | .vxTrnLn _ p _ _ => coreOk p
  | .vxTrnRsqrt _ p _ _ => coreOk p
  | .vxTrnTanh _ p _ _ => coreOk p
  | .vxTrnSigmoid _ p _ _ => coreOk p
  | .vxTrnErf _ p _ _ => coreOk p
  | .vxTrnSilu _ p _ _ => coreOk p
  | .vxTrnGelu _ p _ _ => coreOk p
  | .vxRedRsum _ p _ _ => coreOk p
  | .vxRedRmax _ p _ _ => coreOk p
  | .vxRedRmin _ p _ _ => coreOk p
  | .vxRedCsum _ p _ _ => coreOk p
  | .vxRedCmax _ p _ _ => coreOk p
  | .vxRedCmin _ p _ _ => coreOk p
  | .vxCmpEq _ p _ _ => coreOk p
  | .vxCmpNe _ p _ _ => coreOk p
  | .vxCmpLt _ p _ _ => coreOk p
  | .vxCmpLe _ p _ _ => coreOk p
  | .vxCmpGt _ p _ _ => coreOk p
  | .vxCmpGe _ p _ _ => coreOk p
  | .vxCmpUnord _ p _ _ => coreOk p
  | .vxCmpMand _ p _ _ => coreOk p
  | .vxCmpMor _ p _ _ => coreOk p
  | .vxCmpMxor _ p _ _ => coreOk p
  | .vxCmpMandn _ p _ _ => coreOk p
  | .vxCmpMgen _ p _ _ => coreOk p
  | .vxSel _ p _ _ => coreOk p
  | .vxCvtF2i _ p _ _ => coreOk p
  | .vxCvtI2f _ p _ _ => coreOk p
  | .vxCvtItag _ p _ _ => coreOk p
  | .vxRda _ p _ _ => coreOk p
  | .vxQnt _ p _ _ => coreOk p
  | .vxDqt _ p _ _ _ => coreOk p
  | .vxLd _ p _ _ _ => coreOk p
  | .vxSt _ p _ _ => coreOk p
  | .arithFlagTrap _ p => coreOk p
  | .dmXferCopy _ p _ _ => coreOk p
  | .dmXferTranspose _ p _ _ => coreOk p
  | .dmLitePut _ p _ => coreOk p
  | .dmLiteGet _ p _ => coreOk p
  | .dmRally _ _ p _ => coreOk p
  | .dmSkim _ p _ => coreOk p
  | .dmCopy _ p _ _ => coreOk p
  | .pageWalk _ xu _ _ _ => xuOk xu
  | .unitArrival _ _ _ _ _ => true
  | .sourceRelease _ _ _ => true
  | .transferAck _ _ => true
  | .ctEnd _ p _ => coreOk p
  | .ctEndRetire _ p => coreOk p
  | .ondeckRecord _ p _ => coreOk p
  | .ctNop _ p _ => coreOk p
  | .ctWrc _ p _ => coreOk p
  | .cachectlApply _ p => coreOk p
  | .ctRtag _ p _ => coreOk p
  | .ctSts _ p _ => coreOk p
  | .ctHgdump _ p _ => coreOk p
  | .ctCinv _ p _ => coreOk p
  | .taskOverrun _ p => coreOk p
  | .haltedCoreRelease _ _ p => coreOk p
  | .atomicAdd _ _ _ _ => true
  | .atomicMin _ _ _ _ => true
  | .atomicMax _ _ _ _ => true
  | .atomicAnd _ _ _ _ => true
  | .atomicOr _ _ _ _ => true
  | .atomicXor _ _ _ _ => true
  | .atomicSwap _ _ _ _ => true
  | .atomicCas _ _ _ _ => true
  | .atomicFin _ _ _ _ => true
  | .slmCacheFill _ k _ => dieOk k
  | .slmUnitSkimDone _ k u => dieOk k && decide (u < 12)
  | .patrolScrub _ _ _ => true
  | .mapout _ o st _ => originOk o && stackOk st
  | .vacated _ o st _ => originOk o && stackOk st
  | .mapoutCopyDone _ st _ => stackOk st
  | .lookupRequest _ _ _ _ => true
  | .rowFetch _ _ _ st _ _ _ => stackOk st
  | .updateRequest _ _ _ _ _ => true
  | .tbldesc _ o table _ => originOk o && tableOk table
  | .hmapcommit _ o table _ => originOk o && tableOk table
  | .migreq _ o table _ _ st => originOk o && tableOk table && (stackOk st || st == 255)
  | .migrationCopyDone _ table _ _ => tableOk table
  | .migrelease _ o table _ => originOk o && tableOk table
  | .cadencePulse _ => true
  | .madeEdge _ => true
  | .relockFailure _ => true
  | .cycleEdge _ _ => true
  | .cadsrc _ o _ => originOk o
  | .ppsEdge _ => true
  | .ppsLost _ => true
  | .fixcommit _ o _ => originOk o
  | .phaseRelease _ _ q _ _ => queueOk q
  | .sqDoorbell _ q _ => queueOk q
  | .crDoorbell _ r _ => queueOk r
  | .fetchPass _ q _ => queueOk q
  | .bufferFetched _ q => queueOk q
  | .run _ q _ _ => queueOk q
  | .repeatRun _ q _ _ => queueOk q
  | .nop _ q _ => queueOk q
  | .spawn _ q _ _ => queueOk q
  | .completionIssue _ q _ => queueOk q
  | .intgapExpiry _ r => queueOk r
  | .createSq _ => true
  | .createCr _ => true
  | .destroySq _ => true
  | .destroyCr _ => true
  | .recoverResume _ => true
  | .recoverSkip _ => true
  | .recoverAbort _ => true
  | .setquota _ => true
  | .rebindSq _ => true
  | .rebindCr _ => true
  | .cfectlAttach _ => true
  | .cfectlDetach _ => true
  | .farastWrite _ _ n _ _ => portOk n
  | .farastRead _ _ n _ _ _ => portOk n
  | .readresp _ _ n _ => portOk n
  | .eack _ _ n _ => portOk n
  | .embIdx _ _ n _ => portOk n
  | .embPart _ _ n _ => portOk n
  | .embUpd _ _ n _ _ => portOk n
  | .embCtlSent _ _ n _ => portOk n
  | .embCtlDone _ _ n _ => portOk n
  | .embCtlReplay _ _ n _ => portOk n
  | .embCtlCombined _ _ n _ => portOk n
  | .embCtlFault _ _ n _ => portOk n
  | .embMig _ _ n _ => portOk n
  | .rallyPart _ _ n _ => portOk n
  | .rallyAccept _ _ n _ => portOk n
  | .rallyReplay _ _ n _ => portOk n
  | .rallyFault _ _ n _ => portOk n
  | .notArmedResend _ _ _ => true
  | .rallyTimeout _ _ _ => true
  | .controlWord _ n _ => portOk n
  | .controlWordLoss _ n => portOk n
  | .linkRetryTimeout _ n => portOk n
  | .failoverTrigger _ n l _ _ _ => portOk n && laneOk l
  | .mirrorCheck _ n _ => portOk n
  | .lcmdMirror _ n => portOk n
  | .lcmdSwitch _ n _ => portOk n
  | .lcmdNarrow _ n _ => portOk n
  | .lcmdWiden _ n _ => portOk n
  | .eqAdapt _ n l _ => portOk n && laneOk l
  | .eqreadRefresh _ n l _ _ _ _ _ => portOk n && laneOk l
  | .lretrain _ o n l _ => originOk o && portOk n && laneOk l
  | .laneTrained _ n l _ _ _ => portOk n && laneOk l
  | .e2eTimeout _ _ _ => true
  | .modid _ o _ => originOk o
  | .ptroot _ o _ => originOk o
  | .xlinv _ o _ _ => originOk o
  | .cxlLinkDown _ => true
  | .cxlHotReset _ => true
  | .cxlPerstAssert _ => true
  | .cxlPerstRelease _ => true
  | .functionLevelReset _ => true
  | .hosttoExpiry _ _ => true
  | .linkBTakeover _ => true
  | .cxlLinkTrained _ _ _ => true
  | .hostReadResponse _ _ _ _ _ => true
  | .hostWriteGo _ _ _ => true
  | .hostSnoop _ _ => true
  | .hdmRead _ _ _ _ => true
  | .hdmWrite _ _ data _ _ _ => decide (data.length ≤ 64)
  | .hdmDecoderCommit _ _ _ _ => true
  | .biResponse _ _ _ => true
  | .mailboxH2dWrite _ _ n _ _ => slotOk n
  | .mailboxD2hRead _ n => slotOk n
  | .getSupportedLogs _ => true
  | .getLog _ => true
  | .getEventRecords _ => true
  | .clearEventRecords _ => true
  | .msixUnmask _ _ _ _ _ _ _ => true
  | .barIneffectiveAccess _ bar _ _ _ => (bar == 0 || bar == 2)
  | .registerWrite _ _ _ _ _ => true
  | .erqhead _ o _ => o.all originOk
  | .scfree _ o _ => o.all originOk
  | .errgapExpiry _ => true
  | .fatalreq _ o _ => originOk o
  | .handlerWatchdog _ => true
  | .safeStateEntry _ _ => true
  | .crossCheckRun _ a b _ => coreOk a && coreOk b
  | .sealReread _ _ _ => true
  | .marmasRead _ o _ _ _ _ => originOk o
  | .marmasWrite _ o _ _ _ _ => originOk o
  | .describe _ o _ _ _ _ => originOk o
  | .next _ o _ _ _ _ => originOk o
  | .jread _ o _ _ _ _ => originOk o
  | .commit _ o _ => originOk o
  | .discard _ o _ => originOk o
  | .modreset _ o _ => originOk o
  | .jckreq _ o nonce => originOk o && decide (nonce.length = 32)
  | .journalSignature _ => true
  | .setEndpointId _ o _ => originOk o
  | .getEndpointId _ o => originOk o
  | .getEndpointUuid _ o => originOk o
  | .getMctpVersionSupport _ o _ => originOk o
  | .getMessageTypeSupport _ o => originOk o
  | .getVendorDefinedMessageSupport _ o _ => originOk o
  | .getVersion _ o => originOk o
  | .getCapabilities _ o => originOk o
  | .negotiateAlgorithms _ o _ => originOk o
  | .getDigests _ o => originOk o
  | .getCertificate _ o _ _ _ => originOk o
  | .challenge _ o _ => originOk o
  | .getMeasurements _ o _ _ => originOk o
  | .keyExchange _ o => originOk o
  | .finish _ o _ _ owner => originOk o && decide (owner.length ≤ 32)
  | .heartbeat _ o => originOk o
  | .keyUpdate _ o => originOk o
  | .endSession _ o => originOk o
  | .chunkSend _ o _ _ _ => originOk o
  | .chunkGet _ o _ => originOk o
  | .respondIfReady _ o _ => originOk o
  | .spdmSignatureDone _ => true
  | .heartbeatLoss _ _ => true
  | .rakCertificateReady _ => true
  | .trngHealthFailure _ => true
  | .fwactionStage _ o => originOk o
  | .fwStagingDone _ _ => true
  | .fwactionActivate _ o => originOk o
  | .fwactionAccept _ o => originOk o
  | .fwactionAbort _ o => originOk o
  | .tokensubmit _ o _ => originOk o
  | .scanreq _ o c => originOk o && coreOk c
  | .bench _ o c => originOk o && coreOk c
  | .benchCancel _ o c => originOk o && coreOk c
  | .returnCore _ o c => originOk o && coreOk c
  | .benchCopyDone _ _ => true
  | .hardLoss _ c => coreOk c
  | .bistrun _ o c => originOk o && coreOk c
  | .bistDone _ c _ _ _ _ => coreOk c
  | .unitTest _ c u _ => coreOk c && decide (u < 112)
  | .fuserepair _ o _ => originOk o
  | .avsStep _ _ _ => true
  | .thermalSample _ _ => true
  | .thermtrip _ _ => true
  | .pwrbrakeChange _ _ => true
  | .railOutOfTolerance _ r _ _ => railOk r
  | .pllLockLoss _ pll _ => decide (pll < 4)
  | .modResetAssert _ => true
  | .modResetRelease _ _ b _ => b.made.all fusesOk
  | .strapResample _ _ _ => true
  | .pllLockTimeout _ => true
  | .hbmTrainingDone _ _ => true
  | .startupComplete _ _ => true
  | .encapsulatedRequest _ o _ => originOk o
  | .dataObjectExchange _ _ => true
  | .dynamicAddressAssignment _ _ _ => true
  | .fuseBlowDone _ _ => true
  | .testAccessPort _ _ => true

end Sys2Proof
end

