-- ==== Sys2Proof/Safety.lean ====
section
/-!
DEFINITION. What statements about runs speak of: when a core may issue, when a route is open, what a command leaves alone, the rows of one
shape by name, and the canonical form of everything the block stores.
-/
namespace Sys2Proof.Machine

/-! ### Time -/

/-- A state with both clocks moved on and nothing sent out yet. -/
def State.atBC (s : State) (t tc : Nat) : State := { s.atB t with cclk := max s.cclk tc }

/-! ### Cores -/

/-- The head of a queue is the instruction `i` of word `w`, dispatched before `t` (R138). -/
def Core.atHead (c : Core) (q : QueueId) (i : CoreInstr) (w t : Nat) : Bool :=
  match c.queue q with
  | .instr j v d :: _ => decide (j = i) && v == w && decide (d < t)
  | _ => false

/-- The core at the beginning of CCLK `t`: every act on its scratchpad of an earlier CCLK has been made. -/
abbrev State.coreAt (s : State) (t p : Nat) : Core := (s.core p).landed t

/-- R138 and R139 for a core that runs: the instruction `i` at the head of queue `q` may issue in CCLK `t` once its port is free. -/
abbrev Core.issues (c : Core) (q : QueueId) (i : CoreInstr) (w t : Nat) : Prop :=
  c.st = .run ∧ c.pause = none ∧ c.replaySince = none ∧ c.trapDue t = false ∧ c.resumeAt ≤ t ∧ c.lastIssue.get q < t ∧
    c.atHead q i w t = true

/-- The instruction issues from core `p` in CCLK `t` and nothing stops it: the cores run (R402), it is at the head of its queue (R138), its
port is free from `free` on, it passes its `checks` (R109) and its accesses `acc` meet no other stream's (R149). -/
abbrev State.issues (s : State) (t p : Nat) (q : QueueId) (i : CoreInstr) (w free : Nat) (checks : List (Bool × Cause)) (acc : List Access) : Prop :=
  s.coresStopped = false ∧ (s.coreAt t p).issues q i w t ∧ free ≤ t ∧ firstFault checks = none ∧ (s.coreAt t p).meetings acc = []

/-- Nothing but core `p` has changed since `s`, the core clock apart. -/
abbrev State.onlyCore (s u : State) (t p : Nat) : Prop :=
  (∀ k, k ≠ p → u.core k = s.core k) ∧ u = { s.atC t with cores := u.cores }

/-- The SPM of `d` is that of `c`, now and as their acts of later CCLKs are made, but for bytes at which `stored` holds. -/
def Core.spmKept (c d : Core) (stored : Nat → Prop) : Prop :=
  d.spm = c.spm ∧ ∀ T a, ¬ stored a → (d.landed T).spm.read a = (c.landed T).spm.read a

/-- The rows of the vector engine's common layout, by function. -/
def vxRow (fn : VxFn) (t p : Nat) (f : VxOps) (res : Bool) : Instr :=
  match fn with
  | .add => .vxAluAdd t p f res | .sub => .vxAluSub t p f res | .mul => .vxAluMul t p f res | .min => .vxAluMin t p f res
  | .max => .vxAluMax t p f res | .abs => .vxAluAbs t p f res | .neg => .vxAluNeg t p f res | .div => .vxAluDiv t p f res
  | .sqrt => .vxAluSqrt t p f res | .rcp => .vxAluRcp t p f res | .mov => .vxAluMov t p f res | .relu => .vxAluRelu t p f res
  | .scale2 => .vxAluScale2 t p f res | .and => .vxAluAnd t p f res | .or => .vxAluOr t p f res | .xor => .vxAluXor t p f res
  | .shl => .vxAluShl t p f res | .shra => .vxAluShra t p f res | .shrl => .vxAluShrl t p f res
  | .fma => .vxFma t p f res | .fnma => .vxFmaNegated t p f res
  | .exp2 => .vxTrnExp2 t p f res | .exp => .vxTrnExp t p f res | .log2 => .vxTrnLog2 t p f res | .ln => .vxTrnLn t p f res
  | .rsqrt => .vxTrnRsqrt t p f res | .tanh => .vxTrnTanh t p f res | .sigmoid => .vxTrnSigmoid t p f res
  | .erf => .vxTrnErf t p f res | .silu => .vxTrnSilu t p f res | .gelu => .vxTrnGelu t p f res
  | .rsum => .vxRedRsum t p f res | .rmax => .vxRedRmax t p f res | .rmin => .vxRedRmin t p f res
  | .csum => .vxRedCsum t p f res | .cmax => .vxRedCmax t p f res | .cmin => .vxRedCmin t p f res
  | .eq => .vxCmpEq t p f res | .ne => .vxCmpNe t p f res | .lt => .vxCmpLt t p f res | .le => .vxCmpLe t p f res
  | .gt => .vxCmpGt t p f res | .ge => .vxCmpGe t p f res | .unord => .vxCmpUnord t p f res
  | .mand => .vxCmpMand t p f res | .mor => .vxCmpMor t p f res | .mxor => .vxCmpMxor t p f res
  | .mandn => .vxCmpMandn t p f res | .mgen => .vxCmpMgen t p f res
  | .sel => .vxSel t p f res
  | .f2i => .vxCvtF2i t p f res | .i2f => .vxCvtI2f t p f res | .itag => .vxCvtItag t p f res

/-- The functions that compute each lane of VD from the same lane of their operands. -/
def vxLaneWise (fn : VxFn) : Bool :=
  match vxShape fn with | .unary | .binary | .fma => true | _ => false

/-- The nine atomic rows, by operation code (R239). -/
def atomicCmd (op t tc x : Nat) (e : Ecc) : Instr :=
  match op with
  | 0 => .atomicAdd t tc x e | 1 => .atomicMin t tc x e | 2 => .atomicMax t tc x e | 3 => .atomicAnd t tc x e | 4 => .atomicOr t tc x e
  | 5 => .atomicXor t tc x e | 6 => .atomicSwap t tc x e | 7 => .atomicCas t tc x e | _ => .atomicFin t tc x e

/-! ### The Command Front End -/

/-- The units have not stopped for a safe state by `t` (R402). -/
abbrev State.runsAt (s : State) (t : Nat) : Prop := (s.atB t).stopped = false
/-- A command stands in the list as DONE with a status (R319). -/
def State.doneAs (s : State) (ref : Nat) (st : Status) : Bool :=
  match s.cfe.find ref with | some d => d.st == .done && d.status == some st | none => false
/-- Q0's next admin command is `c`, of the KIND and words given, with its other fields 0 (R323). -/
abbrev State.adminFirst (s : State) (t kind w1 w2 w3 : Nat) (c : Cmd) : Prop :=
  s.runsAt t ∧ s.cfe.cmds.find? (fun d => d.q == 0 && d.st != .done && d.st != .running) = some c ∧ c.kind = .admin kind w1 w2 w3 false
/-- The command of a queue with a CSEQ. -/
def Cfe.cmdAt (f : Cfe) (q cseq : Nat) : Option Cmd := f.cmds.find? (fun c => c.q == q && c.cseq == cseq)

/-! ### Links -/

/-- The request packet `k` passes every check of the receiving module, which is then in state `x` and judges and applies it (R345, R348, R351). -/
abbrev State.receives (s : State) (t tc n op : Nat) (k : Packet) (x : State) : Prop :=
  k.op = op ∧ (s.atBC t tc).recvRequest n k = .apply x
/-- The answer `k` passes the link layer's checks, which leave state `x`, and names the request `r` (R345, R350). -/
abbrev State.answers (s : State) (t tc n op : Nat) (k : Packet) (x : State) (r : E2e) : Prop :=
  k.op = op ∧ (s.atBC t tc).recvLink n k = .apply x ∧ x.reqOf k.src (bits (k.word 6) 23 0) = some r

/-! ### Writes of objects -/

/-- A write of the value `v` to the object `key` by an origin, taken from a route that answers, passes every check of R425. -/
abbrev State.writesTo (s : State) (t : Nat) (o : Origin) (key : Nat) (v : List Byte) : Prop :=
  s.err.fatal = false ∧ (s.atB t).route o = .opened ∧ ((s.atB t).take o).judgeWrite o key v = none
/-- The JSEQ that follows an entry's (R447): a multiple of 1,024 is an automatic checkpoint's. -/
def nextJseq (j : Nat) : Nat := if (j + 1) % 1024 = 0 then j + 2 else j + 1
/-- The bytes a row's number is written in: as many as its object's type has. -/
def writtenAs (key n : Nat) : List Byte := leBytes (match objDef key with | some d => d.ty.size | none => 0) n
/-- The row `c`, of operands `a` and `b`, writes the number `n` to the LIVE object `key`, whose value waits for its edge. -/
def liveRow (t : Nat) (o : Origin) (a b : Nat) (c : Instr) (key n : Nat) : Prop :=
  (c = .cadsrc t o a ∧ key = okey 0x4500 1 ∧ n = a) ∨ (c = .fixcommit t o a ∧ key = okey 0x4300 1 ∧ n = a) ∨
  (c = .fatalreq t o a ∧ key = okey 0x2A00 6 ∧ n = a) ∨ (c = .modreset t o a ∧ key = okey 0x2000 0x10 ∧ n = a) ∨
  (c = .xlinv t o a b ∧ key = okey 0x2500 2 ∧ n = a % 2 ^ 64 + b % 2 ^ 32 * 2 ^ 64) ∨
  (c = .mapout t o a b ∧ a < 16 ∧ key = okey (0x3100 + a) 2 ∧ n = b) ∨ (c = .vacated t o a b ∧ a < 16 ∧ key = okey (0x3100 + a) 4 ∧ n = b) ∨
  (c = .hmapcommit t o a b ∧ a < 3840 ∧ key = okey (0x5000 + a) 3 ∧ n = b) ∨
  (∃ l, c = .lretrain t o a l b ∧ l ≤ 8 ∧ a < 12 ∧ key = okey (0x3200 + a) (0x50 + l) ∧ n = b) ∨
  (c = .bench t o a ∧ a < 256 ∧ key = okey (0x3000 + a) 3 ∧ n = 1) ∨ (c = .returnCore t o a ∧ a < 256 ∧ key = okey (0x3000 + a) 3 ∧ n = 2) ∨
  (c = .benchCancel t o a ∧ a < 256 ∧ key = okey (0x3000 + a) 3 ∧ n = 3)
/-- The row `c`, of operands `a`, `b`, `m` and `st`, writes the number `n` to the STAGED object `key`. -/
def stagedRow (t : Nat) (o : Origin) (a b m st : Nat) (c : Instr) (key n : Nat) : Prop :=
  (c = .migreq t o a b m st ∧ key = okey 0x5F04 1 ∧ n = a % 2 ^ 16 + b % 2 ^ 32 * 2 ^ 16 + m % 256 * 2 ^ 48 + st % 256 * 2 ^ 56) ∨
  (c = .migrelease t o a b ∧ key = okey 0x5F04 2 ∧ n = a % 2 ^ 16 + b % 2 ^ 32 * 2 ^ 16) ∨
  (c = .tbldesc t o a b ∧ a < 3840 ∧ key = okey (0x5000 + a) 1 ∧ n = b)
/-- The response `w` with its data says OK for the journal entry `j` (R436). -/
def saysOk (u : State) (o : Origin) (j : Nat) : Prop :=
  ∃ w, u.out = [Output.marmas o.route o.eid w []] ∧ w.getD 2 0 = j ∧ bits (w.getD 1 0) 47 32 = 0

/-! ### Management messages -/

/-- A request of an operation with its header well formed comes on a route that answers, within the route's size (R433, R435). -/
abbrev State.requested (s : State) (t op : Nat) (r : Req) : Prop :=
  r.op = op ∧ 1 ≤ op ∧ op ≤ 5 ∧ r.wellFormed = true ∧ (s.atB t).route r.origin = .opened ∧ (r.o.route = 1 → r.data.length ≤ 4072) ∧
    (2 ≤ r.o.route → r.data.length ≤ 1024)
/-- An SPDM request reaches the responder on its connection (R463, R466). -/
abbrev State.asked (s : State) (t : Nat) (o : Origin) : Prop :=
  (o.route = 2 ∨ o.route = 3) ∧ ((s.atB t).deferSigs).route { o with session := 0 } = .opened ∧ (o.session = 0 ∨ ((s.atB t).deferSigs).sessionOf o ≠ none)
/-- An SPDM request comes in the session `x`, established or not as said, whose KEY_EXCHANGE has been answered (R466). -/
abbrev State.askedIn (s : State) (t : Nat) (o : Origin) (est : Bool) (x : Session) : Prop :=
  s.asked t o ∧ o.session ≠ 0 ∧ ((s.atB t).deferSigs).sessionOf o = some x ∧ x.established = est ∧
    ((s.atB t).deferSigs).sec.sigs.any (fun w => w.session == x.id && w.code == 0xE4) = false

/-! ### What is stored -/

/-- The canonical form of everything the block stores by address: HBM and SLM, the flash, and each core's scratchpad. -/
def State.canonical (s : State) : Bool :=
  Memory.wf s.mem.dram && Table.wf (0xFF : Byte) s.flash && s.cores.all (fun c => Memory.wf c.2.spm)

end Sys2Proof.Machine
end

