-- ==== Sys2Proof/Certificates/Slice0/Obligations.lean ====
section
/-!
DEFINITION. The statements about this block, for the provers. Each names the rules it formalises in OBLIGATIONS.json.
-/
open Sys2Proof Sys2Proof.Machine

/-! ### The block's queue and its reset -/

/-- With a command at the front of the queue, a step is the meaning of that command on the state with the rest of the queue; tier 1. -/
def Obligations.StepRunsTheFrontCommand : Prop :=
  ∀ (c : Instr) (rest : List Instr) (s : State), s.pending = c :: rest → step s = exec c { s with pending := rest }

/-- After reset no command waits, the stores are in canonical form and every byte of HBM, SLM and the scratchpads reads as zero (the value of
unwritten memory is the model's choice: log entry 2). With no command waiting a step leaves the block as it is (the model's choice: log entry 1). -/
def Obligations.ResetAndIdle : Prop :=
  (∀ s : State, s.pending = [] → step s = .next s) ∧
  (State.reset.pending = [] ∧ State.reset.canonical = true ∧ (∀ a, Memory.read State.reset.mem.dram a = 0) ∧
    (∀ p a, (State.reset.core p).spm.read a = 0))

/-- Every step takes exactly the command at the front of the queue: whatever the command does, the commands behind it wait unchanged and
in order. So a queue of well-formed commands stays one. -/
def Obligations.StepKeepsWaitingCommands : Prop :=
  ∀ s u : State, step s = .next u → u.pending = s.pending.tail ∧
    ((∀ c ∈ s.pending, c.wellFormed = true) → ∀ c ∈ u.pending, c.wellFormed = true)

/-- Every step keeps HBM, SLM, the flash and every scratchpad in their canonical form, so that equal contents are equal data. -/
def Obligations.StepKeepsMemoryCanonical : Prop := ∀ s u : State, s.canonical = true → step s = .next u → u.canonical = true

/-! ### Fetch, dispatch and waiting (05_core_programs.md) -/

/-- INSTRUCTION_FETCH: a fetch that may be made, also in a wait or a replay, and meets no fault appends the eight instructions of its 128 bytes;
nothing else of the core or the block changes but the fetch's own bookkeeping. Where it meets another stream's access, it is made all the same
and the other instruction faults. -/
def Obligations.FetchAppendsEight : Prop :=
  ∀ (t p : Nat) (s : State), let c := s.coreAt t p; let a := c.fetchAddr; let acc := accessRun .fetch .ct a t 1 1 t 0
    s.coresStopped = false → c.task.isSome = true → c.fetchAt ≤ t → c.fetchBuf.length ≤ 24 → c.ended = false →
    (c.st = .run ∨ c.st = .wait ∨ c.st = .replay ∨ c.st = .switch) → (∀ f ∈ c.lastFetch, f < t) →
    a + 128 ≤ spmSize → c.inCacheUnit a 128 = false → c.isCode a 128 = true → c.lostRead a 128 = false →
    let d := { c with fetchBuf := c.fetchBuf ++ (List.range 8).map (fun i => (c.spm.readNat (a + 16 * i) 16, none)), fetchAddr := a + 128,
                      lastFetch := some t, accesses := (c.addAccesses t [acc]).accesses }
    (c.meetings [acc] = [] → ∃ u, exec (.instructionFetch t p .ok) s = .next u ∧ s.onlyCore u t p ∧ u.core p = d) ∧
    (∀ m ∈ (c.meetings [acc]).head?, exec (.instructionFetch t p .ok) s = .next (((s.atC t).setCore p d).loseAccess p t m.1 m.2))

/-- INSTRUCTION_DISPATCH: a legal instruction at the head of the fetch buffer goes, in program order, to the tail of the queue its class
names; a full queue holds it back; an illegal one faults the task at dispatch. The core is the one that R137 and R171 let dispatch: a running
one, or one at the first dispatch of its task. -/
def Obligations.DispatchInOrder : Prop :=
  (∀ (t p w : Nat) (rest : List (Nat × Option Cause)) (i : CoreInstr) (q : QueueId) (s : State) (c : Core),
    s.coresStopped = false → (s.core p).dispatching t = some c → c.fetchBuf = (w, none) :: rest → decodeCore w = some i → coreQueue i = some q →
    (c.queue q).length < 16 →
    ∃ u, exec (.instructionDispatch t p) s = .next u ∧ s.onlyCore u t p ∧
      (u.core p).queue q = c.queue q ++ [.instr i w t] ∧ (∀ r, r ≠ q → (u.core p).queue r = c.queue r) ∧
      ((u.core p).ended = true ↔ c.ended = true ∨ ∃ f, i = .ctEnd f) ∧
      u.core p = { c with fetchBuf := rest, lastDispatch := some t, pc := c.pc + 16, ended := (u.core p).ended, qMx := (u.core p).qMx,
                          qMv := (u.core p).qMv, qVx := (u.core p).qVx, qDt := (u.core p).qDt, qDl := (u.core p).qDl, qCt := (u.core p).qCt }) ∧
  (∀ (t p w : Nat) (rest : List (Nat × Option Cause)) (i : CoreInstr) (q : QueueId) (s : State) (c : Core),
    s.coresStopped = false → (s.core p).dispatching t = some c → c.fetchBuf = (w, none) :: rest → decodeCore w = some i → coreQueue i = some q →
    16 ≤ (c.queue q).length → exec (.instructionDispatch t p) s = .next ((s.atC t).setCore p (c.stopOnFull q t))) ∧
  (∀ (t p w : Nat) (rest : List (Nat × Option Cause)) (s : State) (c : Core),
    s.coresStopped = false → (s.core p).dispatching t = some c → c.fetchBuf = (w, none) :: rest → decodeCore w = none →
    exec (.instructionDispatch t p) s = .next (((s.atC t).setCore p c).coreFault p .illegalEncoding .ct w))

/-- SY_GATE and GATE_OPEN: a legal gate puts its marker at the tail of exactly the queues its mask names, and changes nothing else but the
dispatch's bookkeeping; the marker at the head of a queue opens once TCK has reached its time, and not before. -/
def Obligations.GatesHoldQueues : Prop :=
  (∀ (t p w : Nat) (rest : List (Nat × Option Cause)) (f : SyGate) (s : State) (c : Core),
    s.coresStopped = false → (s.core p).dispatching t = some c → c.fetchBuf = (w, none) :: rest → decodeCore w = some (.syGate f) →
    f.qmask ≠ 0 → f.time.toNat < 2 ^ 31 → f.bound = 0 → f.rsv = 0 → (∀ q, (c.queue q).length < 16) →
    ∃ u, exec (.syGate t p f) s = .next u ∧ s.onlyCore u t p ∧
      (∀ q, (u.core p).queue q = if maskNames f.qmask.toNat q then c.queue q ++ [.gate f.time.toNat] else c.queue q) ∧
      u.core p = { c with fetchBuf := rest, lastDispatch := some t, pc := c.pc + 16, qMx := (u.core p).qMx, qMv := (u.core p).qMv,
                          qVx := (u.core p).qVx, qDt := (u.core p).qDt, qDl := (u.core p).qDl, qCt := (u.core p).qCt }) ∧
  (∀ (t p time : Nat) (q : QueueId) (rest : List QItem) (s : State), let c := s.core p
    c.queue q = .gate time :: rest → (c.st = .run ∨ c.st = .wait) →
    ∃ u, exec (.gateOpen t p q) s = .next u ∧ s.onlyCore u t p ∧
      (time ≤ c.tck t → u.core p = c.setQueue q rest ∧ (u.core p).queue q = rest ∧ ∀ r, r ≠ q → (u.core p).queue r = c.queue r) ∧
      (c.tck t < time → u.core p = c))

/-- SY_WAITC and ARRIVAL_TIMEOUT: a satisfied wait costs its dispatch CCLK and nothing more; an unsatisfied one pauses the core from the next
CCLK; BOUND elapsed CCLK later, a replay meanwhile included, it halts with the arrival-timeout fault naming counter, target and count.
An arrival adds one to its counter and ends the wait it satisfies: the core goes on in the CCLK after it, or after a replay's end. -/
def Obligations.ArrivalCounters : Prop :=
  (∀ (t p w : Nat) (rest : List (Nat × Option Cause)) (f : SyWaitc) (s : State) (c : Core),
    s.coresStopped = false → (s.core p).dispatching t = some c → c.fetchBuf = (w, none) :: rest → decodeCore w = some (.syWaitc f) →
    f.bound ≠ 0 → f.rsv = 0 → let d := { c with fetchBuf := rest, lastDispatch := some t, pc := c.pc + 16 }
    ∃ u, exec (.syWaitc t p f) s = .next u ∧ s.onlyCore u t p ∧
      (serialLt (Table.get (0 : W32) c.arr f.cnt.toNat).toNat f.target.toNat 32 = false → u.core p = d) ∧
      (serialLt (Table.get (0 : W32) c.arr f.cnt.toNat).toNat f.target.toNat 32 = true →
        u.core p = { d with st := .wait, pause := some (.waitc f.cnt.toNat f.target.toNat f.bound.toNat (t + 1)) })) ∧
  (∀ (t p cnt target bound since : Nat) (s : State), let c := s.core p
    c.pause = some (.waitc cnt target bound since) → (c.st = .wait ∨ c.st = .replay) → since + bound ≤ t →
    exec (.arrivalTimeout t p) s =
      .next ((s.atC t).coreFault p .arrivalTimeout .ct 0 [cnt, target, (Table.get (0 : W32) c.arr cnt).toNat])) ∧
  (∀ (c : Core) (cnt t : Nat), c.resetAfter cnt t = false → let d := c.arrive cnt t
    Table.get (0 : W32) d.arr cnt = Table.get (0 : W32) c.arr cnt + 1 ∧ (∀ k, k ≠ cnt → Table.get (0 : W32) d.arr k = Table.get (0 : W32) c.arr k) ∧
    (∀ target bound since, c.pause = some (.waitc cnt target bound since) → (c.st = .wait ∨ c.st = .replay) →
      serialLt (Table.get (0 : W32) c.arr cnt + 1).toNat (BitVec.ofNat 32 target).toNat 32 = false →
      d.pause = none ∧ d.st = (if c.st = .replay then .replay else .run) ∧ d.resumeAt = max (t + 1) c.replayEnd) ∧
    (∀ k target bound since, c.pause = some (.waitc k target bound since) → k ≠ cnt → d.pause = c.pause ∧ d.st = c.st)) ∧
  (∀ (c : Core) (cnt t : Nat), c.resetAfter cnt t = true → c.arrive cnt t = c)

/-! ### The vector engine (04_vector_engine.md) -/

/-- The fifty rows of the common layout: an instruction that issues, is legal and meets no hazard takes one step: registers, tags and
masks become what its function computes, its flags are added to the sticky flags, its port is busy for its occupancy, its result is pending for its
latency, and nothing else of the core or the block changes but the issue's own bookkeeping. -/
def Obligations.VxCommonLayoutCompletes : Prop :=
  ∀ (fn : VxFn) (t p w : Nat) (f : VxOps) (s : State), let c := s.coreAt t p; let r := vxCompute fn f c
    s.issues t p .vx (.vx fn f) w c.portFree.vx [(vxIllegal fn f, .illegalEncoding), (vxHazard fn f t c, .hazard)] [] →
    ∃ u, exec (vxRow fn t p f false) s = .next u ∧ s.onlyCore u t p ∧
      (u.core p).vregs = r.1.vregs ∧ (u.core p).vtags = r.1.vtags ∧ (u.core p).masks = r.1.masks ∧
      (u.core p).vxstat = c.vxstat ||| BitVec.ofNat 32 r.2.bits ∧ (u.core p).portFree = c.portFree.set .vx (t + vxOcc fn) ∧
      (u.core p).qVx = c.qVx.tail ∧ (u.core p).vPending (vxMaskDest fn) f.vd.toNat t = true ∧
      u.core p = { c with vregs := (u.core p).vregs, vtags := (u.core p).vtags, masks := (u.core p).masks, vxstat := (u.core p).vxstat,
                          vxNew := (u.core p).vxNew, portFree := (u.core p).portFree, qVx := (u.core p).qVx, vpend := (u.core p).vpend,
                          vtraps := (u.core p).vtraps, lastIssue := (u.core p).lastIssue, completeAt := (u.core p).completeAt,
                          accesses := (u.core p).accesses }

/-- A lane-wise function writes each unmasked lane of VD with its function of the same lane of its operands; a masked-off lane keeps its old
value, or is written +0 with MZ; every other register and every mask is unchanged. -/
def Obligations.VxLanesUnderMask : Prop :=
  ∀ (fn : VxFn) (f : VxOps) (c : Core) (l : Nat), vxLaneWise fn = true → l < 1024 → let d := (vxCompute fn f c).1
    (d.vreg f.vd.toNat).getD l 0 =
      (if bitAt (c.mask f.msk.toNat) l then
        (vxLane fn f.it f.imm (c.vtag f.va.toNat) ((c.vreg f.va.toNat).getD l 0) (vxBAt c f l) ((c.vreg f.vc.toNat).getD l 0)).1
      else if f.mz then 0 else (c.vreg f.vd.toNat).getD l 0) ∧
    (∀ r, r ≠ f.vd.toNat → d.vreg r = c.vreg r) ∧ d.masks = c.masks

/-- INT32 lane arithmetic (R118). ADD, SUB, MUL, ABS and NEG saturate: the result is the exact integer result when it is in range, with no flag, and
otherwise the nearest end of the range, with SAT. A shift counts by the low 8 bits of B and raises no flag; 32 or more gives 0, or the sign fill
for SHRA. -/
def Obligations.IntArithmeticSaturates : Prop :=
  (∀ a b imm x : W32, ∀ tag : Nat, ∀ fn ∈ [VxFn.add, VxFn.sub, VxFn.mul, VxFn.abs, VxFn.neg],
    let e : Int := match fn with
      | .add => a.toInt + b.toInt | .sub => a.toInt - b.toInt | .mul => a.toInt * b.toInt | .abs => a.toInt.natAbs | _ => -a.toInt
    let r := vxLane fn true imm tag a b x
    (-(2 ^ 31) ≤ e → e < 2 ^ 31 → r.1.toInt = e ∧ r.2 = {}) ∧ (2 ^ 31 ≤ e → r.1.toInt = 2 ^ 31 - 1 ∧ r.2 = { sat := true }) ∧
      (e < -(2 ^ 31) → r.1.toInt = -(2 ^ 31) ∧ r.2 = { sat := true })) ∧
  (∀ a b imm x : W32, ∀ tag : Nat, let n := b.toNat % 256
    let l := vxLane .shl true imm tag a b x; let u := vxLane .shrl true imm tag a b x; let v := vxLane .shra true imm tag a b x
    l.2 = {} ∧ u.2 = {} ∧ v.2 = {} ∧
      (n < 32 → l.1.toNat = a.toNat * 2 ^ n % 2 ^ 32 ∧ u.1.toNat = a.toNat / 2 ^ n ∧ v.1.toInt = a.toInt / 2 ^ n) ∧
      (32 ≤ n → l.1 = 0 ∧ u.1 = 0 ∧ v.1.toInt = if a.toInt < 0 then -1 else 0))

/-- An instruction of the common layout whose operand, mask or destination has a pending write faults as a hazard, and no register, mask or
scratchpad byte is written. -/
def Obligations.VxHazardWritesNothing : Prop :=
  ∀ (fn : VxFn) (t p w : Nat) (f : VxOps) (res : Bool) (s : State), let c := s.coreAt t p
    s.issues t p .vx (.vx fn f) w c.portFree.vx [(vxIllegal fn f, .illegalEncoding)] [] → vxHazard fn f t c = true →
    ∃ u, exec (vxRow fn t p f res) s = .next u ∧ u = ((s.atC t).setCore p c).coreFault p .hazard .vx w ∧ (u.core p).st = .halted ∧
      (u.core p).vregs = c.vregs ∧ (u.core p).masks = c.masks ∧ (u.core p).spm = c.spm

/-- VX_RDA, VX_QNT, VX_DQT, VX_LD, VX_ST: an instruction that issues completes. RDA, DQT and LD write their register under the mask and no other
register, no mask and no byte of the scratchpad; QNT and ST write no register and no mask.
What VX_ST stores: with no other act due, element (i, j) of each unmasked lane stands at row i of the region once the store has been made; every
byte outside the elements of unmasked lanes reads as it would without the store. VX_QNT leaves every byte outside its rows and scale rows so. -/
def Obligations.VxMovesComplete : Prop :=
  (∀ (t p w : Nat) (f : VxRda) (s : State) (lanes : List LaneRes), let c := s.coreAt t p
    s.issues t p .vx (.vxRda f) w c.portFree.vx (rdaChecks t f false c) [] → (rdaConvert c f).map (fun r => r.2.2.1) = some lanes →
    ∃ u, exec (.vxRda t p f false) s = .next u ∧
      (∀ k, k ≠ p → u.core k = s.core k) ∧ u = { s.atC t with cores := u.cores, cfe := u.cfe } ∧ (rdaReplays c f = 0 → u.cfe = s.cfe) ∧
      (u.core p).vreg f.vd.toNat = maskMerge (c.mask f.msk.toNat) f.mz (c.vreg f.vd.toNat) (lanes.map (·.1)) ∧
      (∀ r, r ≠ f.vd.toNat → (u.core p).vreg r = c.vreg r) ∧ (u.core p).portFree.vx = t + (4 + 4 * rdaReplays c f) ∧ (u.core p).qVx = c.qVx.tail ∧
      ((u.core p).tile f.acc.toNat).satReplays = rdaReplays c f ∧ (∀ k, k ≠ f.acc.toNat → (u.core p).tile k = c.tile k) ∧
      u.core p = { c with vregs := (u.core p).vregs, vtags := (u.core p).vtags, tiles := (u.core p).tiles, hist := (u.core p).hist,
                          hgctl := (u.core p).hgctl, hgOvfAt := (u.core p).hgOvfAt, vxstat := (u.core p).vxstat, vxNew := (u.core p).vxNew,
                          vpend := (u.core p).vpend, vtraps := (u.core p).vtraps, portFree := (u.core p).portFree, qVx := (u.core p).qVx,
                          lastIssue := (u.core p).lastIssue, completeAt := (u.core p).completeAt, accesses := (u.core p).accesses }) ∧
  (∀ (t p w : Nat) (f : VxQnt) (s : State), let c := s.coreAt t p
    s.issues t p .vx (.vxQnt f) w c.portFree.vx (qntChecks t f false c) (qntAccesses t f c w) →
    ∃ u, exec (.vxQnt t p f false) s = .next u ∧ s.onlyCore u t p ∧
      c.spmKept (u.core p) (fun a => ∃ i, i < 16 ∧ ((qntBase f + i * qntStride f ≤ a ∧ a < qntBase f + i * qntStride f + qntRow f) ∨
        (f.scl ≠ 0 ∧ f.saddr.toNat + i * f.sstr.toNat ≤ a ∧ a < f.saddr.toNat + i * f.sstr.toNat + qntGroups f * scaleBytes f.scl.toNat))) ∧
      (u.core p).qVx = c.qVx.tail ∧ (u.core p).portFree.vx = t + qntOcc f ∧
      u.core p = { c with due := (u.core p).due, hist := (u.core p).hist, hgctl := (u.core p).hgctl, hgOvfAt := (u.core p).hgOvfAt,
                          vxstat := (u.core p).vxstat, vxNew := (u.core p).vxNew, vtraps := (u.core p).vtraps, portFree := (u.core p).portFree,
                          qVx := (u.core p).qVx, lastIssue := (u.core p).lastIssue, completeAt := (u.core p).completeAt,
                          accesses := (u.core p).accesses }) ∧
  (∀ (t p w : Nat) (f : VxDqt) (s : State) (lanes : List LaneRes), let c := s.coreAt t p
    s.issues t p .vx (.vxDqt f) w c.portFree.vx (dqtChecks t f false c) (dqtAccesses t f c w) → dqtLanes c f = some lanes →
    ∃ u, exec (.vxDqt t p f .ok false) s = .next u ∧ s.onlyCore u t p ∧
      (u.core p).vreg f.vd.toNat = maskMerge (c.mask f.msk.toNat) f.mz (c.vreg f.vd.toNat) (lanes.map (·.1)) ∧
      (∀ r, r ≠ f.vd.toNat → (u.core p).vreg r = c.vreg r) ∧ (u.core p).qVx = c.qVx.tail ∧ (u.core p).portFree.vx = t + 8 ∧
      u.core p = { c with vregs := (u.core p).vregs, vtags := (u.core p).vtags, vxstat := (u.core p).vxstat, vxNew := (u.core p).vxNew,
                          vpend := (u.core p).vpend, vtraps := (u.core p).vtraps, portFree := (u.core p).portFree, qVx := (u.core p).qVx,
                          lastIssue := (u.core p).lastIssue, completeAt := (u.core p).completeAt, accesses := (u.core p).accesses }) ∧
  (∀ (t p w : Nat) (f : VxLs) (s : State), let c := s.coreAt t p; let n := extent 16 (64 * lsElem f) (lsStride f)
    s.issues t p .vx (.vxLd f) w c.portFree.vx [(lsIllegal f, .illegalEncoding)] (lsAccesses t f c w) → c.vPending false f.vr.toNat t = false →
    c.vPending true f.msk.toNat t = false → c.inCacheUnit (lsBase f) n = false → c.lostRead (lsBase f) n = false →
    ∃ u, exec (.vxLd t p f .ok false) s = .next u ∧ s.onlyCore u t p ∧
      (u.core p).vreg f.vr.toNat = maskMerge (c.mask f.msk.toNat) f.mz (c.vreg f.vr.toNat) (ldLanes c f) ∧
      (∀ r, r ≠ f.vr.toNat → (u.core p).vreg r = c.vreg r) ∧ (u.core p).qVx = c.qVx.tail ∧ (u.core p).portFree.vx = t + lsOcc f ∧
      (u.core p).vxstat = c.vxstat ∧
      u.core p = { c with vregs := (u.core p).vregs, vtags := (u.core p).vtags, vxNew := (u.core p).vxNew, vpend := (u.core p).vpend,
                          portFree := (u.core p).portFree, qVx := (u.core p).qVx, lastIssue := (u.core p).lastIssue,
                          completeAt := (u.core p).completeAt, accesses := (u.core p).accesses }) ∧
  (∀ (t p w : Nat) (f : VxLs) (s : State), let c := s.coreAt t p; let n := extent 16 (64 * lsElem f) (lsStride f)
    let at' : Nat → Nat := fun l => lsBase f + l / 64 * lsStride f + l % 64 * lsElem f
    s.issues t p .vx (.vxSt f) w c.portFree.vx [(lsIllegal f || f.mz, .illegalEncoding)] (lsAccesses t f c w) →
    c.vPending false f.vr.toNat t = false → c.vPending true f.msk.toNat t = false → c.inCacheUnit (lsBase f) n = false →
    ∃ u, exec (.vxSt t p f false) s = .next u ∧ s.onlyCore u t p ∧
      c.spmKept (u.core p) (fun a => ∃ l, l < 1024 ∧ bitAt (c.mask f.msk.toNat) l = true ∧ at' l ≤ a ∧ a < at' l + lsElem f) ∧
      (c.due = [] → ∀ T l, t + stLat f < T → l < 1024 → bitAt (c.mask f.msk.toNat) l = true →
        ((u.core p).landed T).spm.readNat (at' l) (lsElem f) = (stElem f ((c.vreg f.vr.toNat).getD l 0)).1) ∧
      (u.core p).qVx = c.qVx.tail ∧ (u.core p).portFree.vx = t + lsOcc f ∧
      u.core p = { c with due := (u.core p).due, vxstat := (u.core p).vxstat, vxNew := (u.core p).vxNew, vtraps := (u.core p).vtraps,
                          portFree := (u.core p).portFree, qVx := (u.core p).qVx, lastIssue := (u.core p).lastIssue,
                          completeAt := (u.core p).completeAt, accesses := (u.core p).accesses })

/-- ARITH_FLAG_TRAP: when the results of an instruction that raised an enabled flag become readable, the command faults with the cause
arithmetic flag, the instruction's word and its flags, and the core halts. -/
def Obligations.ArithmeticFlagTrap : Prop :=
  ∀ (t p : Nat) (v : VTrap) (s : State), (s.core p).vtraps.find? (fun x => decide (x.time ≤ t)) = some v → (s.core p).st ≠ .halted →
    (s.core p).st ≠ .idle →
    exec (.arithFlagTrap t p) s = .next ((s.atC t).coreFault p .arithFlag .vx v.word [v.flags]) ∧
      (((s.atC t).coreFault p .arithFlag .vx v.word [v.flags]).core p).st = .halted

/-! ### The matrix engines (03_matrix_array.md, 02_numerics.md) -/

/-- MX_LDW fills the buffer it names with the tile of its operands; the buffer is ready after the load's time, the other buffer stays.
MX_MUL and MV_MUL: a pass that issues completes: its engine's port is busy for its rows, the tile it names and its engine's operation change,
and an MX_MUL gives its buffer free once its last row has been used. Nothing else of the core or the block changes but the issue's bookkeeping: no
byte of the scratchpad, no register of the vector engine, no operation of the other engine. What MX_LDW loads has at most 128 columns, and for
BF16 at most 64 rows and columns. -/
def Obligations.MatrixLoadsAndPasses : Prop :=
  (∀ (t p w : Nat) (f : MxLdw) (s : State), let c := s.coreAt t p
    s.issues t p .mx (.mxLdw f) w c.loadFree (ldwChecks t f c) (ldwAccesses t f c w) →
    ∃ u, exec (.mxLdw t p f .ok) s = .next u ∧ s.onlyCore u t p ∧ ((u.core p).wb f.wb).held = c.loadTile f ∧ (c.loadTile f).isSome = true ∧
      ((u.core p).wb f.wb).readyAt = t + ldwReady f ∧ (u.core p).wb (!f.wb) = c.wb (!f.wb) ∧ (u.core p).loadFree = t + ldwBusy f ∧
      (u.core p).qMx = c.qMx.tail ∧
      u.core p = { c with wb0 := (u.core p).wb0, wb1 := (u.core p).wb1, lastLdw0 := (u.core p).lastLdw0, lastLdw1 := (u.core p).lastLdw1,
                          loadFree := (u.core p).loadFree, qMx := (u.core p).qMx, lastIssue := (u.core p).lastIssue,
                          completeAt := (u.core p).completeAt, accesses := (u.core p).accesses }) ∧
  (∀ (t p w : Nat) (f : MxMul) (s : State), let c := s.coreAt t p; let k := f.acc.toNat
    s.issues t p .mx (.mxMul f) w c.portFree.mx (mulChecks t (s.reverses p) f c) (mulAccesses t f c w) →
    (∀ h ∈ (c.wb f.wb).held, h.nv ≤ 128 ∧ (h.fmt = 5 → h.nv ≤ 64 ∧ h.kv ≤ 64)) →
    ∃ u, exec (.mxMul t p f .ok []) s = .next u ∧ s.onlyCore u t p ∧ (u.core p).acm = (mulEffect t w f [] c).acm ∧
      (∀ i, (i < k * 16384 ∨ k * 16384 + 16384 ≤ i) → Table.get (0 : W128) (u.core p).acm i = Table.get (0 : W128) c.acm i) ∧
      (∀ j, j ≠ k → (u.core p).tile j = c.tile j) ∧ (u.core p).portFree.mx = t + mulRows f ∧ (u.core p).qMx = c.qMx.tail ∧
      ((u.core p).wb f.wb).releaseAt = max (c.wb f.wb).releaseAt (t + mulRows f - 1 + 9) ∧ (u.core p).wb (!f.wb) = c.wb (!f.wb) ∧
      u.core p = { c with acm := (u.core p).acm, tiles := (u.core p).tiles, mxaOpen := (u.core p).mxaOpen, mxaDone := (u.core p).mxaDone,
                          wb0 := (u.core p).wb0, wb1 := (u.core p).wb1, portFree := (u.core p).portFree, qMx := (u.core p).qMx,
                          lastIssue := (u.core p).lastIssue, completeAt := (u.core p).completeAt, accesses := (u.core p).accesses }) ∧
  (∀ (t p w : Nat) (f : MvMul) (s : State), let c := s.coreAt t p; let k := f.acc.toNat
    s.issues t p .mv (.mvMul f) w c.portFree.mv (mvChecks t f c) (mvAccesses t f c w) →
    ∃ u, exec (.mvMul t p f .ok []) s = .next u ∧ s.onlyCore u t p ∧ (u.core p).acm = (mvEffect t w f [] c).acm ∧
      (∀ i, (i < k * 16384 ∨ k * 16384 + 16384 ≤ i) → Table.get (0 : W128) (u.core p).acm i = Table.get (0 : W128) c.acm i) ∧
      (∀ j, j ≠ k → (u.core p).tile j = c.tile j) ∧ (u.core p).portFree.mv = t + 4 * mvV f ∧ (u.core p).qMv = c.qMv.tail ∧
      u.core p = { c with acm := (u.core p).acm, tiles := (u.core p).tiles, mvpOpen := (u.core p).mvpOpen, mvpDone := (u.core p).mvpDone,
                          portFree := (u.core p).portFree, qMv := (u.core p).qMv, lastIssue := (u.core p).lastIssue,
                          completeAt := (u.core p).completeAt, accesses := (u.core p).accesses }) ∧
  (∀ (f : MxLdw) (c : Core) (h : Held), ldwIllegal f = false → c.loadTile f = some h → h.nv ≤ 128 ∧ (h.fmt = 5 → h.nv ≤ 64 ∧ h.kv ≤ 64))

/-- Adding a pass into a tile changes no slot of another tile, and adds to a slot exactly the sum of its contributions modulo 2^128. -/
def Obligations.AccumulatorSlots : Prop :=
  ∀ (c : Core) (k : Nat) (l : List (Nat × Int)),
    (∀ i, (∀ x ∈ l, i ≠ k * 16384 + x.1) → Table.get (0 : W128) (c.addSlots k l).acm i = Table.get (0 : W128) c.acm i) ∧
    (∀ j, Table.get (0 : W128) (c.addSlots k l).acm (k * 16384 + j) =
      Table.get (0 : W128) c.acm (k * 16384 + j) + BitVec.ofInt 128 ((l.filter (fun x => x.1 == j)).map (·.2)).sum)

/-- The integer element formats are two's complement (R48); four-bit elements lie two to a byte, the even one in the low bits, and wider ones
least significant byte first (R49). -/
def Obligations.ElementFormats : Prop :=
  (∀ b : BitVec 8, elemValue 0 b.toNat = some ⟨b.toInt, 0⟩ ∧ -128 ≤ b.toInt ∧ b.toInt ≤ 127) ∧
  (∀ b : BitVec 4, elemValue 1 b.toNat = some ⟨b.toInt, 0⟩ ∧ -8 ≤ b.toInt ∧ b.toInt ≤ 7) ∧
  (∀ b : BitVec 32, elemValue 7 b.toNat = some ⟨b.toInt, 0⟩ ∧ -(2 ^ 31) ≤ b.toInt ∧ b.toInt ≤ 2 ^ 31 - 1) ∧
  (∀ (c : Core) (f a i : Nat), fmtWidth f = 4 →
    c.elem f a (2 * i) = bits (c.spm.read (a + i)).toNat 3 0 ∧ c.elem f a (2 * i + 1) = bits (c.spm.read (a + i)).toNat 7 4) ∧
  (∀ (c : Core) (f a i n : Nat), fmtWidth f = 8 * n → 1 ≤ n →
    c.elem f a i < 2 ^ (8 * n) ∧ ∀ j, j < n → bits (c.elem f a i) (8 * j + 7) (8 * j) = (c.spm.read (a + i * n + j)).toNat)

/-- Truncation of a product (R58): the integer that enters accumulation has the product's sign and the floor of its magnitude at the anchor. -/
def Obligations.ProductTruncation : Prop :=
  ∀ (m e a : Int), let p : Dy := ⟨m, e⟩
    (a ≤ e → (p.trunc a).1 = m * 2 ^ (e - a).toNat ∧ (p.trunc a).2 = false) ∧
    (e < a → (p.trunc a).1 = (if m < 0 then -1 else 1) * ((m.natAbs / 2 ^ (a - e).toNat : Nat) : Int) ∧
      ((p.trunc a).2 = true ↔ m.natAbs % 2 ^ (a - e).toNat ≠ 0))

/-- OPERATION_JUDGEMENT, of the oldest operation whose judgement is due, which is not in a rally tree. With no trigger and matching checksums it is
complete: its tile reads DONE with its anchor, replays and TRUNC, and every other tile, the accumulators and the scratchpad stay. One that
triggers with its replays used up, or with no anchor left, faults with the cause replay exhausted. Any other that triggers replays: the core is in
REPLAY and only its matrix engines' state has changed. A halted core replays nothing. -/
def Obligations.Judgement : Prop :=
  (∀ (t p : Nat) (e : MatEngine) (o : MatOp) (s : State), let c := s.coreAt t p
    (c.closedOps e).find? (fun x => decide (x.judgeAt ≤ t) && !x.judged) = some o → o.rally = none →
    o.trigger = false → c.sumTrigger o.tile = false → c.checksOk e o = true →
    ∃ u, exec (.operationJudgement t p e) s = .next u ∧ s.onlyCore u t p ∧ ((u.core p).tile o.tile).done = true ∧
      ((u.core p).tile o.tile).anchor = o.anchor ∧ ((u.core p).tile o.tile).replays = o.replays ∧ ((u.core p).tile o.tile).trunc = o.trunc ∧
      (∀ k, k ≠ o.tile → (u.core p).tile k = c.tile k) ∧ (∀ y ∈ (u.core p).closedOps e, y.tile ≠ o.tile) ∧ (c.st = .run → (u.core p).st = .run) ∧
      u.core p = { c with tiles := (u.core p).tiles, mxaDone := (u.core p).mxaDone, mvpDone := (u.core p).mvpDone, st := (u.core p).st,
                          replaySince := (u.core p).replaySince, replayEnd := (u.core p).replayEnd, resumeAt := (u.core p).resumeAt,
                          pausedTotal := (u.core p).pausedTotal }) ∧
  (∀ (t p : Nat) (e : MatEngine) (o : MatOp) (s : State), let c := s.coreAt t p
    (c.closedOps e).find? (fun x => decide (x.judgeAt ≤ t) && !x.judged) = some o → c.st ≠ .halted → o.rally = none →
    (o.trigger = true ∨ c.sumTrigger o.tile = true) → (o.replays = o.rmax ∨ 383 < o.anchor + o.astep) →
    exec (.operationJudgement t p e) s = .next (((s.atC t).modCore p (fun x => x.landed t)).coreFault p .replayExhausted
      (match e with | .mxa => .mx | .mvp => .mv) o.blame.1 o.blame.2.1 o.blame.2.2)) ∧
  (∀ (t p : Nat) (e : MatEngine) (o : MatOp) (s : State) (d : Core), let c := s.coreAt t p; let ref := s.taskRef p
    (c.closedOps e).find? (fun x => decide (x.judgeAt ≤ t) && !x.judged) = some o → c.st ≠ .halted → o.rally = none →
    (o.trigger = true ∨ c.sumTrigger o.tile = true) → o.replays ≠ o.rmax → o.anchor + o.astep ≤ 383 →
    c.startReplay e o (o.anchor + o.astep) t = some d →
    exec (.operationJudgement t p e) s = .next ((((s.atC t).setCore p d).modCmd ref (fun x => { x with arepl := min (x.arepl + 1) 15 })).recordReason
      ref 0x01) ∧ d.st = .replay ∧ d.replaySince.isSome = true ∧
      d = { c with acm := d.acm, tiles := d.tiles, mxaDone := d.mxaDone, mvpDone := d.mvpDone, wb0 := d.wb0, wb1 := d.wb1, st := d.st,
                   replaySince := d.replaySince }) ∧
  (∀ (t p : Nat) (e : MatEngine) (o : MatOp) (s : State), let c := s.coreAt t p
    (c.closedOps e).find? (fun x => decide (x.judgeAt ≤ t) && !x.judged) = some o → c.st = .halted → o.rally = none →
    (o.trigger = true ∨ c.sumTrigger o.tile = true) →
    exec (.operationJudgement t p e) s = .next ((s.atC t).modCore p (fun x => x.landed t)))

/-- MX_WO: a write-out that issues completes. Its 128 rows, for INT32 after the saturation replays, and the tile scale byte are the only bytes
of the scratchpad it writes; with no other act due, row m stands in memory once its write has been made: the rounded elements of the tile's row
below VROWS, and +0 at or beyond VROWS. The tile takes the final OSH and the count of saturation replays; the accumulators keep their values and
no register of the vector engine changes. -/
def Obligations.WriteOut : Prop :=
  ∀ (t p w k : Nat) (f : MxWo) (s : State) (osh : Int) (codes : List Nat) (osat : Bool), let c := s.coreAt t p; let nv := woNv f
    let len := rowBytes f.fmto.toNat nv
    s.issues t p .mx (.mxWo f) w c.woFree (woChecks t f c) (woAccesses t f c w) → woConvert c f = some (osh, k, codes, osat) →
    ∃ u, exec (.mxWo t p f) s = .next u ∧ (∀ j, j ≠ p → u.core j = s.core j) ∧ u = { s.atC t with cores := u.cores, cfe := u.cfe } ∧
      (k = 0 → u.cfe = s.cfe) ∧
      c.spmKept (u.core p) (fun a => (∃ m, m < 128 ∧ woBase f + m * woStride f ≤ a ∧ a < woBase f + m * woStride f + len) ∨
        (f.fmto = 7 ∧ a = f.tsaddr.toNat)) ∧
      (c.due = [] → len ≤ woStride f →
        (f.fmto = 7 → f.tsaddr.toNat < woBase f ∨ woBase f + 127 * woStride f + len ≤ f.tsaddr.toNat) →
        ∀ T m, m < 128 → t + 10 + 128 * k + m < T → ((u.core p).landed T).spm.readBytes (woBase f + m * woStride f) len =
          packRow (fmtWidth f.fmto.toNat) (if m < f.vrows.toNat then (codes.drop (m * nv)).take nv else List.replicate nv 0)) ∧
      ((u.core p).tile f.acc.toNat).osh = osh ∧ ((u.core p).tile f.acc.toNat).satReplays = k ∧ ((u.core p).tile f.acc.toNat).osat = osat ∧
      (∀ j, j ≠ f.acc.toNat → (u.core p).tile j = c.tile j) ∧ (u.core p).woFree = t + 128 * (1 + k) ∧ (u.core p).qMx = c.qMx.tail ∧
      u.core p = { c with due := (u.core p).due, tiles := (u.core p).tiles, hist := (u.core p).hist, hgctl := (u.core p).hgctl,
                          hgOvfAt := (u.core p).hgOvfAt, woFree := (u.core p).woFree, qMx := (u.core p).qMx, lastIssue := (u.core p).lastIssue,
                          completeAt := (u.core p).completeAt, accesses := (u.core p).accesses }

/-! ### The data movers (05_core_programs.md) -/

/-- DM_XFER_COPY, DM_XFER_TRANSPOSE, DM_LITE_PUT, DM_LITE_GET: a legal instruction below its limit of outstanding transfers leaves the queue and
becomes one outstanding transfer of its core's command; no byte moves yet, in a scratchpad or in memory.
DM_SKIM and DM_COPY: with no other act due, the destination range holds the repeated pattern, or the source bytes, once the move has been made;
every scratchpad byte outside the destination reads as it would without it, and no register of the vector engine changes. A DM_COPY from a block
that fails its Seal faults. -/
def Obligations.DataMoves : Prop :=
  (∀ (tr : Bool) (t p w : Nat) (f : DmXfer) (s : State), let c := s.coreAt t p
    s.issues t p .dt (.dmXfer f) w c.portFree.dt [] [] → s.fullOut p < 4 → (c.descMode f == 1) = tr → f.rsv = 0 → f.desc.toNat % 64 = 0 →
    f.desc.toNat + 64 ≤ spmSize → descLegal c (c.descriptor f.desc.toNat) = true → c.inCacheUnit f.desc.toNat 64 = false →
    c.lostRead f.desc.toNat 64 = false →
    ∃ u, exec (if tr then .dmXferTranspose t p f .ok else .dmXferCopy t p f .ok) s = .next u ∧
      u = { s.atC t with cores := u.cores, mem := { s.mem with nextXfer := s.mem.nextXfer + 1, xfers := s.mem.xfers ++
        [xferOf s.mem.nextXfer p (s.taskRef p) (c.descriptor f.desc.toNat) (c.spm.readBytes f.desc.toNat 64)] } } ∧
      (∀ k, k ≠ p → u.core k = s.core k) ∧ (u.core p).qDt = c.qDt.tail ∧
      u.core p = { c with qDt := c.qDt.tail, lastIssue := (u.core p).lastIssue, portFree := (u.core p).portFree, completeAt := (u.core p).completeAt,
                          accesses := (u.core p).accesses }) ∧
  (∀ (get : Bool) (t p w : Nat) (f : DmLite) (s : State), let c := s.coreAt t p
    s.issues t p .dt (if get then .dmLiteGet f else .dmLitePut f) w c.portFree.dt [] [] → s.liteOut p < 16 → f.rsv = 0 →
    f.laddr.toNat + f.lenm1.toNat + 1 ≤ spmSize →
    ∃ u, exec (if get then .dmLiteGet t p f else .dmLitePut t p f) s = .next u ∧
      u = { s.atC t with cores := u.cores, mem := { s.mem with nextXfer := s.mem.nextXfer + 1, xfers := s.mem.xfers ++
        [liteXfer get s.mem.nextXfer p (s.taskRef p) w f] } } ∧
      (∀ k, k ≠ p → u.core k = s.core k) ∧ (u.core p).qDt = c.qDt.tail ∧
      u.core p = { c with qDt := c.qDt.tail, lastIssue := (u.core p).lastIssue, portFree := (u.core p).portFree, completeAt := (u.core p).completeAt,
                          accesses := (u.core p).accesses }) ∧
  (∀ (t p w : Nat) (f : DmLocal) (s : State), let c := s.coreAt t p
    s.issues t p .dl (.dmSkim f) w c.portFree.dl [] (chunkRuns t (dlDst f) (dlLen f) w (fun i => i)) → f.rsv = 0 → f.saddr = 0 →
    chunksOneBank (dlDst f) (dlLen f) = true → c.inCacheUnit (dlDst f) (dlLen f) = false →
    ∃ u, exec (.dmSkim t p f) s = .next u ∧ s.onlyCore u t p ∧ c.spmKept (u.core p) (fun a => dlDst f ≤ a ∧ a < dlDst f + dlLen f) ∧
      (c.due = [] → ∀ T, t + dlChunks f ≤ T → ∀ a, dlDst f ≤ a → a < dlDst f + dlLen f →
        ((u.core p).landed T).spm.read a = (leBytes 4 f.pat.toNat).getD ((a - dlDst f) % 4) 0) ∧
      (u.core p).qDl = c.qDl.tail ∧ (u.core p).portFree.dl = t + dlChunks f ∧
      u.core p = { c with due := (u.core p).due, qDl := c.qDl.tail, lastIssue := (u.core p).lastIssue, portFree := (u.core p).portFree,
                          completeAt := (u.core p).completeAt, accesses := (u.core p).accesses }) ∧
  (∀ (t p w : Nat) (f : DmLocal) (s : State), let c := s.coreAt t p
    s.issues t p .dl (.dmCopy f) w c.portFree.dl [] (copyAccesses t f c w) → f.rsv = 0 → f.pat = 0 → chunksOneBank (dlDst f) (dlLen f) = true →
    chunksOneBank (dlSrc f) (dlLen f) = true → (dlSrc f + dlLen f ≤ dlDst f ∨ dlDst f + dlLen f ≤ dlSrc f) →
    c.inCacheUnit (dlDst f) (dlLen f) = false → c.inCacheUnit (dlSrc f) (dlLen f) = false → c.lostRead (dlSrc f) (dlLen f) = false →
    (copyStop f c = none →
      ∃ u, exec (.dmCopy t p f .ok) s = .next u ∧ s.onlyCore u t p ∧ c.spmKept (u.core p) (fun a => dlDst f ≤ a ∧ a < dlDst f + dlLen f) ∧
        (c.due = [] → ∀ T i, t + 2 * dlChunks f ≤ T → i < dlLen f → ((u.core p).landed T).spm.read (dlDst f + i) = c.spm.read (dlSrc f + i)) ∧
        (u.core p).qDl = c.qDl.tail ∧ (u.core p).portFree.dl = t + 2 * dlChunks f ∧
        u.core p = { c with due := (u.core p).due, qDl := c.qDl.tail, lastIssue := (u.core p).lastIssue, portFree := (u.core p).portFree,
                            completeAt := (u.core p).completeAt, accesses := (u.core p).accesses }) ∧
    (copyStop f c ≠ none → ∃ u, exec (.dmCopy t p f .ok) s = .next u ∧ (u.core p).st = .halted ∧ (∀ k, k ≠ p → u.core k = s.core k)))

/-- UNIT_ARRIVAL: a moving transfer whose next unit is ready (its runs resolve, nothing must be awaited) and whose bytes are read and pass every
check has that unit written to its places, and no other byte of any scratchpad, of HBM or of SLM changes: a scratchpad byte reads as the acts due by
now leave it. The transfer then goes on to its next unit, or is delivered after its last.
A run of a unit that lies in a scratchpad, or in HBM or SLM, stands there once it is written. -/
def Obligations.UnitsArrive : Prop :=
  (∀ (t tc id : Nat) (fnd : UnitFinding) (oldBad : Bool) (x : Xfer) (s : State) (runs : List (Place × Nat × List Byte)), let y := s.atBC t tc
    let r := andThen (y.unitReady x x.next) (fun z l => z.unitBytes x x.next fnd oldBad l)
    y.xfer id = some x → x.st = .moving → x.next < x.units → r.2 = .ok runs →
    ∃ u, exec (.unitArrival t tc id fnd oldBad) s = .next u ∧ u = (r.1.landUnit tc x x.next runs).checkAtomic id ∧
      (∀ p b, (∀ q ∈ runs, ∀ off, q.1 = .spm p off → b < off ∨ off + q.2.2.length ≤ b) → (u.coreNow p).spm.read b = (r.1.coreNow p).spm.read b) ∧
      (∀ a, (∀ q ∈ runs, ∀ d, q.1 = .dram d → a < d ∨ d + q.2.2.length ≤ a) → u.mem.dram.read a = r.1.mem.dram.read a)) ∧
  (∀ (s : State) (x : Xfer) (k : Nat), let u := s.nextUnit x k
    (∀ p, u.core p = s.core p) ∧ u.mem.dram = s.mem.dram ∧
    u.mem.xfers.map (fun y => (y.id, y.next, y.st)) = s.mem.xfers.map (fun y => if y.id = x.id then
      (y.id, k + 1, if y.st = .moving ∧ x.units ≤ k + 1 then .delivered else y.st) else (y.id, y.next, y.st))) ∧
  (∀ (s : State) (x : Xfer) (k c off a : Nat) (last : Bool) (bs : List Byte), bs.length ≤ 4096 →
    let u := s.deliverRun x k last (.spm c off) a bs
    (∀ i, i < bs.length → (u.core c).spm.read (off + i) = bs.getD i 0) ∧
    (bs ≠ [] → ∀ b, b < off ∨ off + bs.length ≤ b → (u.core c).spm.read b = (s.coreNow c).spm.read b) ∧
    (∀ p, p ≠ c → u.core p = s.core p) ∧ u.mem = s.mem) ∧
  (∀ (s : State) (x : Xfer) (k d a : Nat) (last : Bool) (bs : List Byte), bs ≠ [] → bs.length ≤ 4096 →
    s.placeOf d bs.length = some (.dram d) →
    let u := s.deliverRun x k last (.dram d) a bs
    (∀ i, i < bs.length → u.mem.dram.read (d + i) = bs.getD i 0) ∧
    (∀ b, b < d ∨ d + bs.length ≤ b → u.mem.dram.read b = s.mem.dram.read b) ∧ (∀ p, (u.core p).spm = (s.core p).spm))

/-- SOURCE_RELEASE: a transfer whose remaining source can be read has read its last source byte: it keeps what it read, and counts once on its
source counter where it names one; no byte of memory or of a scratchpad changes. TRANSFER_ACK: a delivered, released transfer with no unit
unacknowledged and no update request still to be combined stops being outstanding, and nothing else changes. -/
def Obligations.TransferEnds : Prop :=
  (∀ (t tc id : Nat) (fnd : UnitFinding) (x : Xfer) (s : State) (got : List (Nat × List Byte)), let y := s.atBC t tc; let r := y.readRest x fnd
    y.xfer id = some x → x.released = false → x.st ≠ .failed → r.2 = .ok got →
    ∃ u, exec (.sourceRelease t tc ⟨id, fnd⟩) s = .next u ∧
      u = { r.1 with cores := u.cores, mem := { r.1.mem with xfers := r.1.mem.xfers.map (fun z => if z.id = id then
        { z with released := true, got := got } else z) } } ∧
      (∀ p, (u.core p).spm = (r.1.core p).spm) ∧ (x.scen = false → u.cores = r.1.cores) ∧
      (x.scen = true → x.pos < 144 → u.core x.pos = (r.1.core x.pos).arrive x.scnt tc ∧ ∀ p, p ≠ x.pos → u.core p = r.1.core p)) ∧
  (∀ (t id : Nat) (x : Xfer) (s : State), s.xfer id = some x → x.st = .delivered → x.sent = [] → x.released = true → s.combining id = false →
    exec (.transferAck t id) s = .next ((s.atB t).modMem (fun m =>
      { m with xfers := m.xfers.filter (fun y => y.id != id), ports := m.ports.filter (fun r => r.xfer != id || r.whole) }))) ∧
  (∀ (t id : Nat) (x : Xfer) (s : State), s.xfer id = some x → x.st = .delivered → (x.sent ≠ [] ∨ x.released = false ∨ s.combining id = true) →
    exec (.transferAck t id) s = .next (s.atB t))

/-- PAGE_WALK: the walk that a transfer's slot waits on completes; its miss and its engine are free. A walk that reaches a leaf fills the entry, as
most recently used, into the TLB of every translation unit that asked and into its walker's second-level TLB, unless an invalidation has passed
it in flight, and gives each waiting slot its page; a walk that ends in a fault fills none. -/
def Obligations.PageWalkFills : Prop :=
  (∀ (t xu dva id : Nat) (ue : Option Nat) (s : State) (m : Miss), (s.atB t).walking xu dva id = some m →
    let r := ((s.atB t).endMiss m).pageWalk m.die (m.slots.map (fun w => w.1)).eraseDups m.stale (m.page * 4096) ue
    exec (.pageWalk t xu dva id ue) s = .next (m.slots.foldl (fun x w => x.walkReaches m r.2 w) r.1)) ∧
  (∀ (d dva : Nat) (xus : List Nat) (stale : Bool) (s : State) (e : Tlb) (ptrs : List WalkPtr), let r := s.pageWalk d xus stale dva none
    xus.Nodup → r.2 = .ok e ptrs →
    (stale = false → (∀ xu ∈ xus, Table.get [] r.1.mem.xl.tlbs xu = lruPut (tlbSize xu) e (Table.get [] s.mem.xl.tlbs xu)) ∧
      Table.get [] r.1.mem.xl.l2 d = lruPut 4096 e (Table.get [] s.mem.xl.l2 d)) ∧
    (stale = true → r.1.mem.xl.tlbs = s.mem.xl.tlbs ∧ r.1.mem.xl.l2 = s.mem.xl.l2 ∧ r.1.mem.xl.wcache = s.mem.xl.wcache) ∧
    r.1.mem.xl.walks = satInc s.mem.xl.walks 64 ∧ r.1.mem.dram = s.mem.dram ∧ r.1.cores = s.cores) ∧
  (∀ (d dva : Nat) (xus : List Nat) (stale : Bool) (s : State) (f : XFault), let r := s.pageWalk d xus stale dva none
    r.2 = .fault f → r.1.mem.xl.tlbs = s.mem.xl.tlbs ∧ r.1.mem.xl.l2 = s.mem.xl.l2 ∧ r.1.mem.xl.wcache = s.mem.xl.wcache ∧ r.1.cores = s.cores) ∧
  (∀ (s : State) (m : Miss) (e : Tlb) (ptrs : List WalkPtr) (w : Nat × Nat × Nat) (x : Xfer), s.xfer w.2.1 = some x →
    s.walkReaches m (.ok e ptrs) w =
      s.modXfer x.id (fun y => { y with held := y.held ++ [⟨m.page, e.tgt, e.w, e.target (m.page * 4096)⟩] }))

/-! ### Control instructions and tasks (05_core_programs.md) -/

/-- CT_END, CT_NOP, CT_WRC, CT_CINV: legal instructions issue and complete, and write no byte. NOP changes nothing but the issue's bookkeeping; END
begins the task's end; WRC writes the register it names and no other (a CACHECTL value waits until it applies; a sticky flag or an arrival of the
same CCLK is not lost; a start of the histogram reads its edges); CINV drops exactly the lines of the named units. -/
def Obligations.ControlInstructions : Prop :=
  (∀ (t p w : Nat) (f : CtBare) (s : State), let c := s.coreAt t p
    s.issues t p .ct (.ctEnd f) w (c.ctFree t) [] [] → f.rsv = 0 →
    ∃ u, exec (.ctEnd t p f) s = .next u ∧ s.onlyCore u t p ∧
      u.core p = { c with ending := true, qCt := c.qCt.tail, lastIssue := (u.core p).lastIssue, portFree := (u.core p).portFree,
                          completeAt := (u.core p).completeAt, accesses := (u.core p).accesses }) ∧
  (∀ (t p w : Nat) (f : CtBare) (s : State), let c := s.coreAt t p
    s.issues t p .ct (.ctNop f) w (c.ctFree t) [] [] → f.rsv = 0 →
    ∃ u, exec (.ctNop t p f) s = .next u ∧ s.onlyCore u t p ∧
      u.core p = { c with qCt := c.qCt.tail, lastIssue := (u.core p).lastIssue, portFree := (u.core p).portFree,
                          completeAt := (u.core p).completeAt, accesses := (u.core p).accesses }) ∧
  (∀ (t p w : Nat) (f : CtWrc) (s : State), let c := s.coreAt t p
    s.issues t p .ct (.ctWrc f) w (c.ctFree t) [(wrcIllegal f, .illegalEncoding)]
      (if wrcEdges f c then [accessRun .ct .ct (wrcTable f) t (if hgBins f.value = 64 then 2 else 8) 1 t w] else []) →
    (wrcEdges f c = true → oneBank (wrcTable f) (wrcTableLen f) = true ∧ c.inCacheUnit (wrcTable f) (wrcTableLen f) = false ∧
      c.lostRead (wrcTable f) (wrcTableLen f) = false) →
    ∃ u, exec (.ctWrc t p ⟨f, .ok⟩) s = .next u ∧ s.onlyCore u t p ∧
      (u.core p).vxstat = (if f.offset = 0x014 then vxstatWrite c.vxstat (f.value.setWidth 32) (c.newFlags t) else c.vxstat) ∧
      (u.core p).cacheWait = (if f.offset = 0x020 then some (f.value.toNat % 64) else none) ∧
      (∀ k, Table.get (0 : W32) (u.core p).arr k = if f.offset.toNat = 0x100 + 4 * k then
        f.value.setWidth 32 + BitVec.ofNat 32 (c.newArrivals k t) else Table.get (0 : W32) c.arr k) ∧
      (u.core p).hgctl = (if f.offset = 0x018 then (c.writeHg t f.value).hgctl else c.hgctl) ∧
      (u.core p).hist = (if f.offset = 0x018 ∧ f.value.getLsbD 1 = true then [] else c.hist) ∧ (f.offset ≠ 0x018 → (u.core p).hgEdges = c.hgEdges) ∧
      u.core p = { c with vxstat := (u.core p).vxstat, cacheWait := (u.core p).cacheWait, arr := (u.core p).arr, hgctl := (u.core p).hgctl,
                          hist := (u.core p).hist, hgEdges := (u.core p).hgEdges, qCt := c.qCt.tail, lastIssue := (u.core p).lastIssue,
                          portFree := (u.core p).portFree, completeAt := (u.core p).completeAt, accesses := (u.core p).accesses }) ∧
  (∀ (t p w : Nat) (f : CtCinv) (s : State), let c := s.coreAt t p
    s.issues t p .ct (.ctCinv f) w (c.ctFree t) [] [] → f.rsv = 0 → s.cachedOut p = false →
    ∃ u, exec (.ctCinv t p f) s = .next u ∧ s.onlyCore u t p ∧
      u.core p = { c with cache := c.cache.filter (fun e => !(bitAt f.units.toNat (e.1 / 2 ^ 45))), qCt := c.qCt.tail,
                          lastIssue := (u.core p).lastIssue, portFree := (u.core p).portFree, completeAt := (u.core p).completeAt,
                          accesses := (u.core p).accesses })

/-- CACHECTL_APPLY, CT_RTAG, CT_STS, CT_HGDUMP: a waiting CACHECTL value applies once no cached transfer is outstanding, and exactly the lines of
the units it changes are dropped. With no other act due, RTAG gives one granule its tag and zeroes its bytes, STS stores the tile's status word,
HGDUMP stores the counters in bin order; every byte outside reads as it would without them. -/
def Obligations.ControlStores : Prop :=
  (∀ (t p v : Nat) (s : State), let c := s.core p
    c.cacheWait = some v → v < 64 → s.cachedOut p = false →
    ∃ u, exec (.cachectlApply t p) s = .next u ∧ s.onlyCore u t p ∧
      u.core p = { c with cachectl := BitVec.ofNat 32 v, cacheWait := none, portFree := c.portFree.set .ct (t + 1), completeAt := max c.completeAt t,
                          cache := c.cache.filter (fun e => !(bitAt (Nat.xor v (c.cachectl.toNat % 64)) (e.1 / 2 ^ 45))) }) ∧
  (∀ (t p w : Nat) (f : CtRtag) (s : State), let c := s.coreAt t p; let a := f.gran.toNat * 0x40000
    s.issues t p .ct (.ctRtag f) w (max (c.ctFree t) c.portFree.dl) [] [accessRun .dl .ct a t 512 1 t w] → f.rsv = 0 →
    f.gran.toNat ≤ 95 → f.tag ≠ 3 → c.inCacheUnit a 0x40000 = false →
    ∃ u, exec (.ctRtag t p f) s = .next u ∧ s.onlyCore u t p ∧ c.spmKept (u.core p) (fun b => a ≤ b ∧ b < a + 0x40000) ∧
      (c.due = [] → ((u.core p).landed (t + 1)).tagOf f.gran.toNat = f.tag.toNat ∧
        (∀ g, g ≠ f.gran.toNat → ((u.core p).landed (t + 1)).tagOf g = c.tagOf g) ∧
        ∀ T b, t + 512 ≤ T → a ≤ b → b < a + 0x40000 → ((u.core p).landed T).spm.read b = 0) ∧
      (u.core p).portFree.ct = t + 512 ∧ (u.core p).portFree.dl = t + 512 ∧
      u.core p = { c with due := (u.core p).due, qCt := c.qCt.tail, lastIssue := (u.core p).lastIssue, portFree := (u.core p).portFree,
                          completeAt := (u.core p).completeAt, accesses := (u.core p).accesses }) ∧
  (∀ (t p w : Nat) (f : CtSts) (s : State), let c := s.coreAt t p
    s.issues t p .ct (.ctSts f) w (c.ctFree t) [] [accessRun .ct .ct f.addr.toNat t 1 1 t w] → f.rsv = 0 → f.addr.toNat % 4 = 0 →
    f.addr.toNat + 4 ≤ spmSize → c.inCacheUnit f.addr.toNat 4 = false →
    ∃ u, exec (.ctSts t p f) s = .next u ∧ s.onlyCore u t p ∧ c.spmKept (u.core p) (fun b => f.addr.toNat ≤ b ∧ b < f.addr.toNat + 4) ∧
      (c.due = [] → ∀ T, t < T → ((u.core p).landed T).spm.readNat f.addr.toNat 4 = (c.tile f.acc.toNat).word.toNat) ∧
      u.core p = { c with due := (u.core p).due, qCt := c.qCt.tail, lastIssue := (u.core p).lastIssue, portFree := (u.core p).portFree,
                          completeAt := (u.core p).completeAt, accesses := (u.core p).accesses }) ∧
  (∀ (t p w : Nat) (f : CtBare) (s : State), let c := s.coreAt t p; let a := bits c.hgctl.toNat 37 20 * 128; let n := hgBins c.hgctl
    s.issues t p .ct (.ctHgdump f) w (c.ctFree t) [] [accessRun .ct .ct a t (if n = 64 then 2 else 8) 1 t w] → f.rsv = 0 →
    oneBank a (4 * n) = true → c.inCacheUnit a (4 * n) = false →
    ∃ u, exec (.ctHgdump t p f) s = .next u ∧ s.onlyCore u t p ∧ c.spmKept (u.core p) (fun b => a ≤ b ∧ b < a + 4 * n) ∧
      (c.due = [] → ∀ T i, t + 8 ≤ T → i < n → ((u.core p).landed T).spm.readNat (a + 4 * i) 4 = Table.get 0 c.hist i % 2 ^ 32) ∧
      u.core p = { c with due := (u.core p).due, qCt := c.qCt.tail, lastIssue := (u.core p).lastIssue, portFree := (u.core p).portFree,
                          completeAt := (u.core p).completeAt, accesses := (u.core p).accesses })

/-- ONDECK_RECORD and CT_END_RETIRE: an idle core takes the arriving record at once and a busy one holds it on deck, and one with a record on deck
keeps that; when the conditions of a task's end hold, the task ends and the record on deck is loaded, with the register file, masks and weight
buffers cleared and the scratchpad and accumulators kept; with none the core is IDLE. TASK_OVERRUN and HALTED_CORE_RELEASE: a task past its budget
is marked and goes on running, and the next phase on its position is held; a halted core is released at the end of its command's placement, with
its queues discarded and its scratchpad and accumulators kept. -/
def Obligations.TasksEnd : Prop :=
  (∀ (t p : Nat) (w : List Nat) (s : State), let c := s.core p
    c.ondeck = none →
    ∃ u, exec (.ondeckRecord t p w) s = .next u ∧ s.onlyCore u t p ∧
      (c.st = .idle → u.core p = c.loadTask (taskRecOf w) (t + 1)) ∧ (c.st ≠ .idle → u.core p = { c with ondeck := some (taskRecOf w) })) ∧
  (∀ (t p : Nat) (w : List Nat) (s : State), (s.core p).ondeck ≠ none →
    ∃ u, exec (.ondeckRecord t p w) s = .next u ∧ u.cores = s.cores ∧ u.mem = s.mem ∧ u.fix = s.fix ∧ u.cfe.cmds = s.cfe.cmds) ∧
  (∀ (t p : Nat) (s : State), let c := s.core p
    c.mayRetire t = true →
    ∃ u, exec (.ctEndRetire t p) s = .next u ∧ (∀ k, k ≠ p → u.core k = s.core k) ∧ u = { s.atC t with cores := u.cores, cfe := u.cfe, fix := u.fix } ∧
      u.fix = { s.fix with held := s.fix.held.erase (s.posOf p) } ∧ (u.core p).spm = c.spm ∧ (u.core p).acm = c.acm ∧ (u.core p).tiles = c.tiles ∧
      (u.core p).rtags = c.rtags ∧
      (∀ k, c.ondeck = some k → (u.core p).task = some k ∧ (u.core p).ondeck = none ∧ (u.core p).st = .switch ∧ (u.core p).vregs = [] ∧
        (u.core p).masks = [] ∧ (u.core p).wb0 = {} ∧ (u.core p).wb1 = {} ∧ (u.core p).pc = k.code) ∧
      (c.ondeck = none → (u.core p).st = .idle ∧ (u.core p).task = none)) ∧
  (∀ (t p : Nat) (k : TaskRec) (s : State), let c := s.core p
    c.task = some k → (c.st = .run ∨ c.st = .wait ∨ c.st = .replay) → c.overrun = false → k.budget < c.etk t →
    ∃ u, exec (.taskOverrun t p) s = .next u ∧ u.core p = { c with overrun := true } ∧ (∀ q, q ≠ p → u.core q = s.core q) ∧
      u.fix = { s.fix with held := s.fix.held ++ [s.posOf p], overruns := satInc s.fix.overruns 64 } ∧ u.mem = s.mem) ∧
  (∀ (t tb p : Nat) (s : State), let c := s.core p
    c.st = .halted → ({ s.atC t with bclk := max s.bclk tb } : State).placedOn (s.taskRef p) p = false →
    ∃ u, exec (.haltedCoreRelease t tb p) s = .next u ∧ (∀ q, q ≠ p → u.core q = s.core q) ∧ u.core p = c.release t ∧ u.mem = s.mem ∧
      u.fix = { s.fix with held := s.fix.held.erase (s.posOf p) } ∧
      (u.core p).spm = c.spm ∧ (u.core p).acm = c.acm ∧ (∀ q, (u.core p).queue q = []) ∧ (u.core p).st ≠ .halted)

/-! ### Memory (08_memory_system.md) -/

/-- ATOMIC_ADD to ATOMIC_FIN: a legal request at its turn replaces each element by its operation of the old element and its operands, in one
step; every byte of HBM and SLM outside the elements reads as before, and the request leaves the port. One that returns a value writes the returned
bytes at its RADDR, and no other byte of any scratchpad; nothing else of a core changes but the counter of the bytes' arrival. -/
def Obligations.AtomicsApply : Prop :=
  ∀ (op t tc x : Nat) (r : PortReq) (s : State), op ≤ 8 → s.portReq x = some r → let h := atomHdr r.bytes; let sz := atomSize h.ty
    s.runsAt t → r.port = 32 → r.whole = true → h.op = op → atomLegal h = true → s.atomEarlier r = false → s.atomTarget h = true →
    s.biNeeded h.target (h.count * sz) true = [] → s.isBad h.target = false →
    let old := (List.range h.count).map (fun i => s.mem.dram.readNat (h.target + i * sz) sz); let back := atomReturn h old
    let c := (s.atBC t tc).coreNow r.pos
    ∃ u, exec (atomicCmd op t tc x .ok) s = .next u ∧ u.portReq x = none ∧ (h.ret = false → u.cores = s.cores) ∧
      (∀ p, p ≠ r.pos → u.core p = s.core p) ∧
      u = { s.atBC t tc with cores := u.cores, host := u.host, cfe := u.cfe, mem := { s.mem with
        dram := u.mem.dram, seals := u.mem.seals, hbms := u.mem.hbms, slms := u.mem.slms, ports := s.mem.ports.filter (fun q => q.xfer != x) } } ∧
      (h.ret = true → (∀ i, i < back.length → (u.core r.pos).spm.read (h.raddr + i) = back.getD i 0) ∧
        (∀ b, b < h.raddr ∨ h.raddr + back.length ≤ b → (u.core r.pos).spm.read b = c.spm.read b) ∧
        (h.rcen = false → u.core r.pos = { c with spm := (u.core r.pos).spm, was := (u.core r.pos).was, blocks := (u.core r.pos).blocks }) ∧
        (∀ k, k ≠ h.rcnt → Table.get (0 : W32) (u.core r.pos).arr k = Table.get (0 : W32) c.arr k)) ∧
      (∀ i, i < h.count → u.mem.dram.readNat (h.target + i * sz) sz =
        (let arg (k m : Nat) : Nat := leNat ((r.bytes.drop (64 + (i * m + k) * sz)).take sz)
         let v := s.mem.dram.readNat (h.target + i * sz) sz
         if op = 7 then atomApply h v (arg 0 2) (arg 1 2) else atomApply h v (arg 0 1) 0) % 256 ^ sz) ∧
      (∀ a, a < h.target ∨ h.target + h.count * sz ≤ a → u.mem.dram.read a = s.mem.dram.read a)

/-- SLM_CACHE_FILL, SLM_UNIT_SKIM_DONE, PATROL_SCRUB, MAPOUT_COPY_DONE: the oldest fill completes, and installs its line only if no write
cancelled it and its Seal held; a skimmed unit is all zero, with the Seals of zero blocks, and every byte outside it reads as before; a scrub alters
no data; the end of a map-out's copy, in a slot where repair work may run, is noted for the next edge, and a block it could not copy is entered in the
stack's bad-block list. -/
def Obligations.MemoryEvents : Prop :=
  (∀ (t k blk : Nat) (ok cancelled : Bool) (rest : List (Nat × Bool)) (s : State), (s.slm k).fills = (blk, cancelled) :: rest →
    ∃ u, exec (.slmCacheFill t k ok) s = .next u ∧ (u.slm k).fills = rest ∧ (u.slm k).skimming = (s.slm k).skimming ∧
      u = { s.atB t with mem := { s.mem with slms := u.mem.slms } } ∧ (∀ j, j ≠ k → u.slm j = s.slm j) ∧
      ((cancelled = true ∨ ok = false) → (u.slm k).lines = (s.slm k).lines) ∧
      (cancelled = false → ok = true → s.cacheSets k ≠ 0 → blk ∈ (u.slm k).lines)) ∧
  (∀ (t k n : Nat) (s : State), n ∈ (s.slm k).skimming → let base := 0x10000000000 + k * 0x80000000 + n * 0x8000000
    ∃ u, exec (.slmUnitSkimDone t k n) s = .next u ∧ n ∉ (u.slm k).skimming ∧
      u = { s.atB t with mem := { s.mem with slms := u.mem.slms, dram := u.mem.dram, seals := u.mem.seals } } ∧ (∀ j, j ≠ k → u.slm j = s.slm j) ∧
      (u.slm k).lines = (s.slm k).lines ∧ (∀ m, m ≠ n → (m ∈ (u.slm k).skimming ↔ m ∈ (s.slm k).skimming)) ∧
      (∀ b, u.sealOf b = if base / 4096 ≤ b ∧ b < base / 4096 + 32768 then crcZeroBlock else s.sealOf b) ∧
      (∀ a, u.mem.dram.read a = if base ≤ a ∧ a < base + 0x8000000 then 0 else s.mem.dram.read a)) ∧
  (∀ (t dpa : Nat) (e : Ecc) (s : State), s.runsAt t → (match s.region dpa with | .hbm _ _ => true | .slm _ _ => true | _ => false) = true →
    ∃ u, exec (.patrolScrub t dpa e) s = .next u ∧ (e = .ok → u = s.atB t) ∧ u.mem.dram = s.mem.dram ∧ u.cores = s.cores ∧
      u.mem.seals = s.mem.seals ∧ u.mem.slms = s.mem.slms ∧
      (∀ st l, s.region dpa = .hbm st l → (∀ j, j ≠ st → u.stack j = s.stack j) ∧
        (e = .corrected → (u.stack st).ceCount = satInc (s.stack st).ceCount 64) ∧
        (e = .uncorrectable → (u.stack st).ueCount = satInc (s.stack st).ueCount 64))) ∧
  (∀ (t st : Nat) (badBlocks : List Nat) (s : State), s.runsAt t → (s.atB t).mayRepair .mapoutCopy [] = true → (s.stack st).mo = .copy →
    (s.stack st).copied = false →
    ∃ u, exec (.mapoutCopyDone t st badBlocks) s = .next u ∧ (u.stack st).copied = true ∧ (u.stack st).mo = .copy ∧ u.mem.dram = s.mem.dram ∧
      u.mem.seals = s.mem.seals ∧ u.cores = s.cores ∧ (∀ b, badBlocks = [b] → b / 4096 * 4096 ∈ (u.stack st).bad) ∧
      (badBlocks = [] → ∀ k, k ≠ st → u.stack k = s.stack k))

/-! ### The Command Front End (11_command_front_end.md) -/

/-- SQ_DOORBELL, CR_DOORBELL, INTGAP_EXPIRY. A submission doorbell that R300 accepts becomes DBTAIL and sets DBFLAG; any other only counts on
DBIGN and posts its record. A completion doorbell that R316 and R327 accept becomes CHEAD; any other only posts its record. A deferred signal is
sent when its gap ends, and not before. -/
def Obligations.Doorbells : Prop :=
  (∀ (t q tail : Nat) (s : State), s.runsAt t → let qu := s.cfe.queue q; let w := BitVec.ofNat 32 tail
    let ignored : ErrArgs :=
      { cls := .host, sev := .info, cause := 0x03, ukind := .queue, unit := q % 256, info6 := tail % 2 ^ 32, info7 := 4 * (q % 256) }
    let accepted : Prop := q < 256 ∧ (s.cfe.att = .attached ∨ (q = 0 ∧ s.cfe.att = .attaching)) ∧ (qu.st = .opened ∨ qu.st = .halted) ∧
      serialLt tail qu.dbtail.toNat 32 = false ∧ (w - qu.fhead).toNat ≤ ringSize qu.szlogm4
    ∃ u, exec (.sqDoorbell t q tail) s = .next u ∧ (∀ k, k ≠ q % 256 → u.cfe.queue k = s.cfe.queue k) ∧
      u = { s.atB t with cfe := { s.cfe with queues := u.cfe.queues }, err := u.err, host := u.host, out := u.out } ∧
      (accepted → u = { s.atB t with cfe := { s.cfe with queues := u.cfe.queues } } ∧
        u.cfe.queue q = { qu with dbtail := w, dbflag := true, fetch := if qu.fetch = .idle then .pass else qu.fetch }) ∧
      (¬ accepted → u.cfe.queue (q % 256) = { s.cfe.queue (q % 256) with dbign := satInc (s.cfe.queue (q % 256)).dbign 16 } ∧
        u.err = ((s.atB t).postErr ignored).err)) ∧
  (∀ (t r head : Nat) (s : State), s.runsAt t →
    let ignored : ErrArgs :=
      { cls := .host, sev := .info, cause := 0x04, ukind := .ring, unit := r % 256, info6 := head % 2 ^ 32, info7 := 0x400 + 4 * (r % 256) }
    let accepted : Prop := r < 256 ∧ (s.cfe.att = .attached ∨ (r = 0 ∧ s.cfe.att = .attaching)) ∧
      serialLt head (s.cfe.ring r).chead.toNat 32 = false ∧ serialLt (s.cfe.ring r).ctail.toNat head 32 = false
    ∃ u, exec (.crDoorbell t r head) s = .next u ∧
      (accepted → s.cfe.parkedOf r = 0 → u = { s.atB t with cfe := { s.cfe with rings := u.cfe.rings } } ∧
        u.cfe.ring r = { s.cfe.ring r with chead := BitVec.ofNat 32 head } ∧ ∀ k, k ≠ r → u.cfe.ring k = s.cfe.ring k) ∧
      (¬ accepted → u = (s.atB t).postErr ignored ∧ u.cfe = s.cfe)) ∧
  (∀ (t r d : Nat) (s : State), (s.cfe.ring r).signalDue = some d →
    ∃ u, exec (.intgapExpiry t r) s = .next u ∧ (max s.bclk t < d → u = s.atB t) ∧
      (d ≤ max s.bclk t →
        u = { s.atB t with cfe := { s.cfe with rings := u.cfe.rings }, host := { s.host with pba := u.host.pba }, out := u.out } ∧
        u.cfe.ring r = { s.cfe.ring r with signalDue := none, lastSignal := some (max s.bclk t) } ∧
        (∀ k, k ≠ r → u.cfe.ring k = s.cfe.ring k) ∧
        ((s.atB t).msixOpen (s.cfe.ring r).vec = true → u.out = [.msix (s.cfe.ring r).vec] ∧ u.host = s.host) ∧
        ((s.atB t).msixOpen (s.cfe.ring r).vec = false → u.out = [] ∧ u.host.pba = Nat.lor s.host.pba (2 ^ (s.cfe.ring r).vec))))

/-- FETCH_PASS and BUFFER_FETCHED: with nothing to fetch a pass clears DBFLAG and the fetcher is idle, unless a doorbell has come during a pass in
progress: then a further pass follows. One legal entry that the quotas, the store and the host let in is read, its buffer held, and FHEAD passes it.
The next held buffer that quota lets in is taken: its commands get consecutive CSEQs from NEXTSEQ on. -/
def Obligations.FetchAndTake : Prop :=
  (∀ (t q : Nat) (f : ReadFind) (s : State), let qu := s.cfe.queue q; let again := qu.dbflag && qu.inPass
    s.runsAt t → (qu.st = .opened ∨ qu.st = .halted) → (qu.dbflag = true ∨ qu.fetch ≠ .idle) → qu.spawnQ = [] → qu.fhead = qu.dbtail →
    ∃ u, exec (.fetchPass t q f) s = .next u ∧ u = { s.atB t with cfe := { s.cfe with queues := u.cfe.queues } } ∧
      u.cfe.queue q = { qu with dbflag := again, fetch := if again then .pass else .idle, waiton := 0, inPass := false } ∧
      (∀ k, k ≠ q → u.cfe.queue k = s.cfe.queue k)) ∧
  (∀ (t q : Nat) (f : ReadFind) (s : State) (e bs : List Byte), let qu := s.cfe.queue q; let again := qu.dbflag && qu.inPass
    let s0 := (s.atB t).modCfe (fun x => x.modQueue q (fun y => { y with dbflag := again })); let a := qu.base + 16 * (qu.fhead.toNat % ringSize qu.szlogm4)
    let r1 := s0.cfeRead f a 16; let w0 := reqWord e 0; let w1 := reqWord e 1; let b := bits w0 51 0; let len := bits w1 16 0
    let r2 := (r1.1.storeWaits q false).cfeRead f b len; let kib := 4 * cdiv len 4096
    s.runsAt t → (qu.st = .opened ∨ qu.st = .halted) → (qu.dbflag = true ∨ qu.fetch ≠ .idle) → qu.spawnQ = [] → qu.dbtail = qu.fhead + 1 →
    s.cfe.parked.length < 16384 → (s0.cfeHost a = true → s0.hostFor (q == 0) = true) → r1.2 = .ok e → entryLegal w0 w1 = true →
    (q = 0 → s.cfe.kibOf 0 + kib ≤ 256) →
    (q ≠ 0 → (s.cfe.kibOf q = 0 ∨ s.cfe.kibOf q + kib ≤ qu.qmaxkib) ∧ s.cfe.kibAll + kib ≤ 16384 - 256 ∧ s.cfe.behind q = false) →
    (r1.1.cfeHost b = true → r1.1.hostFor (q == 0) = true) → r2.2 = .ok bs →
    ∃ u, exec (.fetchPass t q f) s = .next u ∧ u = { r2.1 with cfe := u.cfe } ∧
      u.cfe.buffers = s.cfe.buffers ++ [{ id := s.cfe.nextBuf, q := q, bytes := bs, len := len, spawned := false }] ∧
      u.cfe.queue q = { qu with dbflag := again, fhead := qu.dbtail, fetch := if again then .pass else .idle, waiton := 0, inPass := false } ∧
      (∀ k, k ≠ q → u.cfe.queue k = s.cfe.queue k) ∧ u.cfe.cmds = s.cfe.cmds ∧ u.cfe.rings = s.cfe.rings) ∧
  (∀ (t q : Nat) (b : Buffer) (l : List Parsed) (s : State), let qu := s.cfe.queue q
    s.runsAt t → (qu.st = .opened ∨ qu.st = .halted) → qu.spawnQ = [] →
    s.cfe.buffers.filter (fun b => b.q == q && !b.taken) = [b] → b.bad = none → parseBuffer (q == 0) b.bytes b.len = .inl l →
    (q = 0 ∨ s.cfe.cmdsOf q = [] ∨ (s.cfe.cmdsOf q).length + l.length ≤ qu.qmaxcmd) →
    ∃ u, exec (.bufferFetched t q) s = .next u ∧
      u = { s.atB t with cfe := { s.cfe with queues := u.cfe.queues, cmds := u.cfe.cmds, buffers := u.cfe.buffers } } ∧
      u.cfe.queue q = { qu with nextseq := qu.nextseq + BitVec.ofNat 32 l.length, assigned := qu.assigned + l.length } ∧
      (∀ k, k ≠ q → u.cfe.queue k = s.cfe.queue k) ∧ u.cfe.cmds.length = s.cfe.cmds.length + l.length ∧
      (∀ i x, l[i]? = some x → ∃ d, u.cfe.cmds[s.cfe.cmds.length + i]? = some d ∧ d.q = q ∧ d.cseq = (qu.nextseq.toNat + i) % 2 ^ 32 ∧
        d.tag = x.tag ∧ d.kind = x.kind) ∧
      (∀ d ∈ s.cfe.cmds, d.q ≠ q → d ∈ u.cfe.cmds) ∧ (∀ x ∈ u.cfe.buffers, x.id = b.id → x.taken = true))

/-- RUN, REPEAT and NOP: a presented command whose reads succeed, whose shape fits its plan and for which the ledger has room is ADMITTED with
its due slot, its placements are charged and its class counts it; one for which it has none is refused and DONE; one with VALID = 0 and no outputs is
DONE as EMPTY. While an announced edge is to come nothing is decided. A READY NOP, on Q0 once it is first, is DONE as OK. -/
def Obligations.Admission : Prop :=
  (∀ (rep : Bool) (t q cseq : Nat) (f : ReadFind) (s : State) (c : Cmd) (r : RunRec) (b : List Byte) (x : CostTable),
    let h := ((s.atB t).modCfe (fun x => { x with served := q })).readHeaders f (s.cfe.reqsOf c r)
    let y := h.1.cfeRead f (r.cost / 4096 * 4096) 4096
    s.runsAt t → s.fix.edgeDue = none → s.cfe.pick = some c → c.run? = some r → c.q = q → c.cseq = cseq → r.rep = rep →
    h.2 = .ok true → y.2 = .ok b → costOf (b.drop (r.cost % 4096)) = some x → (s.cfe.reqsOf c r = [] ∨ x.phases.any (fun p => p.k == 0) = true) →
    shapeOk (s.cfe.bytesOf c) r x = true → let z := y.1.modCmd c.ref (fun d => { d with cost := some x })
    let due := if r.rel then (y.1.cyc + r.duecyc) % 2 ^ 32 else r.duecyc
    ∃ u, exec (if rep then .repeatRun t q cseq f else .run t q cseq f) s = .next u ∧
      (r.valid = 0 → s.cfe.outsOf c r = [] → u = { y.1 with cfe := u.cfe } ∧ u.doneAs c.ref .empty = true) ∧
      (r.valid ≠ 0 → ∀ l d, z.decideRoom c.q c.cseq x due r.dueslot = .accept l d →
        u = { y.1 with cfe := u.cfe, fix := { y.1.fix with ledger := u.fix.ledger, admitted := u.fix.admitted, lastDue := u.fix.lastDue },
                       err := { y.1.err with placeLog := u.err.placeLog } } ∧
        u.fix.ledger = y.1.fix.ledger ++ l ∧ u.fix.admitted = bumpClass y.1.fix.admitted x.cls ∧
        (u.cfe.find c.ref).map (fun w => (w.st, w.due)) = some (.admitted, d)) ∧
      (r.valid ≠ 0 → ∀ st k, z.decideRoom c.q c.cseq x due r.dueslot = .refuse st k →
        u = { y.1 with cfe := u.cfe, fix := { y.1.fix with refused := bumpClass y.1.fix.refused x.cls } } ∧ u.doneAs c.ref st = true ∧
        (u.cfe.find c.ref).map (fun w => (w.refusal, w.reason)) = some (true, k))) ∧
  (∀ (rep : Bool) (t q cseq : Nat) (f : ReadFind) (s : State), s.fix.edgeDue ≠ none →
    exec (if rep then .repeatRun t q cseq f else .run t q cseq f) s = .next (s.atB t)) ∧
  (∀ (t q cseq : Nat) (c : Cmd) (s : State), s.runsAt t → s.cfe.cmdAt q cseq = some c → c.kind = .nop → c.st = .ready →
    (q = 0 → s.cfe.cmds.find? (fun d => d.q == 0 && d.st != .done && d.st != .running) = some c) →
    ∃ u, exec (.nop t q cseq) s = .next u ∧ u.doneAs c.ref .ok = true ∧ u = { s.atB t with cfe := { s.cfe with cmds := u.cfe.cmds } } ∧
      u.cfe.cmds.length = s.cfe.cmds.length)

/-- PHASE_RELEASE and SPAWN: at its first slot the earliest unreleased phase is released, the command is RUNNING and its first task record goes to
the core of the phase's position, or, of a phase with K = 0, its requests are posted as transfers that carry the current step; a phase on a position
held by an overrun starts late. A spawn list within quota is accepted whole, in order.
COMPLETION_ISSUE: the next record of a queue, once its command's work is done, is issued with the command's STATUS and TAG, or parked where
its ring cannot take it; either way the command is POSTED: it leaves the queue and POSTSEQ passes it. -/
def Obligations.ReleaseAndPost : Prop :=
  (∀ (t tc q cseq : Nat) (recs : List (Nat × List (List Nat))) (s : State) (c : Cmd) (r : RunRec) (p : Placement),
    let s0 := s.atBC t tc
    s.runsAt t → s.cfe.cmdAt q cseq = some c → c.run? = some r → (s.placements c).filter (fun p => !p.released) = [p] →
    (c.st = .admitted ∨ c.st = .running) → p.first ≤ s0.absSlot →
    ∃ u, exec (.phaseRelease t tc q cseq recs) s = .next u ∧
      (p.positions.any (fun x => s.fix.held.contains x) = true → u = s0.recordReason c.ref 0x05) ∧
      (p.positions.any (fun x => s.fix.held.contains x) = false →
        u.fix = { s.fix with ledger := s.fix.ledger.map (fun y => if y = p then { y with released := true } else y) } ∧
        (u.cfe.find c.ref).map (fun y => (y.st, y.ran)) = some (.running, true) ∧
        (p.positions = [] → u.cores = s.cores ∧ (c.posting = true → u.mem = s.mem) ∧ (c.posting = false →
          u.mem.xfers.length = s.mem.xfers.length + (s.cfe.reqsOf c r).length ∧ s.mem.xfers <+: u.mem.xfers ∧
          u.mem = { s.mem with xfers := u.mem.xfers, nextXfer := s.mem.nextXfer + (s.cfe.reqsOf c r).length } ∧
          ∀ x ∈ u.mem.xfers, x ∈ s.mem.xfers ∨ (x.ref = c.ref ∧ x.step = some (s.obj 0x5F00 1) ∧ x.xu = some 160))) ∧
        (∀ pos w more, p.positions = [pos] → recs = [(pos, w :: more)] → r.argoff = 0 → (s.core (s.coreOf pos)).ondeck = none →
          u.mem = s.mem ∧ (∀ k, k ≠ s.coreOf pos → u.core k = s.core k) ∧ let k := taskRecOf (listSet w 4 c.ref)
          ((s.core (s.coreOf pos)).st = .idle → u.core (s.coreOf pos) = (s.core (s.coreOf pos)).loadTask k (tc + 1)) ∧
          ((s.core (s.coreOf pos)).st ≠ .idle → u.core (s.coreOf pos) = { s.core (s.coreOf pos) with ondeck := some k })))) ∧
  (∀ (t q cseq : Nat) (f : ReadFind) (s : State) (c : Cmd) (r : RunRec) (b : List Byte), let n := bits (reqWord b 0) 3 0; let qu := s.cfe.queue q
    let y := (s.atB t).cfeRead f r.spawn 256
    let more := (List.range n).map (fun i => (reqWord b (2 + 2 * i), reqWord b (3 + 2 * i)))
    s.runsAt t → s.cfe.cmdAt q cseq = some c → c.run? = some r → r.spawn ≠ 0 → c.spawnRead = false → c.st = .running → (s.atB t).workDone c = true →
    y.2 = .ok b → bits (reqWord b 0) 63 4 = 0 → reqWord b 1 = 0 →
    ∃ u, exec (.spawn t q cseq f) s = .next u ∧ u = { y.1 with cfe := { y.1.cfe with cmds := u.cfe.cmds, queues := u.cfe.queues } } ∧
      (u.cfe.find c.ref).map (·.spawnRead) = some true ∧ (∀ k, k ≠ q → u.cfe.queue k = s.cfe.queue k) ∧
      (qu.st = .closing → u.cfe.queue q = qu) ∧
      (qu.st ≠ .closing → qu.qspawn < qu.spawned + n → (u.cfe.find c.ref).map (·.spawnref) = some true ∧ u.cfe.queue q = qu) ∧
      (qu.st ≠ .closing → qu.spawned + n ≤ qu.qspawn → u.cfe.queue q =
          { qu with spawned := qu.spawned + n, spawnQ := qu.spawnQ ++ more,
                    fetch := if n ≠ 0 ∧ qu.fetch = .idle then .pass else qu.fetch })) ∧
  (∀ (t q : Nat) (f : ReadFind) (c : Cmd) (s : State), let s0 := ((s.atB t).finish q).markHeld q; let st := s0.statusOf c
    let c1 := if st = .late ∧ c.reason = 0 then { c with reason := if c.stalled then 0x0A else 0x0F } else c
    let y := s0.issueRecord f (if q = 0 then 0 else (s0.cfe.queue q).cr) (s0.record c1 st)
    s.runsAt t → s0.cfe.nextIssue q = some c → (c.st = .done ∨ c.st = .finished) → s0.taskOn c.ref = false → s0.busyRef c.ref = false →
    (∀ r, c.run? = some r → ∀ e ∈ (s0.cfe.outsOf c r).head?, (bitAt e.1 63 && (c.status == none || c.status == some .empty)) = false) →
    y.2 = true →
    ∃ u, exec (.completionIssue t q f) s = .next u ∧ (∀ d ∈ u.cfe.cmds, d.ref ≠ c.ref) ∧ c.q = q ∧
      (u.cfe.queue q).postseq = BitVec.ofNat 32 (c.cseq + 1) ∧ (u.cfe.queue q).lastIssued = c.cseq ∧ u.cores = y.1.cores ∧ u.mem = y.1.mem ∧
      (st ≠ .late → u.fix = y.1.fix ∧ u.err = y.1.err ∧ u.out = y.1.out))

/-- CREATE_SQ, CREATE_CR, DESTROY_SQ, DESTROY_CR: the queue or ring named is made with the record's fields, or freed (a queue first enters
CLOSING, its untaken buffers and spawns are dropped, its commands that never ran are CANCELLED and its faulted ones DONE with their faults), and the
command is DONE as OK; no other queue or ring changes. -/
def Obligations.AdminCreateDestroy : Prop :=
  (∀ (t w1 w2 w3 : Nat) (c : Cmd) (s : State), let q := bits w2 31 24; let r := bits w2 23 16; let idx := BitVec.ofNat 32 (bits w2 63 32)
    s.adminFirst t 0x10 w1 w2 w3 c → ringOk w1 = true → quotaOk w3 = true → q ≠ 0 → r ≠ 0 → (s.cfe.ring r).opened = true →
    (s.cfe.queue q).st = .free →
    ∃ u, exec (.createSq t) s = .next u ∧ u.doneAs c.ref .ok = true ∧ u.cfe.cmds.length = s.cfe.cmds.length ∧
      u = { s.atB t with cfe := { s.cfe with queues := u.cfe.queues, cmds := u.cfe.cmds } } ∧
      (∀ k, k ≠ q → u.cfe.queue k = s.cfe.queue k) ∧
      u.cfe.queue q = { st := .opened, fhead := idx, dbtail := idx, incarn := ((s.cfe.queue q).incarn + 1) % 256, cr := r, prio := bits w2 15 14,
                        dbign := (s.cfe.queue q).dbign, szlogm4 := bits w1 63 60, base := bits w1 51 0, qmaxcmd := bits w3 63 48,
                        qmaxkib := bits w3 47 32, qspawn := bits w3 31 16 }) ∧
  (∀ (t w1 w2 w3 : Nat) (c : Cmd) (s : State), let r := bits w2 31 24
    s.adminFirst t 0x11 w1 w2 w3 c → ringOk w1 = true → r ≠ 0 → (s.cfe.ring r).opened = false →
    ∃ u, exec (.createCr t) s = .next u ∧ u.doneAs c.ref .ok = true ∧ u.cfe.cmds.length = s.cfe.cmds.length ∧
      u = { s.atB t with cfe := { s.cfe with rings := u.cfe.rings, cmds := u.cfe.cmds } } ∧ (∀ k, k ≠ r → u.cfe.ring k = s.cfe.ring k) ∧
      u.cfe.ring r = { opened := true, base := bits w1 51 0, szlogm4 := bits w1 63 60, inten := bitAt w2 23, vec := bits w2 22 12,
                       intgap := bits w3 15 0 }) ∧
  (∀ (t w1 w2 w3 : Nat) (c : Cmd) (s : State), let q := bits w2 31 24; let y := (s.atB t).finish q
    s.adminFirst t 0x12 w1 w2 w3 c → q ≠ 0 → ((s.cfe.queue q).st = .opened ∨ (s.cfe.queue q).st = .halted) →
    ∃ u, exec (.destroySq t) s = .next u ∧ (u.cfe.queue q).st = .closing ∧ (u.cfe.queue q).spawnQ = [] ∧
      u = { s.atB t with cfe := { s.cfe with queues := u.cfe.queues, cmds := u.cfe.cmds, buffers := u.cfe.buffers },
                         fix := { s.fix with ledger := u.fix.ledger }, err := { s.err with primaries := u.err.primaries } } ∧
      (∀ k, k ≠ q → u.cfe.queue k = s.cfe.queue k) ∧ (∀ b ∈ u.cfe.buffers, b.q = q → b.taken = true) ∧
      (∀ d ∈ u.cfe.cmds, d.q = q → d.ref ≠ c.ref → d.st = .running ∨ d.st = .done ∨ d.st = .finished) ∧
      (∀ d ∈ y.cfe.cmds, d.q = q → d.ref ≠ c.ref → d.neverRan = true →
        ∃ e ∈ u.cfe.cmds, e.ref = d.ref ∧ e.st = .done ∧ e.status = some .cancelled) ∧
      (s.cfe.cmdsOf q = [] → u.doneAs c.ref .destroyed = true)) ∧
  (∀ (t w1 w2 w3 : Nat) (c : Cmd) (s : State), let r := bits w2 31 24
    s.adminFirst t 0x13 w1 w2 w3 c → r ≠ 0 → (s.cfe.ring r).opened = true → s.cfe.parkedOf r = 0 →
    s.cfe.queues.any (fun p => p.1 != 0 && p.2.st != .free && p.2.cr == r) = false →
    ∃ u, exec (.destroyCr t) s = .next u ∧ u.doneAs c.ref .ok = true ∧ u.cfe.ring r = {} ∧ (∀ k, k ≠ r → u.cfe.ring k = s.cfe.ring k) ∧
      u = { s.atB t with cfe := { s.cfe with rings := u.cfe.rings, cmds := u.cfe.cmds } } ∧ u.cfe.cmds.length = s.cfe.cmds.length)

/-- RECOVER (RESUME, SKIP, ABORT), SETQUOTA, REBIND_SQ, REBIND_CR: each has its effect on the queue or ring it names and is DONE as OK: RESUME makes
faulted commands READY to run again, SKIP leaves them DONE with their faults, ABORT also cancels every other command that is not running and drops
what the queue has not taken. -/
def Obligations.AdminChanges : Prop :=
  (∀ (t w1 w2 w3 : Nat) (c : Cmd) (s : State), let q := bits w2 31 24
    s.adminFirst t 0x14 w1 w2 w3 c → q ≠ 0 → (s.cfe.queue q).st = .halted →
    (bits w2 23 22 = 0 → ∃ u, exec (.recoverResume t) s = .next u ∧ u.doneAs c.ref .ok = true ∧
      u = { s.atB t with cfe := { s.cfe with queues := u.cfe.queues, cmds := u.cfe.cmds }, err := { s.err with primaries := u.err.primaries } } ∧
      u.cfe.queue q = { s.cfe.queue q with st := .opened } ∧ (∀ k, k ≠ q → u.cfe.queue k = s.cfe.queue k) ∧
      u.cfe.cmds.length = s.cfe.cmds.length ∧ (∀ d ∈ u.cfe.cmds, d.q = q → d.st ≠ .faulted) ∧
      ∀ d ∈ s.cfe.cmds, d.q = q → d.st = .faulted → d.ref ≠ c.ref → ∃ e ∈ u.cfe.cmds, e.ref = d.ref ∧
        ((∃ k, d.kind = .faulty k ∧ e.st = .done ∧ e.status = some (d.fault.getD .cancelled)) ∨ (e.st = .ready ∧ e.rerun = true ∧ e.fault = none))) ∧
    (bits w2 23 22 = 1 → ∃ u, exec (.recoverSkip t) s = .next u ∧ u.doneAs c.ref .ok = true ∧
      u = { s.atB t with cfe := { s.cfe with queues := u.cfe.queues, cmds := u.cfe.cmds }, err := { s.err with primaries := u.err.primaries } } ∧
      u.cfe.queue q = { s.cfe.queue q with st := .opened } ∧ (∀ k, k ≠ q → u.cfe.queue k = s.cfe.queue k) ∧
      u.cfe.cmds.length = s.cfe.cmds.length ∧
      ∀ d ∈ s.cfe.cmds, d.q = q → d.st = .faulted → d.ref ≠ c.ref → ∃ e ∈ u.cfe.cmds, e.ref = d.ref ∧ e.st = .done ∧
        e.status = some (d.fault.getD .cancelled)) ∧
    (bits w2 23 22 = 2 → ∃ u, exec (.recoverAbort t) s = .next u ∧ u.doneAs c.ref .ok = true ∧ (u.cfe.queue q).st = .opened ∧
      u = { s.atB t with cfe := { s.cfe with queues := u.cfe.queues, cmds := u.cfe.cmds, buffers := u.cfe.buffers },
                         fix := { s.fix with ledger := u.fix.ledger }, err := { s.err with primaries := u.err.primaries } } ∧
      (∀ k, k ≠ q → u.cfe.queue k = s.cfe.queue k) ∧
      (u.cfe.queue q).fhead = (s.cfe.queue q).dbtail ∧ (u.cfe.queue q).spawnQ = [] ∧ (∀ b ∈ u.cfe.buffers, b.q = q → b.taken = true) ∧
      ∀ d ∈ u.cfe.cmds, d.q = q → d.ref ≠ c.ref → d.st = .running ∨ d.st = .done)) ∧
  (∀ (t w1 w2 w3 : Nat) (c : Cmd) (s : State), let q := bits w2 31 24
    s.adminFirst t 0x15 w1 w2 w3 c → quotaOk w3 = true → q ≠ 0 → (s.cfe.queue q).st ≠ .free →
    ∃ u, exec (.setquota t) s = .next u ∧ u.doneAs c.ref .ok = true ∧ (∀ k, k ≠ q → u.cfe.queue k = s.cfe.queue k) ∧
      u = { s.atB t with cfe := { s.cfe with queues := u.cfe.queues, cmds := u.cfe.cmds } } ∧ u.cfe.cmds.length = s.cfe.cmds.length ∧
      u.cfe.queue q = { s.cfe.queue q with quotaNext := some (bits w3 63 48, bits w3 47 32, bits w3 31 16) }) ∧
  (∀ (t w1 w2 w3 : Nat) (c : Cmd) (s : State), let q := bits w2 31 24
    s.adminFirst t 0x16 w1 w2 w3 c → q ≠ 0 → ((s.cfe.queue q).st = .opened ∨ (s.cfe.queue q).st = .halted) → ringOk w1 = true →
    bits w1 63 60 = (s.cfe.queue q).szlogm4 →
    ∃ u, exec (.rebindSq t) s = .next u ∧ u.doneAs c.ref .ok = true ∧ (∀ k, k ≠ q → u.cfe.queue k = s.cfe.queue k) ∧
      u = { s.atB t with cfe := { s.cfe with queues := u.cfe.queues, cmds := u.cfe.cmds } } ∧ u.cfe.cmds.length = s.cfe.cmds.length ∧
      u.cfe.queue q = { s.cfe.queue q with base := bits w1 51 0, dbtail := (s.cfe.queue q).fhead, dbflag := false }) ∧
  (∀ (t w1 w2 w3 : Nat) (c : Cmd) (s : State), let r := bits w2 31 24
    s.adminFirst t 0x17 w1 w2 w3 c → r ≠ 0 → (s.cfe.ring r).opened = true → ringOk w1 = true → bits w1 63 60 = (s.cfe.ring r).szlogm4 →
    s.cfe.parkedOf r = 0 →
    ∃ u, exec (.rebindCr t) s = .next u ∧ u.doneAs c.ref .ok = true ∧ (∀ k, k ≠ r → u.cfe.ring k = s.cfe.ring k) ∧
      u = { s.atB t with cfe := { s.cfe with rings := u.cfe.rings, cmds := u.cfe.cmds } } ∧ u.cfe.cmds.length = s.cfe.cmds.length ∧
      u.cfe.ring r = { s.cfe.ring r with base := bits w1 51 0, ctail := 0, chead := 0, unreachable := false })

/-- CFECTL_ATTACH and CFECTL_DETACH: attaching from DETACHED restarts Q0 and CR0 at the admin bases, and is ignored otherwise; detaching is a host loss:
the CFE is DETACHED, the loss is counted, and no read or store of host memory is left. -/
def Obligations.AttachAndDetach : Prop :=
  (∀ (t : Nat) (s : State), let sq := s.cfe.admsq.toNat; let cr := s.cfe.admcr.toNat; let iv := s.cfe.admint.toNat
    s.runsAt t → s.cfe.att = .detached → admRingOk sq = true → admRingOk cr = true → s.cfe.parkedOf 0 = 0 →
    ∃ u, exec (.cfectlAttach t) s = .next u ∧
      u = { s.atB t with cfe := { s.cfe with att := .attaching, queues := u.cfe.queues, rings := u.cfe.rings }, err := u.err, host := u.host,
                         out := u.out } ∧
      u.cfe.queue 0 =
        { (s.cfe.queue 0) with st := .opened, fhead := 0, dbtail := 0, dbflag := false, fetch := .idle, cr := 0,
                               szlogm4 := bits sq 63 60, base := bits sq 51 12 * 4096 } ∧
      u.cfe.ring 0 =
        { (s.cfe.ring 0) with opened := true, ctail := 0, chead := 0, base := bits cr 51 12 * 4096, szlogm4 := bits cr 63 60,
                              intgap := bits iv 31 16, inten := bitAt iv 15, vec := bits iv 10 0, unreachable := false } ∧
      (∀ k, k ≠ 0 → u.cfe.queue k = s.cfe.queue k) ∧ (∀ k, k ≠ 0 → u.cfe.ring k = s.cfe.ring k)) ∧
  (∀ (t : Nat) (s : State), (s.cfe.att ≠ .detached ∨ admRingOk s.cfe.admsq.toNat = false ∨ admRingOk s.cfe.admcr.toNat = false) →
    exec (.cfectlAttach t) s = .next (s.atB t)) ∧
  (∀ (t : Nat) (s : State), s.runsAt t →
    ∃ u, exec (.cfectlDetach t) s = .next u ∧ u.cfe.att = .detached ∧ u.host.losses = satInc s.host.losses 64 ∧ u.host.reads = [] ∧
      u.host.stores = [] ∧ u.mem.dram = s.mem.dram ∧ u.flash = s.flash ∧
      (s.host.reads = [] → s.host.stores = [] →
        u = { s.atB t with cfe := { s.cfe with att := .detached }, err := u.err, host := u.host, out := u.out }))

/-! ### The cadence (10_fixture_cadence.md) -/

/-- CADENCE_PULSE, MADE_EDGE, RELOCK_FAILURE, PPS_EDGE, PPS_LOST: what each pulse or missing pulse announces. A pulse in UNLOCKED counts toward a
relock, whose fourth consistent pulse gives the edge. -/
def Obligations.CadencePulses : Prop :=
  (∀ (t : Nat) (s : State), let b := max s.bclk t; let stray := (s.atB t).modFix (fun f => { f with strays := satInc f.strays 64 })
    (s.fix.cad = .free → s.fix.ready = true → s.fix.edgeDue = none →
      exec (.cadencePulse t) s =
        .next ((s.atB t).modFix (fun f => { f with pulse := some b, edgeDue := some (b + 64), nextCad := some (.locked, 0) }))) ∧
    (s.fix.cad = .free → (s.fix.ready = false ∨ s.fix.edgeDue ≠ none) → exec (.cadencePulse t) s = .next stray) ∧
    (s.fix.cad = .internal → exec (.cadencePulse t) s = .next stray) ∧
    (∀ p, (s.fix.cad = .locked ∨ s.fix.cad = .holdover) → s.fix.pulse = some p → s.fix.edgeDue = none →
      ((s.atB t).near b (p + s.period) = true → exec (.cadencePulse t) s =
        .next ((s.atB t).modFix (fun f =>
          { f with pulse := some b, nextCad := some (.locked, 0),
                   edgeDue := some (max (b + 64) (s.fix.lastEdge.getD 0 + (s.period - s.window))) }))) ∧
      ((s.atB t).near b (p + s.period) = false → exec (.cadencePulse t) s = .next stray)) ∧
    (∀ l, s.fix.cad = .unlocked → s.fix.relockWait = none → s.fix.lastSeen = some l → (s.atB t).near b (l + s.period) = true →
      (s.fix.consistent + 1 < 4 → exec (.cadencePulse t) s =
        .next ((s.atB t).modFix (fun f => { f with consistent := s.fix.consistent + 1, lastSeen := some b }))) ∧
      (4 ≤ s.fix.consistent + 1 → s.fix.edgeDue = none → s.fix.lastEdge.getD 0 + (s.period - s.window) ≤ b + 64 →
        exec (.cadencePulse t) s = .next ((s.atB t).modFix (fun f =>
          { f with consistent := s.fix.consistent + 1, lastSeen := some b, pulse := some b, edgeDue := some (b + 64), nextCad := some (.locked, 0) }))))) ∧
  (∀ (t last : Nat) (s : State), s.fix.edgeDue = none → s.fix.lastEdge = some last →
    (s.fix.cad = .internal → last + s.period ≤ max s.bclk t + 64 → exec (.madeEdge t) s =
      .next ((s.atB t).modFix (fun f => { f with edgeDue := some (last + s.period), nextCad := some (.internal, 0) }))) ∧
    (∀ p, s.fix.relockWait = none → s.fix.pulse = some p → p + s.period + s.window ≤ max s.bclk t → let due := p + s.period + s.window
      (s.fix.cad = .locked → exec (.madeEdge t) s = .next ((s.atB t).modFix (fun f =>
        { f with pulse := some (p + s.period), edgeDue := some (due + 64), nextCad := some (.holdover, 1) }))) ∧
      (s.fix.cad = .holdover → exec (.madeEdge t) s = .next ((s.atB t).modFix (fun f =>
        { f with pulse := some (p + s.period), edgeDue := some (due + 64),
                 nextCad := some (if 64 < f.holdcnt + 1 then (.unlocked, 64) else (.holdover, f.holdcnt + 1)) }))) ∧
      (s.fix.cad = .unlocked → exec (.madeEdge t) s = .next ((s.atB t).modFix (fun f =>
        { f with pulse := some (p + s.period), edgeDue := some (due + 64), nextCad := some (.unlocked, f.holdcnt) }))))) ∧
  (∀ (t last p4 : Nat) (s : State), s.fix.edgeDue = none → s.fix.lastEdge = some last → s.fix.relockWait = some p4 →
    p4 + s.period + s.window ≤ max s.bclk t →
    ∃ u, exec (.relockFailure t) s = .next u ∧ u = { s.atB t with fix := u.fix, err := u.err, host := u.host, out := u.out } ∧
      u.fix = { s.fix with edgeDue := some (last + 2 * s.period), nextCad := some (.unlocked, s.fix.holdcnt), relockWait := none, consistent := 0,
                           lastSeen := none, pulse := some (last + 2 * s.period - 64 - s.window) }) ∧
  (∀ (t : Nat) (s : State), ∃ u, exec (.ppsEdge t) s = .next u ∧
    u = { s.atB t with fix := { s.fix with ppsLost := false, lastPps := some (max s.bclk t), extBase := u.fix.extBase, todArmed := none } } ∧
    (∀ v, s.fix.todArmed = some v → v < 2 ^ 64 → u.extTime = v) ∧ (s.fix.todArmed = none → u.fix.extBase = s.fix.extBase)) ∧
  (∀ (t l : Nat) (s : State), s.fix.lastPps = some l → l + 1100000000 < max s.bclk t →
    exec (.ppsLost t) s = .next ((s.atB t).modFix (fun f => { f with ppsLost := true })))

/-- CYCLE_EDGE: at the announced BCLK, and not before, the edge is made: it is the last edge, none is announced any more, EDGETIME is its time, CYC has
gone up by one, but stays 0 at the first edge, and the power sensors' reading of the cycle stands. Where a MODRESET takes effect at it, everything the
block does not keep over a reset has returned to its default instead, CYC with it. -/
def Obligations.CycleEdge : Prop :=
  ∀ (t : Nat) (fnd : EdgeFind) (s : State), let b := s.atB t
    (∀ e, s.fix.edgeDue = some e → e ≤ max s.bclk t →
      let w := (if b.stopped then (b.beginEdge e).applyWrites else (b.beginEdge e).workEdge fnd.rows).powerEdge fnd.watts
      ∃ u, exec (.cycleEdge t fnd) s = .next u ∧ u.fix.edgeDue = none ∧ u.pending = s.pending ∧ u.otp = s.otp ∧ u.bclk = max s.bclk t ∧
        u.cclk = s.cclk ∧ u.signatures = s.signatures ∧
        (w.resetDue = false → u.fix.lastEdge = some e ∧ u.fix.cycle = (if s.fix.lastEdge.isSome then s.fix.cycle + 1 else 0) ∧
          u.fix.edgeTime = (s.fix.extBase + e) % 2 ^ 64 ∧ u.power.watts = fnd.watts) ∧
        (w.resetDue = true → u.fix.lastEdge = none ∧ u.fix.cycle = 0 ∧ u.cores = [] ∧ u.objVals = [] ∧ u.mem = {} ∧ u.flash = w.flash)) ∧
    ((∀ e ∈ s.fix.edgeDue, max s.bclk t < e) → exec (.cycleEdge t fnd) s = .next b)

/-! ### Embedding engines (07_embedding_engine.md) -/

/-- LOOKUP_REQUEST, ROW_FETCH, UPDATE_REQUEST, MIGRATION_COPY_DONE: a legal lookup leaves its port with one share for each home here (the rows of
other modules are forwarded); one with no index at all becomes the transfer of its output at once. A fetched row is pooled into every bag that uses it,
and the last one of a lookup of this module enters its partials into the lookup; a share that must wait fetches nothing. A legal update leaves its port,
and a row whose home is here is added into its bank. A stripe copied within the module stands in its new frames; one that moves to another module is
sent; one with a block that cannot be read is LOST. -/
def Obligations.EmbeddingRequests : Prop :=
  (∀ (t tc x : Nat) (ue : Option Nat) (s : State) (r : PortReq) (routes : List Route),
    let s0 := s.atBC t tc; let h := lookHdr r.bytes; let d := s.tdesc h.table
    let y := s0.routeRows true r.port h.table d (s.gen h.table) ue ((lookEntries h).map (·.1)) []; let tag := y.1.freshTag (h.mode == 2)
    let base : Share :=
      { src := s.modId, st := r.port, tag := tag, home := 0, table := h.table, desc := d, step := r.step,
        eff := if stepCase y.1.stepNo r.step = .late then y.1.stepNo else r.step, gen := s.gen h.table, ref := r.ref, exact := h.mode == 2,
        rows := [], left := [] }
    let shares := shareList base routes (groupRows (lookEntries h))
    s.runsAt t → s.portReq x = some r → r.port < 16 → r.whole = true → lookLegal r.bytes h = true → d ≠ 0 →
    tdD d * fmtWidth h.fmto ≤ h.ostride * 8 → poolClaim d h ≤ 1048576 → s.poolUsed r.port + poolClaim d h ≤ 1048576 →
    y.2.toOption = some routes → shares.any y.1.shareTooBig = false → stepCase y.1.stepNo r.step ≠ .ahead →
    (y.1.emb.looks.all (fun l => l.tag != tag)) = true →
    ∃ u, exec (.lookupRequest t tc x ue) s = .next u ∧ u.portReq x = none ∧ u.emb.nextTag = y.1.emb.nextTag + 1 ∧
      (shares ≠ [] ∨ awayMods routes ≠ [] → u.emb.shares = y.1.emb.shares ++ shares.map (fun h => { h with seq := y.1.emb.nextShare }) ∧
        (∃ l, u.emb.looks = y.1.emb.looks ++ [l] ∧ l.tag = tag ∧ l.ref = r.ref ∧ l.claim = poolClaim d h ∧ l.waiting = l.homes ∧
          l.homes = shares.map (·.home) ++ (awayMods routes).map (fun m => 256 + m)) ∧
        u.emb.units = y.1.emb.units ∧ u.cores = y.1.cores ∧ u.mem = { y.1.mem with ports := u.mem.ports }) ∧
      (shares = [] → awayMods routes = [] → ∃ z ∈ u.mem.xfers, z.ref = r.ref ∧ z.dst = .dva h.out ∧ z.rows = h.plan)) ∧
  (∀ (t tc src st tag home row hst frame : Nat) (bags : List (Nat × Nat)) (rest : List (Nat × List (Nat × Nat))) (vals : List Dy) (fnd : RowFinding)
      (h : Share) (s : State),
    let s0 := s.atBC t tc; let dpa := s.frameDpa hst frame (servOff h.desc row)
    let h1 := { h.pool vals bags with left := rest, chkBad := h.chkBad || fnd == .checkBad }
    let upd (y : Share) (z : Share) : Share := if y.same h.src h.st h.tag && y.home == h.home then z else y
    s.runsAt t → s.emb.shares.find? (fun h => h.same src st tag && h.home == home) = some h → h.left = (row, bags) :: rest →
    (s0.shareWaits h = true → ∃ u, exec (.rowFetch t tc src st tag home fnd) s = .next u ∧
      u = { s0 with cfe := { s.cfe with cmds := u.cfe.cmds } }) ∧
    (s0.shareWaits h = false → (fnd = .ok ∨ fnd = .checkBad) → s.emb.lost.contains (rowKey h.table (row / tdRps h.desc)) = false →
      h.at'.find? (fun r => r.1 == row) = some (row, hst, frame) → s.isBad dpa = false →
      rowVals h.desc (s.mem.dram.readBytes dpa (tdB h.desc)) = some vals →
      ∃ u, exec (.rowFetch t tc src st tag home fnd) s = .next u ∧
        (rest ≠ [] → u.emb.shares = s.emb.shares.map (fun y => upd y h1) ∧
          u = { s0 with emb := { s.emb with shares := u.emb.shares, units := u.emb.units, repls := u.emb.repls, heatNow := u.emb.heatNow } }) ∧
        (rest = [] → h.src ≠ s.modId → u.emb.shares = s.emb.shares.map (fun y => upd y { h1 with pooled := true }) ∧
          u.emb.looks = s.emb.looks ∧ u.mem = s.mem ∧ u.cores = s.cores) ∧
        (rest = [] → h.src = s.modId → ∃ w : State, u = w.judgeLook h.tag ∧ w.mem = s.mem ∧ w.cores = s.cores ∧
          w.emb.shares = s.emb.shares.map (fun y => upd y { h1 with pooled := true }) ∧
          w.emb.looks = s.emb.looks.map (fun l => if l.tag = h.tag then l.take h1 else l)))) ∧
  (∀ (t tc x : Nat) (fnd : RowFinding) (ue : Option Nat) (s : State) (r : PortReq) (routes : List Route),
    let h := updHdr r.bytes; let d := s.tdesc h.table; let rows := words32 ((r.bytes.drop 64).take (4 * h.nrows))
    let y := (s.atBC t tc).routeRows false (r.port - 16) h.table d (s.gen h.table) ue rows []
    s.runsAt t → s.portReq x = some r → 16 ≤ r.port → r.port < 32 → r.whole = true → 64 ≤ r.bytes.length → h.rsv = 0 → d ≠ 0 →
    h.nrows ≠ 0 → h.nrows ≤ 2 ^ 20 → r.bytes.length = updVals h.nrows + 16 * h.nrows * tdD d → tdTrain d = true → h.anchor = tdUanchor d →
    y.2.toOption = some routes → stepCase y.1.stepNo r.step ≠ .ahead →
    ∃ u, exec (.updateRequest t tc x fnd ue) s = .next u ∧ u.portReq x = none ∧ u.emb.nextTag = y.1.emb.nextTag + 1 ∧
      u.mem.dram = y.1.mem.dram ∧
      (∀ row k b, let e := y.1.embUnit k; let next := stepCase y.1.stepNo r.step == .next
        let p : Partial := { feed := ⟨s.modId, r.port - 16, y.1.freshTag false, r.ref⟩, key := rowKey h.table row,
                             vals := updRow r.bytes h.nrows (tdD d) 0, chkBad := fnd == .checkBad }
        rows = [row] → (routes.find? (fun z => z.row == row)).map Route.home = some (.here k b) → fnd ≠ .storeBad →
        ∀ n, bankAdd (if next then e.nextBank else e.bank) p = .ok n →
          u.embUnit k = (if next then { e with nextBank := n } else { e with bank := n }) ∧ ∀ j, j ≠ k → u.embUnit j = y.1.embUnit j)) ∧
  (∀ (t table stripe : Nat) (bad : Option Nat) (m : Mig) (s : State), let s0 := s.atB t; let n := 16 * (1 + tdK (s.tdesc table))
    let src (b : Nat) : Nat := s.frameDpa m.srcSt m.srcFrame (4096 * b); let dst (b : Nat) : Nat := s.frameDpa m.dstSt m.dstFrame (4096 * b)
    s.runsAt t → s0.inRsv = true → s.emb.migs.find? (fun m => m.key == rowKey table stripe) = some m → m.st = .copy → m.sent = false →
    (bad.isSome = true ∨ (List.range n).any (fun b => s0.blockBad (src b)) = true →
      exec (.migrationCopyDone t table stripe bad) s = .next (s0.loseStripe (rowKey table stripe))) ∧
    (bad = none → (List.range n).any (fun b => s0.blockBad (src b)) = false →
      ∃ u, exec (.migrationCopyDone t table stripe bad) s = .next u ∧ u.cores = s.cores ∧
        (m.dstMod ≠ s.modId → u.mem = s.mem ∧ u.emb.migs = s.emb.migs.map (fun x => if x.key = m.key then { m with sent := true } else x)) ∧
        (m.dstMod = s.modId → (∀ a, a < n → ∃ st l, s.region (dst a) = .hbm st l) →
          (∀ a, a < n → ∀ b, b < n → src a + 4096 ≤ dst b ∨ dst b + 4096 ≤ src a) →
          (∀ a, a < n → ∀ b, b < n → a ≠ b → dst a + 4096 ≤ dst b ∨ dst b + 4096 ≤ dst a) →
          u.emb = { s.emb with migs := s.emb.migs.map (fun x => if x.key = m.key then { m with st := .dual } else x) } ∧
          (∀ b i, b < n → i < 4096 → u.mem.dram.read (dst b + i) = s.mem.dram.read (src b + i)) ∧
          (∀ a, (∀ b, b < n → a < dst b ∨ dst b + 4096 ≤ a) → u.mem.dram.read a = s.mem.dram.read a))))

/-- A partial row added to a combine bank adds each element exactly into the row's entry and counts one partial; no other entry changes. An
entry takes 2^24 partials, and the bank 1,048,576 slots, at most. -/
def Obligations.CombineIsExact : Prop :=
  (∀ (b b' : Table Entry) (p : Partial), bankAdd b p = .ok b' →
    let e := Table.get ({ } : Entry) b p.key; let e' := Table.get ({ } : Entry) b' p.key
    (e.vals = [] → e'.vals = p.vals) ∧
    (∀ (i : Nat) (x v : Int), e.vals[i]? = some x → p.vals[i]? = some v → e'.vals[i]? = some (x + v)) ∧ e'.n = e.n + 1 ∧ e.n < 2 ^ 24 ∧
    e'.chk = e.chk + p.vals.sum + (if p.chkBad then 1 else 0) ∧ p.feed ∈ e'.feeds ∧ (∀ f ∈ e.feeds, f ∈ e'.feeds) ∧
    ∀ k, k ≠ p.key → Table.get ({ } : Entry) b' k = Table.get ({ } : Entry) b k) ∧
  (∀ (b : Table Entry) (p : Partial), let e := Table.get ({ } : Entry) b p.key
    ((∃ b', bankAdd b p = .ok b') ↔ (e.vals = [] → bankSlots b + p.vals.length ≤ 1048576) ∧ e.n < 2 ^ 24) ∧
    (bankAdd b p = .full ↔ e.vals = [] ∧ 1048576 < bankSlots b + p.vals.length))

/-! ### Farast packets (12_farast_links.md) -/

/-- FARAST_WRITE, FARAST_READ, READRESP, EACK. Receiving a packet changes nothing but the links. A WRITE judged good is written to the place its window
names, no other byte changes, it is counted on the counter it names, and it is acknowledged; a READ judged good is answered with the bytes; one that
the window refuses changes no memory and is answered with the case. A READRESP gives the transfer, or the read of the CFE, that asked its bytes; an
EACK with case 0 closes its request, NOT_ARMED makes it wait, and any other case closes it and fails its owner. -/
def Obligations.WindowPackets : Prop :=
  (∀ (t tc n op : Nat) (k : Packet) (s x : State), s.receives t tc n op k x →
    x = { s.atBC t tc with links := x.links } ∧ x.links.rally = s.links.rally ∧ x.links.reqs = s.links.reqs ∧ x.links.backlog = s.links.backlog) ∧
  (∀ (t tc n c off a : Nat) (k : Packet) (ue : Option Nat) (e : Ecc) (s x : State), let j := x.judgeWindow n k k.payload.length true ue
    let b0 := (s.atBC t tc).coreNow c; let cnt := bits (k.word 2) 62 57
    s.receives t tc n 0x01 k x → j.2 = .ok [(.spm c off, a, k.payload.length)] → (j.1.placesWait true [(.spm c off, a, k.payload.length)]).2 = false →
    k.payload ≠ [] →
    ∃ u, exec (.farastWrite t tc n k ⟨ue, e⟩) s = .next u ∧ (∀ p, p ≠ c → u.core p = s.core p) ∧ u.mem.dram = s.mem.dram ∧ u.emb = s.emb ∧
      u.fix = s.fix ∧ (∀ i, i < k.payload.length → (u.core c).spm.read (off + i) = k.payload.getD i 0) ∧
      (∀ b, b < off ∨ off + k.payload.length ≤ b → (u.core c).spm.read b = b0.spm.read b) ∧
      (bitAt (k.word 2) 56 = false → u.core c = { b0 with spm := (u.core c).spm, was := (u.core c).was, blocks := (u.core c).blocks }) ∧
      (bitAt (k.word 2) 56 = true → c < 144 → b0.resetAfter cnt tc = false →
        Table.get (0 : W32) (u.core c).arr cnt = Table.get (0 : W32) b0.arr cnt + 1) ∧
      (∀ i, i ≠ cnt → Table.get (0 : W32) (u.core c).arr i = Table.get (0 : W32) b0.arr i)) ∧
  (∀ (t tc n d a : Nat) (k : Packet) (ue : Option Nat) (e : Ecc) (s x : State), let j := x.judgeWindow n k k.payload.length true ue
    let l := [(Place.dram d, a, k.payload.length)]
    s.receives t tc n 0x01 k x → j.2 = .ok l → (j.1.placesWait true l).2 = false → d % 4096 + k.payload.length ≤ 4096 → k.payload ≠ [] →
    (j.1.oldBytes (joinRuns l k.payload) (fun _ => e == .uncorrectable)).2 = none →
    ∃ u, exec (.farastWrite t tc n k ⟨ue, e⟩) s = .next u ∧ u.cores = s.cores ∧ u.emb = s.emb ∧
      (∀ i, i < k.payload.length → u.mem.dram.read (d + i) = k.payload.getD i 0) ∧
      (∀ b, b < d ∨ d + k.payload.length ≤ b → u.mem.dram.read b = s.mem.dram.read b)) ∧
  (∀ (t tc n case : Nat) (wr : Bool) (k : Packet) (ue : Option Nat) (e : Ecc) (s x : State), let len := if wr then k.payload.length else bits (k.word 2) 12 0
    let j := x.judgeWindow n k len wr ue
    (if wr then s.receives t tc n 0x01 k x else k.op = 0x02 ∧ (s.atBC t tc).recvLink n k = .apply x) → j.2 = .refused case →
    ∃ u, exec (if wr then .farastWrite t tc n k ⟨ue, e⟩ else .farastRead t tc n k ue e) s = .next u ∧
      u = (if wr then (j.1.windowRefused k case).answer k case else (j.1.windowRefused k case).eack k case) ∧ u.mem.dram = s.mem.dram ∧
      u.cores = s.cores) ∧
  (∀ (t tc n a : Nat) (pl : Place) (k : Packet) (ue : Option Nat) (e : Ecc) (s x : State), let len := bits (k.word 2) 12 0
    let j := x.judgeWindow n k len false ue; let l := [(pl, a, len)]
    let answer (bs : List Byte) (y : State) : State :=
      y.send (y.mkPacket { op := 0x03, dst := k.src, cmdref := k.cmdref, w6 := k.eseq, payload := bs } 0 false)
    k.op = 0x02 → (s.atBC t tc).recvLink n k = .apply x → j.2 = .ok l → (j.1.placesWait false l).2 = false → e ≠ .uncorrectable →
    j.1.sealFails pl len = false →
    (∀ c off, pl = .spm c off → j.1.isLost pl len = false →
      ∃ u, exec (.farastRead t tc n k ue e) s = .next u ∧ u = answer (((s.atBC t tc).coreNow c).spm.readBytes off len) j.1 ∧ u.cores = s.cores ∧
        u.mem.dram = s.mem.dram) ∧
    (∀ d, pl = .dram d → e = .ok → j.1.isBad d = false →
      ∃ u, exec (.farastRead t tc n k ue e) s = .next u ∧ u.cores = s.cores ∧ u.mem.dram = s.mem.dram ∧
        u = answer (s.mem.dram.readBytes d len) ((j.1.endBi d len).cacheRead d (bits (k.word 2) 55 53)))) ∧
  (∀ (t tc n : Nat) (k : Packet) (s x : State) (r : E2e), s.answers t tc n 0x03 k x r →
    ∃ u, exec (.readresp t tc n k) s = .next u ∧ u.cores = s.cores ∧ u.mem.dram = s.mem.dram ∧ u.emb = s.emb ∧
      (s.links.backlog = [] → u.links.reqs = s.links.reqs.filter (fun q => !(q.dst == r.dst && q.eseq == r.eseq))) ∧
      (∀ id a, r.owner = .unit id a true →
        u.mem.xfers = s.mem.xfers.map (fun y => if y.id = id then { y with got := y.got ++ [(a, k.payload)] } else y)) ∧
      (∀ a m, r.owner = .cfeRead a m → u.cfe.winReads =
        s.cfe.winReads.map (fun w => if w.dva = a ∧ w.len = m then { w with bytes := some k.payload } else w))) ∧
  (∀ (t tc n : Nat) (k : Packet) (s x : State) (r : E2e), let case := bits (k.word 6) 31 24; let x1 := (x.noteRetry r).dropReq r.dst r.eseq
    let stamp (q : E2e) : E2e := if q.dst = r.dst ∧ q.eseq = r.eseq then { q with notArmed := some (max s.bclk t) } else q
    s.answers t tc n 0x04 k x r →
    (case = 1 → ∃ u, exec (.eack t tc n k) s = .next u ∧ u = { x with links := { x.links with reqs := s.links.reqs.map stamp } }) ∧
    (case = 0 → ∃ u, exec (.eack t tc n k) s = .next u ∧ u.mem.dram = s.mem.dram ∧
      (s.links.backlog = [] → (∃ tag, r.owner = .emb tag) ∨ (∃ id m, r.owner = .unit id m false) →
        u.links.reqs = s.links.reqs.filter (fun q => !(q.dst == r.dst && q.eseq == r.eseq))) ∧
      (∀ tag, r.owner = .emb tag → u = x1 ∧ u.cores = s.cores ∧ u.mem = s.mem ∧ u.emb = s.emb) ∧
      (∀ id m, r.owner = .unit id m false → (∃ y, s.xfer id = some y) →
        u.mem.xfers = s.mem.xfers.map (fun y => if y.id = id then { y with sent := y.sent.erase m } else y))) ∧
    (case ≠ 0 → case ≠ 1 → ∃ u, exec (.eack t tc n k) s = .next u ∧ u.mem.dram = s.mem.dram ∧
      u = (if caseCause case = .xlate then x1.xlFault else x1).failOwner r.owner (caseCause case)))

/-- EMB_IDX, EMB_PART, EMB_UPD, EMB_MIG and the five EMB_CTL rows: what each applied packet adds to the receiving module's requests, shares, rows and
stripes. Index entries are gathered until SENT's count is met; partials enter the lookup's slots exactly, and the lookup is judged once DONE and all of
a home's partials have come; a whole partial row of a table homed here is combined; a replay starts the shares again; COMBINED lowers the counts of an
update; FAULT ends the request; a block of a stripe is stored. -/
def Obligations.EmbeddingPackets : Prop :=
  (∀ (sent : Bool) (t tc n : Nat) (k : Packet) (s x : State), s.receives t tc n (if sent then 0x13 else 0x10) k x → (sent = true → ekCode k = 1) →
    let i0 := s.inboundOf k
    let i := if sent then { i0 with count := some (ekCount k) } else { i0 with entries := i0.entries ++ idxEntries k.payload }
    let others := s.emb.inbound.filter (fun y => !(y.src == i.src && y.st == i.st && y.tag == i.tag))
    ∃ u, exec (if sent then .embCtlSent t tc n k else .embIdx t tc n k) s = .next u ∧ u.cores = s.cores ∧ u.mem.dram = s.mem.dram ∧
      u.emb.looks = s.emb.looks ∧
      (i.count ≠ some i.entries.length → u.emb = { s.emb with inbound := others ++ [i] }) ∧
      (i.count = some i.entries.length → u.emb.inbound = others)) ∧
  (∀ (t tc n : Nat) (k : Packet) (s x : State) (l : Look), s.receives t tc n 0x11 k x → s.lookOf k = some l →
    let e0 := bits (k.word 6) 43 33; let bag := bits (k.word 6) 63 44; let m := (vals16 k.payload).length
    let changed (l1 : Look) : List Look := s.emb.looks.map (fun y => if y.tag = l.tag then l1 else y)
    ∃ u l1, exec (.embPart t tc n k) s = .next u ∧
      l1 = { l with slots := l1.slots, occ := l1.occ, pairs := l1.pairs, parts := l1.parts, trunc := true } ∧
      (l1.reported k.src = false → u.emb = { s.emb with looks := changed l1 } ∧ u.cores = s.cores ∧ u.mem = s.mem) ∧
      (l1.reported k.src = true → ∃ w : State, u = (w.judgeLook l.tag).answer k 0 ∧ w.cores = s.cores ∧ w.mem = s.mem ∧
        w.emb = { s.emb with looks := changed { l1 with waiting := l1.waiting.erase (256 + k.src) } }) ∧
      (∀ (i : Nat) (v : Int), (vals16 k.payload)[i]? = some v →
        Table.get 0 l1.slots (slotKey bag (e0 + i)) = Table.get 0 l.slots (slotKey bag (e0 + i)) + l.partValue (e0 + i) v) ∧
      (∀ j, (∀ i, i < m → j ≠ slotKey bag (e0 + i)) → Table.get 0 l1.slots j = Table.get 0 l.slots j) ∧
      (e0 = 0 → Table.get 0 l1.occ bag = Table.get 0 l.occ bag + bits (k.word 6) 24 0) ∧ (e0 ≠ 0 → l1.occ = l.occ)) ∧
  (∀ (t tc n st frame : Nat) (k : Packet) (fnd : RowFinding) (s x : State),
    let table := ekTable k; let d := s.tdesc table; let row := bits (k.word 6) 63 32; let vals := vals16 k.payload
    let y := x.stripeHome (ekStack k) table d (s.gen table) (row / tdRps d) none; let next := stepCase y.1.stepNo k.step == .next
    let p : Partial := { feed := ⟨k.src, ekStack k, ekTag k, k.cmdref⟩, key := rowKey table row, vals := vals, chkBad := fnd == .checkBad, acks := [k] }
    let bank := if next then (y.1.embUnit st).nextBank else (y.1.embUnit st).bank
    s.receives t tc n 0x12 k x → s.updPending k = false → s.emb.pieces = [] → bits (k.word 6) 31 21 = 0 → d ≠ 0 → 0 < tdD d → tdD d ≤ 256 →
    tdD d ≤ vals.length → tdTrain d = true → row < tdRows d → y.2 = .here st frame → stepCase y.1.stepNo k.step ≠ .ahead → fnd ≠ .storeBad →
    ∃ u, exec (.embUpd t tc n k fnd) s = .next u ∧ u = y.1.combine st p next ∧ u.mem.dram = s.mem.dram ∧
      (∀ b, bankAdd bank p = .ok b → u.embUnit st = (if next then { y.1.embUnit st with nextBank := b } else { y.1.embUnit st with bank := b }) ∧
        ∀ j, j ≠ st → u.embUnit j = y.1.embUnit j)) ∧
  (∀ (t tc n : Nat) (k : Packet) (fnd : RowFinding) (s x : State), let d := s.tdesc (ekTable k); let vals := vals16 k.payload
    s.receives t tc n 0x12 k x → s.updPending k = false → s.emb.pieces = [] → d ≠ 0 → vals.length < tdD d →
    ∃ u, exec (.embUpd t tc n k fnd) s = .next u ∧ u = { x with emb := { s.emb with pieces :=
      [{ src := k.src, st := ekStack k, tag := ekTag k, row := bits (k.word 6) 63 32, parts := [(bits (k.word 6) 31 21, vals)], acks := [k] }] } }) ∧
  (∀ (t tc n : Nat) (k : Packet) (s x : State) (l : Look), s.receives t tc n 0x13 k x → ekCode k = 2 → s.lookOf k = some l →
    let l1 := { l with trigger := l.trigger || bitAt (k.word 6) 59, dones := l.dones ++ [k.src] }
    let changed (l1 : Look) : List Look := s.emb.looks.map (fun y => if y.tag = l.tag then l1 else y)
    ∃ u, exec (.embCtlDone t tc n k) s = .next u ∧
      (l1.reported k.src = false → u.emb = { s.emb with looks := changed l1 } ∧ u.cores = s.cores ∧ u.mem = s.mem ∧
        (stepCase k.step l.step = .late → ∀ d, s.cfe.find l.ref = some d → (u.cfe.find l.ref).map (·.late) = some true)) ∧
      (l1.reported k.src = true → ∃ w : State, u = (w.judgeLook l.tag).answer k 0 ∧ w.cores = s.cores ∧ w.mem = s.mem ∧
        w.emb = { s.emb with looks := changed { l1 with waiting := l1.waiting.erase (256 + k.src) } })) ∧
  (∀ (t tc n : Nat) (k : Packet) (s x : State), s.receives t tc n 0x13 k x → ekCode k = 3 →
    ∃ u, exec (.embCtlReplay t tc n k) s = .next u ∧ u.emb = { s.emb with shares := u.emb.shares } ∧ u.cores = s.cores ∧ u.mem = s.mem ∧
      u.emb.shares.length = s.emb.shares.length ∧
      (∀ (i : Nat) (h : Share), s.emb.shares[i]? = some h → ∃ g : Share, u.emb.shares[i]? = some g ∧
        (h.same k.src (ekStack k) (ekTag k) = true → h.round < k.round →
          g = { h with round := k.round, left := h.rows, slots := [], occ := [], pairs := 0, trunc := false, trigger := false, chkBad := false,
                       pooled := false, ended := false, eff := g.eff } ∧ (s.bankOpen h.eff = true → g.eff = h.eff)) ∧
        (h.same k.src (ekStack k) (ekTag k) = false ∨ k.round ≤ h.round → g = h))) ∧
  (∀ (t tc n : Nat) (k : Packet) (s x : State), s.receives t tc n 0x13 k x → ekCode k = 4 → let home := 256 + k.src; let waited := bitAt (k.word 6) 59
    (∀ v, s.emb.relays.find? (fun r => r.tag == ekTag k) = none → s.emb.upds.find? (fun u => u.tag == ekTag k) = some v →
      let v1 := { v with left := v.left - ekCount k, homes := Table.modify 0 v.homes home (fun c => c - ekCount k) }
      ∃ u, exec (.embCtlCombined t tc n k) s = .next u ∧ u.cores = s.cores ∧ u.mem = s.mem ∧
        u.emb = { s.emb with upds := (s.emb.upds.map (fun y => if y.tag = v.tag then v1 else y)).filter (fun y => y.left != 0) } ∧
        (∀ d, s.cfe.find v.ref = some d → waited = true ∨ stepCase k.step v.step = .late → (u.cfe.find v.ref).map (·.late) = some true)) ∧
    (∀ r, s.emb.relays.find? (fun r => r.tag == ekTag k) = some r →
      ∃ u, exec (.embCtlCombined t tc n k) s = .next u ∧ u.emb.relays = s.emb.relays.filter (fun y => y.tag != r.tag) ∧ u.cores = s.cores ∧
        u.mem = s.mem ∧ u = ((x.endRelay r).ackPartial { r.part with waited := waited } r.home k.step).answer k 0)) ∧
  (∀ (t tc n : Nat) (k : Packet) (s x : State) (l : Look), s.receives t tc n 0x13 k x → ekCode k = 5 →
    s.emb.relays.find? (fun r => r.tag == ekTag k) = none → s.emb.looks.find? (fun l => l.tag == ekTag k) = some l →
    ∃ u, exec (.embCtlFault t tc n k) s = .next u ∧ u.emb.looks = s.emb.looks.filter (fun y => y.tag != l.tag) ∧
      u = (x.failLook l { cause := (Cause.ofCode (ekCount k)).getD .requestFormat }).answer k 0) ∧
  (∀ (t tc n st frame hst hl : Nat) (k : Packet) (s x : State), let key := rowKey (ekTable k) (ekTag k)
    let a := s.frameDpa st frame (4096 * bits (k.word 6) 6 0); let old := s.emb.migs.find? (fun m => m.key == key && m.dstMod == k.src)
    s.receives t tc n 0x14 k x → s.region a = .hbm hst hl →
    ((∃ m, old = some m ∧ m.srcSt = st ∧ m.srcFrame = frame) ∨
      (old = none ∧ ∃ m, s.emb.migIns.find? (fun (m : MigIn) => m.key == key) = some m ∧ m.st = st ∧ m.frame = frame)) →
    ∃ u, exec (.embMig t tc n k) s = .next u ∧ u.cores = s.cores ∧ u.emb = s.emb ∧
      (∀ i, i < k.payload.length → u.mem.dram.read (a + i) = k.payload.getD i 0) ∧
      (∀ b, b < a ∨ a + k.payload.length ≤ b → u.mem.dram.read b = s.mem.dram.read b))

/-- DM_RALLY and the rally packets: a legal DM_RALLY arms its entry with the operation's tile and anchor, and marks the operation; a part that arrives
at an armed entry of the same round and anchor is added exactly into the sums that its tile takes up, or into the tile itself once the own tile is an
input; one that comes before the entry is armed is answered NOT_ARMED. A verdict reaches the operation its entry holds: ACCEPT closes its log, with BCAST
also replacing the tile by the final sums, REPLAY re-runs it, FAULT fails it. An entry not complete in its time fails. -/
def Obligations.RallyTree : Prop :=
  (∀ (t tb p w : Nat) (f : DmRally) (eng : MatEngine) (o : MatOp) (s : State), let c := s.coreAt t p; let ent := f.entry.toNat
    let d := s.rallyEntry ent; let mine (o : MatOp) : Bool := o.tile == f.acc.toNat && o.rally.isNone
    let mark (l : List MatOp) : List MatOp := l.map (fun y => if y.tile = o.tile ∧ y.rally.isNone then { y with rally := some ent } else y)
    s.issues t p .dt (.dmRally f) w c.portFree.dt [] [] → s.fullOut p < 4 → f.rsv = 0 → reValid d = true → reRole d ≠ 3 → reOwn d = s.posOf p →
    ((eng = .mxa ∧ c.mxaDone.find? mine = some o) ∨ (eng = .mvp ∧ c.mxaDone.find? mine = none ∧ c.mvpDone.find? mine = some o)) →
    (s.rally ent).armed = false →
    ∃ u, exec (.dmRally t tb p f) s = .next u ∧
      u = { s.atC t with bclk := max s.bclk tb, cores := u.cores, links := { s.links with rally := u.links.rally } } ∧
      u.rally ent = { armed := true, pos := p, tile := o.tile, ref := s.taskRef p, eng := eng, anchor := o.anchor, armedAt := max s.bclk tb } ∧
      (∀ e, e ≠ ent → u.rally e = s.rally e) ∧ (∀ k, k ≠ p → u.core k = s.core k) ∧
      (u.core p).closedOps eng = mark (c.closedOps eng) ∧
      u.core p = { c with mxaDone := if eng = .mxa then mark c.mxaDone else c.mxaDone, mvpDone := if eng = .mvp then mark c.mvpDone else c.mvpDone,
                          qDt := c.qDt.tail, lastIssue := (u.core p).lastIssue, portFree := (u.core p).portFree,
                          completeAt := (u.core p).completeAt, accesses := (u.core p).accesses }) ∧
  (∀ (t tc n : Nat) (k : Packet) (s x : State), let e := rkDent k; let d := s.rallyEntry e; let r := s.rally e; let slot0 := bits (k.word 6) 13 0
    let parts := ((vals16 k.payload).zipIdx).map (fun v => (slot0 + v.2, v.1))
    s.receives t tc n 0x20 k x → reValid d = true → (reRole d = 1 ∨ reRole d = 2) → reOwn d = rkDpos k →
    (r.armed = false → ∃ u, exec (.rallyPart t tc n k) s = .next u ∧ u = x.answer k 1 ∧ u.cores = s.cores ∧ (u.rally e) = r) ∧
    (r.armed = true → bits (k.word 1) 31 0 = reOpid d → k.round = r.round → signedOf 10 (bits (k.word 6) 63 54) = r.anchor →
      let r1 : Rally := { r with children := addChild r.children k.src (rkSpos k) (rkSent k) parts.length (reSlots d),
                                 pcount := if slot0 = 0 then r.pcount + bits (k.word 6) 53 29 else r.pcount,
                                 trigger := r.trigger || bitAt (k.word 6) 28 }
      (r.own = false → ∃ u, exec (.rallyPart t tc n k) s = .next u ∧ u.cores = s.cores ∧ u.mem = s.mem ∧
        u.rally e = { r1 with sums := addChk r.sums parts } ∧ ∀ j, j ≠ e → u.rally j = s.rally j) ∧
      (r.own = true → ∃ u w : State, exec (.rallyPart t tc n k) s = .next u ∧ u = (w.rallyCheck w.cclk e).answer k 0 ∧ w.mem = s.mem ∧
        w.rally e = r1 ∧ (∀ q, q ≠ r.pos → w.core q = s.core q) ∧ w.core r.pos = { s.core r.pos with acm := (w.core r.pos).acm } ∧
        (∀ (i : Nat) (v : Int), (vals16 k.payload)[i]? = some v → let a := r.tile * 16384 + tileSlot (reCols d) (slot0 + i)
          Table.get (0 : W128) (w.core r.pos).acm a = Table.get (0 : W128) (s.core r.pos).acm a + BitVec.ofInt 128 v)))) ∧
  (∀ (t tc n : Nat) (k : Packet) (s x : State), let e := rkDent k; let r := s.rally e; let d := s.rallyEntry e; let v := bits (k.word 6) 63 62
    s.receives t tc n 0x21 k x → r.armed = true → reOwn d = rkDpos k → bits (k.word 1) 31 0 = reOpid d →
    (v = 0 → ∃ u, exec (.rallyAccept t tc n k) s = .next u ∧ u.mem = s.mem ∧ (∀ p, p ≠ r.pos → u.core p = s.core p) ∧
      (u.core r.pos).spm = (s.core r.pos).spm ∧
      (k.payload = [] ∨ s.rallyOp e = none → (u.rally e).armed = false ∧ (u.core r.pos).acm = (s.core r.pos).acm) ∧
      (∀ o, k.payload = [] → s.rallyOp e = some o →
        (u.core r.pos).closedOps r.eng = ((s.core r.pos).closedOps r.eng).filter (fun y => y.tile != o.tile)) ∧
      (∀ o, k.payload ≠ [] → s.rallyOp e = some o → let len := (vals16 k.payload).length
        (∀ (i : Nat) (x : Int), (vals16 k.payload)[i]? = some x →
          Table.get (0 : W128) (u.core r.pos).acm (r.tile * 16384 + tileSlot (reCols d) (bits (k.word 6) 13 0 + i)) = BitVec.ofInt 128 x) ∧
        (reSlots d ≤ r.got + len → (u.rally e).armed = false ∧ ((u.core r.pos).tile o.tile).done = true) ∧
        (r.got + len < reSlots d → (u.rally e).got = r.got + len))) ∧
    (v = 1 → ∃ u, exec (.rallyReplay t tc n k) s = .next u ∧ u.mem.dram = s.mem.dram ∧ (∀ p, p ≠ r.pos → u.core p = s.core p) ∧
      u = ((x.forwardVerdict e k).replayRally x.cclk e (signedOf 10 (bits (k.word 6) 61 52))).answer k 0) ∧
    (v = 2 → ∃ u, exec (.rallyFault t tc n k) s = .next u ∧ u.mem.dram = s.mem.dram ∧ (u.rally e).armed = false ∧
      u = (x.failRally e .rallyMismatch).answer k 0)) ∧
  (∀ (t tc e : Nat) (s : State), let r := s.rally e; let d := s.rallyEntry e
    r.armed = true → reRole d ≠ 0 → r.sent = false → r.armedAt + reTous d * 1000 ≤ max s.bclk t →
    ∃ u, exec (.rallyTimeout t tc e) s = .next u ∧ u = (s.atBC t tc).failRally e .rallyTimeout ∧ (u.rally e).armed = false ∧
      u.mem.dram = s.mem.dram)

/-- CONTROL_WORD: a decoded word acknowledges held packets in order, returns credits modulo 128 in units of 8 flits, names a command of the other end
and steps a tap; on NAK every packet still held is resent in order, within the bounds of a retry, and its command records LINK_RETRY; after 8 words
that did not decode the port is DOWN. In every frame that leaves the port usable it sends its own word, with at most 10 units of credit returned.
CONTROL_WORD_LOSS takes the port DOWN, holding nothing. LINK_RETRY_TIMEOUT resends every held packet, or at its bounds takes the port DOWN.
NOT_ARMED_RESEND and E2E_TIMEOUT: an unanswered request is sent again until its bound; at the bound it is given up and its owner fails. -/
def Obligations.LinksAndRetries : Prop :=
  (∀ (t n w : Nat) (fields : List (Option Nat)) (s : State), let p := s.port n; let now := max s.bclk t; let ack := bits w 79 64; let el := bits w 19 16
    let copy := p.mirror.bind (fun m => if (p.lane m.spare).rx = .shadow then (fields.getD p.rxMap.length none).map (fun v => (m.pos, v)) else none)
    let tot := [bits w 41 35, bits w 48 42, bits w 55 49, bits w 62 56]; let acked := p.held.any (fun h => h.lseq.toNat == ack)
    let left := if acked then (p.held.dropWhile (fun h => h.lseq.toNat != ack)).drop 1 else p.held
    let units (i : Nat) : Nat := min 10 (p.credRet.getD i 0 / 8)
    p.usable = true → controlWord (fields.take p.rxMap.length) copy = some w → bitAt w 63 = false →
    ∃ u, exec (.controlWord t n fields) s = .next u ∧ u = { s.atB t with links := { s.links with ports := u.links.ports }, out := u.out } ∧
      (∀ m, m ≠ n → u.port m = s.port m) ∧ left <+: (u.port n).held ∧
      (p.waiting = [] →
        u.port n = { p with missed := 0, held := left, progressAt := if acked then now else p.progressAt, credit := (u.port n).credit, credSeen := tot,
                            peerCmd := if bits w 34 32 = 0 then p.peerCmd else some ⟨bits w 34 32, bits w 31 28, now * 5 / 64 + bits w 27 20⟩,
                            lanes := if el < 9 then listSet p.lanes el ((p.lane el).eqStep (bits w 15 12) (bits w 11 10)) else p.lanes,
                            eqOut := p.eqOut.drop 1, credTot := (u.port n).credTot, credRet := (u.port n).credRet } ∧
        (∀ i, i < 4 → (u.port n).credTot.getD i 0 = (p.credTot.getD i 0 + units i) % 128 ∧
          (u.port n).credRet.getD i 0 = p.credRet.getD i 0 - 8 * units i) ∧
        (∀ i, i < 4 → p.credit.length = 4 → p.credSeen.length = 4 →
          (u.port n).credit.getD i 0 = p.credit.getD i 0 + (tot.getD i 0 + 128 - p.credSeen.getD i 0 % 128) % 128 * 8) ∧
        ∃ out, u.out = [Output.control n out] ∧ (p.txMirror = none → out.map (fun x => x.1) = p.txMap))) ∧
  (∀ (t n w : Nat) (fields : List (Option Nat)) (s : State), let p := s.port n; let now := max s.bclk t; let ack := bits w 79 64
    let acked := p.held.any (fun h => h.lseq.toNat == ack); let left := if acked then (p.held.dropWhile (fun h => h.lseq.toNat != ack)).drop 1 else p.held
    let since := if acked then now else p.progressAt
    let limit : Prop := left.any (fun h => decide (s.obj 0x2700 4 ≤ h.resends)) = true ∨ since + s.obj 0x2700 5 ≤ now
    p.usable = true → p.mirror = none → controlWord (fields.take p.rxMap.length) none = some w → bitAt w 63 = true → left ≠ [] →
    ∃ u, exec (.controlWord t n fields) s = .next u ∧ (∀ m, m ≠ n → u.port m = s.port m) ∧ u.links.reqs = s.links.reqs ∧ u.cores = s.cores ∧
      u.mem = s.mem ∧
      (limit → (u.port n).st = .down ∧ (u.port n).held = [] ∧ (u.port n).waiting = [] ∧ u.cfe = s.cfe) ∧
      (¬ limit → (u.port n).st = p.st ∧ left.map (fun h => { h with resends := h.resends + 1 }) <+: (u.port n).held ∧
        left.map (fun h => Output.packet n h.pkt) <+: u.out ∧ ∀ h ∈ left, ∀ d, h.pkt.cmdref ≠ 0 → s.cfe.find h.pkt.cmdref = some d → d.reason = 0 →
          (u.cfe.find h.pkt.cmdref).map (fun c => c.reason) = some 0x09)) ∧
  (∀ (t n : Nat) (fields : List (Option Nat)) (s : State), let p := s.port n
    p.usable = true → p.mirror = none → controlWord (fields.take p.rxMap.length) none = none →
    ∃ u, exec (.controlWord t n fields) s = .next u ∧ (∀ m, m ≠ n → u.port m = s.port m) ∧ u.links.reqs = s.links.reqs ∧ u.cores = s.cores ∧
      u.mem = s.mem ∧
      (p.missed + 1 < 8 → u.port n = { p with missed := p.missed + 1, eqOut := p.eqOut.drop 1, credTot := (u.port n).credTot, credRet := (u.port n).credRet } ∧
        ∃ out, u.out = [Output.control n out]) ∧
      (8 ≤ p.missed + 1 → (u.port n).st = .down ∧ (u.port n).held = [])) ∧
  (∀ (t n : Nat) (s : State), let p := s.port n
    p.usable = true →
    ∃ u, exec (.controlWordLoss t n) s = .next u ∧
      u = { s.atB t with links := { s.links with ports := u.links.ports }, err := u.err, host := u.host, out := u.out } ∧
      (∀ m, m ≠ n → u.port m = s.port m) ∧ (u.port n).st = .down ∧ (u.port n).held = [] ∧ (u.port n).waiting = [] ∧ (u.port n).rxMap = [] ∧
      (u.port n).txMap = [] ∧ (u.port n).repair = true ∧ (u.port n).txNext = 0 ∧ (u.port n).rxNext = 0 ∧
      (u.port n).credit = [256, 3072, 3072, 3072]) ∧
  (∀ (t n : Nat) (s : State), let p := s.port n; let now := max s.bclk t
    let limit : Prop := p.held.any (fun h => decide (s.obj 0x2700 4 ≤ h.resends)) = true ∨ p.progressAt + s.obj 0x2700 5 ≤ now
    p.usable = true → p.held ≠ [] → max p.progressAt p.resentAt + 2000 ≤ now →
    ∃ u, exec (.linkRetryTimeout t n) s = .next u ∧ (∀ m, m ≠ n → u.port m = s.port m) ∧ u.links.reqs = s.links.reqs ∧ u.cores = s.cores ∧
      u.mem = s.mem ∧
      (limit → (u.port n).st = .down ∧ (u.port n).held = [] ∧ (u.port n).waiting = [] ∧ u.cfe = s.cfe) ∧
      (¬ limit → u.out = p.held.map (fun h => Output.packet n h.pkt) ∧
        u.port n = { p with held := p.held.map (fun h => { h with resends := h.resends + 1 }), resentAt := now, lresends := (u.port n).lresends } ∧
        ∀ h ∈ p.held, ∀ d, h.pkt.cmdref ≠ 0 → s.cfe.find h.pkt.cmdref = some d → d.reason = 0 →
          (u.cfe.find h.pkt.cmdref).map (fun c => c.reason) = some 0x09)) ∧
  (∀ (t dst eseq at' : Nat) (r : E2e) (s : State), let now := max s.bclk t; let k := r.pkt.restamp r.eseq true
    let again (x : E2e) : E2e := if x.dst = r.dst ∧ x.eseq = r.eseq then { x with notArmed := none, port := (s.atB t).portFor k, lastAt := now } else x
    s.reqOf dst eseq = some r → r.notArmed = some at' → at' + 2000 ≤ now →
    ∃ u, exec (.notArmedResend t dst eseq) s = .next u ∧
      (now < r.sentAt + s.retryBound → u = { s.atB t with links := u.links, out := u.out } ∧ u.links.reqs = s.links.reqs.map again ∧
        (k.dst = s.modId → u.out = [Output.fabricPacket k])) ∧
      (r.sentAt + s.retryBound ≤ now → u = ((s.atB t).dropReq dst eseq).failOwner r.owner .linkTimeout)) ∧
  (∀ (t dst eseq : Nat) (r : E2e) (s : State), let now := max s.bclk t; let k := r.pkt.restamp r.eseq true
    let again (x : E2e) : E2e :=
      if x.dst = r.dst ∧ x.eseq = r.eseq then { x with resends := x.resends + 1, port := (s.atB t).portFor k, lastAt := now } else x
    s.reqOf dst eseq = some r → r.notArmed = none → r.lastAt + s.obj 0x2700 2 ≤ now →
    ∃ u, exec (.e2eTimeout t dst eseq) s = .next u ∧
      (r.resends < s.obj 0x2700 3 → u = { s.atB t with links := u.links, out := u.out } ∧ u.links.reqs = s.links.reqs.map again ∧
        (k.dst = s.modId → u.out = [Output.fabricPacket k])) ∧
      (s.obj 0x2700 3 ≤ r.resends → u = ((s.atB t).dropReq dst eseq).failOwner r.owner .linkTimeout ∧
        ∀ ref, r.owner = .cfe ref → s.links.backlog = [] →
          let x : State := { s.atB t with links := { s.links with reqs := s.links.reqs.filter (fun q => !(q.dst == dst && q.eseq == eseq)) } }
          u = x.faultCommand { cause := .linkTimeout, engine := .cfe, cmdref := ref }))

/-- FAILOVER_TRIGGER, MIRROR_CHECK, the four LCMD rows, LANE_TRAINED: a trigger starts a replacement, or a narrowing where no spare is left, and a second
one waits; sparing moves a position to the spare and the old lane is FAILED; narrowing drops it and widening lets a lane carry a position again, with
the state that the live lanes give; training gives a lane its place, in a repair slot where it is repair work.
EQ_ADAPT and EQREAD_REFRESH: an adaptation moves each tap of an unpinned lane by at most one step and a pinned lane keeps its taps; a refresh
writes the readout and leaves the taps. The frame a command names is the model's choice (log 113). -/
def Obligations.LaneRepair : Prop :=
  (∀ (t n l csym ucw : Nat) (lock : Bool) (s : State), let p := s.port n; let reactive := lock || decide (s.obj 0x2700 7 ≤ ucw); let fr := (s.atB t).frame
    let cmd (code pos : Nat) : Option LinkCmd := some ⟨code, pos, fr + Config.linkLead n fr⟩
    p.usable = true → (reactive = true ∨ s.obj 0x2700 6 < csym) →
    ∃ u, exec (.failoverTrigger t n l csym ucw lock) s = .next u ∧ u = { s.atB t with links := { s.links with ports := u.links.ports } } ∧
      (∀ m, m ≠ n → u.port m = s.port m) ∧
      ((p.lane l).rx = .active → (p.mirror.isSome ∨ p.sendCmd.isSome) → u.port n = { p with queued := p.queued ++ [.replace l reactive] }) ∧
      (∀ pos, (p.lane l).rx = .active → p.mirror = none → p.sendCmd = none → p.posOf true l = some pos →
        (p.spare true = none → u.port n = { p with sendCmd := cmd 3 pos }) ∧
        (∀ sp, p.spare true = some sp →
          (reactive = true → u.port n = { p with sendCmd := cmd 2 pos, mirror := some ⟨pos, l, sp, max s.bclk t⟩ }) ∧
          (reactive = false → u.port n = { p with sendCmd := cmd 1 pos, mirror := some ⟨pos, l, sp, max s.bclk t⟩,
                                                  lanes := listSet p.lanes sp { (p.lane sp) with rx := .shadow } }))) ∧
      (∀ m, (p.lane l).rx = .shadow → p.mirror = some m →
        u.port n = { p with sendCmd := cmd 3 m.pos, mirror := none, lanes := listSet p.lanes l { (p.lane l) with rx := .train } })) ∧
  (∀ (t n : Nat) (ok : Bool) (m : Mirror) (s : State), let p := s.port n; let fr := (s.atB t).frame
    p.mirror = some m → (p.lane m.spare).rx = .shadow →
    ∃ u, exec (.mirrorCheck t n ok) s = .next u ∧ u = { s.atB t with links := { s.links with ports := u.links.ports } } ∧
      (∀ k, k ≠ n → u.port k = s.port k) ∧ (ok = true → u.port n = { p with sendCmd := some ⟨2, m.pos, fr + 256⟩ }) ∧
      (ok = false → u.port n = { p with sendCmd := some ⟨3, m.pos, fr + Config.linkLead n fr⟩, mirror := none,
                                        lanes := listSet p.lanes m.spare { (p.lane m.spare) with rx := .train } })) ∧
  (∀ (t n sp : Nat) (c : LinkCmd) (s : State), let p := s.port n
    p.peerCmd = some c → c.code = 1 → p.spare false = some sp →
    ∃ u, exec (.lcmdMirror t n) s = .next u ∧ u = { s.atB t with links := { s.links with ports := u.links.ports } } ∧
      (∀ k, k ≠ n → u.port k = s.port k) ∧
      u.port n = { p with peerCmd := none, txMirror := some c.pos, lanes := listSet p.lanes sp { (p.lane sp) with tx := .shadow } }) ∧
  (∀ (t n : Nat) (m : Mirror) (c : LinkCmd) (s : State), let p := s.port n; let old := p.rxMap.getD m.pos 0
    p.mirror = some m → p.sendCmd = some c → c.code = 2 → m.pos < p.rxMap.length → m.spare < p.lanes.length → old < p.lanes.length → old ≠ m.spare →
    ∃ u, exec (.lcmdSwitch t n true) s = .next u ∧
      u = { s.atB t with links := { s.links with ports := u.links.ports }, err := u.err, host := u.host, out := u.out } ∧
      (∀ k, k ≠ n → u.port k = s.port k) ∧ (u.port n).rxMap = listSet p.rxMap m.pos m.spare ∧ (u.port n).txMap = p.txMap ∧
      ((u.port n).lane old).rx = .failed ∧ (u.port n).failovers = satInc p.failovers 64 ∧ (u.port n).st = p.st ∧
      (p.queued = [] → (u.port n).mirror = none ∧ (u.port n).sendCmd = none ∧ ((u.port n).lane m.spare).rx = .active ∧
        ∀ k, k ≠ old → k ≠ m.spare → (u.port n).lane k = p.lane k)) ∧
  (∀ (t n l : Nat) (c : LinkCmd) (s : State), let p := s.port n; let old := p.txMap.getD c.pos 0
    p.peerCmd = some c → c.code = 2 → (List.range 9).find? (fun l => (p.lane l).tx == .shadow || (p.lane l).tx == .spare) = some l →
    c.pos < p.txMap.length → old < p.lanes.length → l < p.lanes.length → old ≠ l →
    ∃ u, exec (.lcmdSwitch t n false) s = .next u ∧
      u = { s.atB t with links := { s.links with ports := u.links.ports }, err := u.err, host := u.host, out := u.out } ∧
      (∀ k, k ≠ n → u.port k = s.port k) ∧
      u.port n = { p with txMap := listSet p.txMap c.pos l, peerCmd := none, txMirror := none, failovers := satInc p.failovers 64,
                          lanes := (u.port n).lanes } ∧
      ((u.port n).lane old).tx = .failed ∧ ((u.port n).lane l).tx = .active ∧ ∀ k, k ≠ old → k ≠ l → (u.port n).lane k = p.lane k) ∧
  (∀ (t n : Nat) (rx : Bool) (c : LinkCmd) (s : State), let p := s.port n; let old := (p.map' rx).getD c.pos 0
    (if rx then p.sendCmd else p.peerCmd) = some c → c.code = 3 → c.pos < (p.map' rx).length → p.usable = true →
    ∃ u, exec (.lcmdNarrow t n rx) s = .next u ∧ (∀ k, k ≠ n → u.port k = s.port k) ∧ u.cores = s.cores ∧ u.mem = s.mem ∧ u.links.reqs = s.links.reqs ∧
      ((p.narrow rx c.pos).live < 4 → (u.port n).st = .down ∧ (u.port n).held = []) ∧
      (4 ≤ (p.narrow rx c.pos).live →
        (u.port n).map' rx = (List.range 9).filter (fun l => l != old && (p.map' rx).contains l) ∧
        (u.port n).map' (!rx) = p.map' (!rx) ∧ (u.port n).failovers = satInc p.failovers 64 ∧ (u.port n).held = p.held ∧
        (u.port n).st = (if (u.port n).rxMap.length = 8 ∧ (u.port n).txMap.length = 8 then .up else .narrow) ∧
        (old < p.lanes.length → ((u.port n).lane old).dir rx = .failed))) ∧
  (∀ (t n : Nat) (rx : Bool) (c : LinkCmd) (s : State), let p := s.port n
    (if rx then p.sendCmd else p.peerCmd) = some c → c.code = 4 → c.pos < 9 → (p.map' rx).length < 8 → p.usable = true → 4 ≤ (p.join rx c.pos).live →
    ∃ u, exec (.lcmdWiden t n rx) s = .next u ∧ (∀ k, k ≠ n → u.port k = s.port k) ∧ u.cores = s.cores ∧ u.mem = s.mem ∧
      (u.port n).map' rx = (List.range 9).filter (fun x => x == c.pos || (p.map' rx).contains x) ∧ (u.port n).map' (!rx) = p.map' (!rx) ∧
      (u.port n).st = (if (u.port n).rxMap.length = 8 ∧ (u.port n).txMap.length = 8 then .up else .narrow)) ∧
  (∀ (t n l rtt : Nat) (rx pass : Bool) (s : State), let p := s.port n; let repair := p.trains (p.lane l); let work := [laneTouch n l]; let s0 := s.atB t
    (p.lane l).dir rx = .train → l < p.lanes.length → (repair = true → s0.mayRepair .laneRetrain work = true) →
    ∃ u, exec (.laneTrained t n l rx pass rtt) s = .next u ∧ (∀ k, k ≠ n → u.port k = s.port k) ∧ u.cores = s.cores ∧ u.mem = s.mem ∧
      u.links.reqs = s.links.reqs ∧ u.fix = (if repair then (s0.placeRepair .laneRetrain work).fix else s.fix) ∧ u.cfe = s.cfe ∧
      (pass = false → p.st ≠ .training → u.port n = { p with rtt := rtt, lanes := (u.port n).lanes } ∧ ((u.port n).lane l).dir rx = .failed ∧
        ∀ k, k ≠ l → (u.port n).lane k = p.lane k) ∧
      (pass = true → p.st ≠ .training → (p.map' rx).length = 8 → ((u.port n).lane l).dir rx = .spare ∧ (u.port n).map' rx = p.map' rx) ∧
      (pass = true → p.st ≠ .training → rx = true → p.rxMap.length < 8 → p.mirror = none → p.sendCmd = none →
        (u.port n).sendCmd = some ⟨4, l, s0.frame + Config.linkLead n s0.frame⟩ ∧ (u.port n).rxMap = p.rxMap) ∧
      (pass = true → p.st = .training → (∃ k, k ≠ l ∧ k < p.lanes.length ∧ (p.lane k).rx = .train) →
        (u.port n).st = .training ∧ (u.port n).rtt = rtt ∧ (u.port n).map' (!rx) = p.map' (!rx) ∧ (∀ k, k ≠ l → (u.port n).lane k = p.lane k) ∧
        ((p.map' rx).length < 8 → l < 9 → (l < 8 ∨ p.busyLanes rx ≤ 8) → ((u.port n).lane l).dir rx = .active ∧ l ∈ (u.port n).map' rx) ∧
        (8 ≤ (p.map' rx).length ∨ (8 ≤ l ∧ 8 < p.busyLanes rx) → ((u.port n).lane l).dir rx = .spare ∧ (u.port n).map' rx = p.map' rx))) ∧
  (∀ (t n l : Nat) (d : List Int) (s : State), let p := s.port n; let x := p.lane l
    n < 12 → l < 9 → l < p.lanes.length → (x.rx = .active ∨ x.rx = .spare ∨ x.rx = .shadow) →
    ∃ u, exec (.eqAdapt t n l d) s = .next u ∧ u = { s.atB t with links := { s.links with ports := u.links.ports } } ∧
      (∀ k, k ≠ n → u.port k = s.port k) ∧ (∀ k, k ≠ l → (u.port n).lane k = p.lane k) ∧
      (x.pin ≠ 0 → u.port n = p) ∧
      (x.pin = 0 → let y := (u.port n).lane l
        u.port n = { p with lanes := (u.port n).lanes, eqOut := p.eqOut ++ eqSteps l d } ∧ y = { x with rxffe := y.rxffe, dfe := y.dfe, ctle := y.ctle } ∧
        y.dfe - x.dfe ≤ 1 ∧ x.dfe - y.dfe ≤ 1 ∧ y.rxffe.length = x.rxffe.length ∧
        ∀ (i : Nat) (a b : Int), x.rxffe[i]? = some a → y.rxffe[i]? = some b → b = a + max (-1) (min 1 (d.getD i 0)))) ∧
  (∀ (t n l snr eyew csym ucw : Nat) (eyeh : List Nat) (s : State), let p := s.port n; let x := p.lane l
    n < 12 → l < 9 → l < p.lanes.length →
    ∃ u, exec (.eqreadRefresh t n l snr eyeh eyew csym ucw) s = .next u ∧ u = { s.atB t with links := { s.links with ports := u.links.ports } } ∧
      (∀ k, k ≠ n → u.port k = s.port k) ∧ (∀ k, k ≠ l → (u.port n).lane k = p.lane k) ∧
      u.port n = { p with lanes := (u.port n).lanes, csym := min (p.csym + csym) (2 ^ 64 - 1), ucw := min (p.ucw + ucw) (2 ^ 64 - 1) } ∧
      (u.port n).lane l = { x with readout := leBytes 2 snr ++ (List.range 3).flatMap (fun i => leBytes 2 (eyeh.getD i 0)) ++ leBytes 2 eyew ++
                                              leBytes 4 csym ++ leBytes 2 ucw ++ x.taps ++ List.replicate 4 0 })

/-! ### The host attachment (13_host_cxl.md) -/

/-- CXL_LINK_DOWN, CXL_HOT_RESET, CXL_PERST_ASSERT, CXL_PERST_RELEASE, FUNCTION_LEVEL_RESET, HOSTTO_EXPIRY, LINK_B_TAKEOVER, CXL_LINK_TRAINED: every kind
of host loss detaches the CFE, counts, and ends the reads and stores that wait; all but a time-out reset the host side, and all but a function-level
reset and a time-out take the link down. A legal width and speed bring it up, and a lower rate slows the work that waits for the host; a link short
of the minimum counts as down. -/
def Obligations.HostLink : Prop :=
  (∀ (t : Nat) (s : State) (c : Instr), c ∈ [Instr.cxlLinkDown t, .cxlHotReset t, .cxlPerstAssert t] → s.host.linkUp = true →
    ∃ u, exec c s = .next u ∧ u.cfe.att = .detached ∧ u.host.reads = [] ∧ u.host.stores = [] ∧ u.mem.dram = s.mem.dram ∧ u.flash = s.flash ∧
      u.host = { s.host.resetSide with linkUp := false, width := 0, speed := 0, downAt := some (max s.bclk t), losses := satInc s.host.losses 64,
                                       perst := decide (c = .cxlPerstAssert t) || s.host.perst, pba := u.host.pba, reads := [], stores := [] } ∧
      (s.host.reads = [] → s.host.stores = [] →
        u = { s.atB t with cfe := { s.cfe with att := .detached }, err := u.err, host := u.host, out := u.out })) ∧
  (∀ (t : Nat) (s : State) (c : Instr), c ∈ [Instr.cxlLinkDown t, .cxlHotReset t, .functionLevelReset t] → s.host.linkUp = false →
    exec c s = .next (s.atB t)) ∧
  (∀ (t : Nat) (s : State), s.host.linkUp = false → exec (.cxlPerstAssert t) s = .next { s.atB t with host := { s.host with perst := true } }) ∧
  (∀ (t : Nat) (s : State), exec (.cxlPerstRelease t) s = .next { s.atB t with host := { s.host with perst := false } }) ∧
  (∀ (t : Nat) (s : State), s.host.linkUp = true →
    ∃ u, exec (.functionLevelReset t) s = .next u ∧ u.cfe.att = .detached ∧ u.mem.dram = s.mem.dram ∧
      u.host = { s.host.resetSide with losses := satInc s.host.losses 64, pba := u.host.pba, reads := [], stores := [] } ∧
      (s.host.reads = [] → s.host.stores = [] →
        u = { s.atB t with cfe := { s.cfe with att := .detached }, err := u.err, host := u.host, out := u.out })) ∧
  (∀ (t id : Nat) (s : State), let late (at' : Nat) : Bool := decide (at' + s.obj 0x2900 2 * 1000 ≤ max s.bclk t)
    (s.host.reads.any (fun r => r.id == id && late r.sentAt) || s.host.stores.any (fun h => h.id == id && late h.sentAt)) = true →
    ∃ u, exec (.hosttoExpiry t id) s = .next u ∧ u.cfe.att = .detached ∧ u.mem.dram = s.mem.dram ∧
      u.host = { s.host with losses := satInc s.host.losses 64, pba := u.host.pba, reads := [], stores := [] }) ∧
  (∀ (t d : Nat) (s : State), s.host.downAt = some d → s.start.bifur = 1 → s.host.linkUp = false → s.host.perst = false →
    d + 100000000 ≤ max s.bclk t →
    exec (.linkBTakeover t) s = .next { s.atB t with host := { s.host with active := 1 - s.host.active, downAt := some (max s.bclk t) } }) ∧
  (∀ (t width speed : Nat) (s : State), s.start.st = .running → s.start.mgcAt ≤ max s.bclk t → s.host.perst = false → s.linkLegal width speed = true →
    ∃ u, exec (.cxlLinkTrained t width speed) s = .next u ∧ u = { s.atB t with host := u.host, cfe := u.cfe } ∧
      u.host = { s.host with linkUp := true, width := width, speed := speed, downAt := none, chargeNext := some (100000 * width * speed / 10240) } ∧
      (s.host.linkUp = false ∨ s.host.width * s.host.speed ≤ width * speed → u.cfe = s.cfe) ∧
      (s.host.linkUp = true → width * speed < s.host.width * s.host.speed →
        ∀ r ∈ s.host.reads, ∀ d, s.cfe.find r.ref = some d → d.reason = 0 → (u.cfe.find r.ref).map (fun c => c.reason) = some 0x0B)) ∧
  (∀ (t width speed : Nat) (s : State), s.start.st = .running → s.start.mgcAt ≤ max s.bclk t → s.host.perst = false → s.linkLegal width speed = false →
    ∃ u, exec (.cxlLinkTrained t width speed) s = .next u ∧ u.host.linkUp = false ∧ (s.host.linkUp = false → u = s.atB t) ∧
      (s.host.linkUp = true → u.cfe.att = .detached))

/-- HOST_READ_RESPONSE, HOST_WRITE_GO, HOST_SNOOP, BI_RESPONSE: an answer ends what waited for it and no other, poison faults the transfer that read;
every snoop is answered without data; a back-invalidate's answer lets what waited for the line go on, its dirty bytes are a host write of the unit,
and an invalidating one ends the host's hold of the line.
MAILBOX_H2D_WRITE and MAILBOX_D2H_READ: a whole write of a bound slot lands in its core's scratchpad and counts on its counter, and any other write is
dropped and counted; a read answers 64 bytes of it. The four rows of the primary mailbox answer, with the CXL standard's bytes free. -/
def Obligations.HostAnswers : Prop :=
  (∀ (t tc id : Nat) (data : List Byte) (r : HostRead) (s : State), let left := s.host.reads.filter (fun x => x.id != id)
    let take (y : Xfer) : Xfer := if y.id = r.xfer then { y with got := y.got ++ [(r.src, data)] } else y
    s.host.reads.find? (fun r => r.id == id) = some r → data.length = r.len →
    exec (.hostReadResponse t tc id data false) s =
      .next { s.atBC t tc with host := { s.host with reads := left }, mem := { s.mem with xfers := s.mem.xfers.map take } }) ∧
  (∀ (t tc id : Nat) (data : List Byte) (r : HostRead) (s : State), let left := s.host.reads.filter (fun x => x.id != id)
    s.host.reads.find? (fun r => r.id == id) = some r →
    ∃ u, exec (.hostReadResponse t tc id data true) s = .next u ∧ u.host.poisonRx = satInc s.host.poisonRx 64 ∧ u.host.reads = left ∧
      (s.xfer r.xfer = none → u = { s.atBC t tc with host := u.host }) ∧
      (∀ x, s.xfer r.xfer = some x → (u.xfer r.xfer).map (fun y => y.st) = some .failed ∧
        ∀ y ∈ s.mem.xfers, y.id ≠ r.xfer → y ∈ u.mem.xfers)) ∧
  (∀ (t tc id : Nat) (h : HostStore) (s : State), s.host.stores.find? (fun h => h.id == id) = some h →
    ∃ u, exec (.hostWriteGo t tc id) s = .next u ∧ u.host.stores = s.host.stores.filter (fun x => x.id != id) ∧ u.mem.dram = s.mem.dram ∧
      u.cfe.cmds = s.cfe.cmds ∧ u.fix = s.fix ∧ u.links = s.links ∧
      (h.xfer = none → u.mem = s.mem ∧ u.cores = s.cores) ∧
      (∀ x k, h.xfer = some (x, k) → (∀ y, s.xfer x = some y → (∀ p, p ≠ y.pos → u.core p = s.core p) ∧
        u.mem.xfers = s.mem.xfers.map (fun y => if y.id = x then { y with sent := y.sent.erase k } else y)) ∧ u.out = [])) ∧
  (∀ (t addr : Nat) (s : State), s.host.linkUp = true → exec (.hostSnoop t addr) s = .next { s.atB t with out := [.snoopHit addr] }) ∧
  (∀ (t line : Nat) (data : Option (List Byte)) (b : BackInv) (s : State), let d := line * 64; let inv (x : BackInv) : Bool := x.line != line
    s.host.bi.find? (fun b => b.line == line && !b.answered) = some b → (∀ bs ∈ data, bs.length = 64) → s.isBad d = false →
    s.placeOf d 64 = some (.dram d) →
    ∃ u, exec (.biResponse t line ⟨data, false, .ok⟩) s = .next u ∧ u.cores = s.cores ∧ u.cfe = s.cfe ∧ u.links = s.links ∧ u.mem.xfers = s.mem.xfers ∧
      (data = none → u.mem = s.mem) ∧
      (∀ bs, data = some bs → ∀ i, i < 64 → u.mem.dram.read (d + i) = bs.getD i 0) ∧
      (∀ a, a < d ∨ d + 64 ≤ a → u.mem.dram.read a = s.mem.dram.read a) ∧
      (b.inv = true → u.host = { s.host with bi := s.host.bi.filter inv, snoop := s.host.snoop.filter (fun l => l != line) }) ∧
      (b.inv = false → u.host = { s.host with bi := s.host.bi.map (fun x => if x.line = line ∧ ¬ x.inv then { x with answered := true } else x) })) ∧
  (∀ (t line : Nat) (bs : List Byte) (poison : Bool) (b : BackInv) (s : State), let d := line * 64
    s.host.bi.find? (fun b => b.line == line && !b.answered) = some b → (poison = true ∨ s.isBad d = true) →
    ∃ u, exec (.biResponse t line ⟨some bs, poison, .ok⟩) s = .next u ∧ u.mem.dram = s.mem.dram ∧ u.cores = s.cores ∧
      (b.inv = true → line ∉ u.host.snoop ∧ ∀ x ∈ u.host.bi, x.line ≠ line)) ∧
  (∀ (t tc n c : Nat) (data : List Byte) (s : State), let b := s.mbx n; let a := bits b 24 0; let cnt := bits b 47 42; let y := s.atBC t tc
    s.host.linkUp = true → y.stopped = false → s.mbxCore n = some c → c < 144 → data.length = 64 → a + 64 ≤ spmSize →
    ∃ u, exec (.mailboxH2dWrite t tc n 0 data) s = .next u ∧ u = { y with cores := u.cores } ∧ (∀ k, k ≠ c → u.core k = s.core k) ∧
      (∀ i, i < 64 → (u.core c).spm.read (a + i) = data.getD i 0) ∧
      (∀ x, x < a ∨ a + 64 ≤ x → (u.core c).spm.read x = (y.coreNow c).spm.read x) ∧
      (∀ k, Table.get (0 : W32) (u.core c).arr k =
        Table.get (0 : W32) (s.core c).arr k + (if k = cnt ∧ (s.core c).resetAfter cnt tc = false then 1 else 0))) ∧
  (∀ (t tc n off : Nat) (data : List Byte) (s : State), let y := s.atBC t tc
    s.host.linkUp = true → y.stopped = false → (s.mbxCore n = none ∨ off ≠ 0 ∨ data.length ≠ 64) →
    ∃ u, exec (.mailboxH2dWrite t tc n off data) s = .next u ∧ u = { y with host := u.host, err := u.err, out := u.out } ∧
      u.host = { s.host with mbxDrops := satInc s.host.mbxDrops 64, pba := u.host.pba }) ∧
  (∀ (t n : Nat) (s : State), s.host.linkUp = true →
    (∀ c, s.mbxCore n = some c → exec (.mailboxD2hRead t n) s =
      .next { s.atB t with out := [.hostData ((s.coreNow c).spm.readBytes (bits (s.mbx n / 2 ^ 64) 24 0) 64) false] }) ∧
    (s.mbxCore n = none → exec (.mailboxD2hRead t n) s = .next { s.atB t with out := [.hostData (List.replicate 64 0) false] })) ∧
  (∀ (t : Nat) (s : State) (op : Nat) (c : Instr), s.host.linkUp = true →
    (c, op) ∈ [(Instr.getSupportedLogs t, 0x0400), (.getLog t, 0x0401), (.getEventRecords t, 0x0100), (.clearEventRecords t, 0x0101)] →
    ∃ u bs, exec c s = .next u ∧ bs.length ≤ 4096 ∧ u = { s.atB t with out := [.mailbox op 0 bs], free := s.free + 1 })

/-- HDM_READ, HDM_WRITE, HDM_DECODER_COMMIT: a served read answers the window's 64 bytes, or poison where they are bad; a served write stores them and
nothing else, and none into a bad block; the filter holds a line exactly while the host may. A commit that can stand takes effect, and any other
reports error-not-committed. -/
def Obligations.HostWindow : Prop :=
  (∀ (t off : Nat) (hold : Bool) (e : Ecc) (s : State), let d := s.hdmDpa off
    s.hdmServes off = true → s.isBad d = false → s.err.fatal = false → (e = .ok ∨ e = .corrected) →
    ∃ u pre, exec (.hdmRead t off hold e) s = .next u ∧ u.out = pre ++ [Output.hostData (s.readDpa d 64) false] ∧ u.cores = s.cores ∧
      (hold = true → d / 64 ∈ u.host.snoop) ∧ (e = .ok → u.mem.dram = s.mem.dram ∧ (∀ l ∈ s.host.snoop, l ∈ u.host.snoop) ∧
        (hold = false → pre = [] ∧ u.host = s.host))) ∧
  (∀ (t off : Nat) (hold : Bool) (s : State), let d := s.hdmDpa off
    s.hdmServes off = true → s.isBad d = true →
    ∃ u pre, exec (.hdmRead t off hold .ok) s = .next u ∧ u.out = pre ++ [Output.hostData (List.replicate 64 0) true] ∧ u.mem = s.mem ∧
      u.cores = s.cores ∧ u.host = { s.host with poisonTx := satInc s.host.poisonTx 64, pba := u.host.pba }) ∧
  (∀ (t off : Nat) (data : List Byte) (hold : Bool) (s : State), let d := s.hdmDpa off
    s.hdmServes off = true → data.length = 64 → s.err.fatal = false → s.isBad d = false → s.placeOf d 64 = some (.dram d) →
    ∃ u, exec (.hdmWrite t off data hold false .ok) s = .next u ∧ u.cores = s.cores ∧ u.cfe = s.cfe ∧ u.links = s.links ∧
      (hold = true → d / 64 ∈ u.host.snoop ∧ ∀ l ∈ s.host.snoop, l ∈ u.host.snoop) ∧
      (hold = false → u.host = { s.host with snoop := s.host.snoop.filter (fun l => l != d / 64) } ∧ u.out = []) ∧
      (∀ i, i < 64 → u.mem.dram.read (d + i) = data.getD i 0) ∧
      (∀ a, a < d ∨ d + 64 ≤ a → u.mem.dram.read a = s.mem.dram.read a)) ∧
  (∀ (t off : Nat) (data : List Byte) (hold poison : Bool) (s : State), let d := s.hdmDpa off
    s.hdmServes off = true → data.length = 64 → s.err.fatal = false → (poison = true ∨ s.isBad d = true) →
    ∃ u, exec (.hdmWrite t off data hold poison .ok) s = .next u ∧ u.mem.dram = s.mem.dram ∧ u.cores = s.cores ∧
      u.host.poisonRx = (if poison then satInc s.host.poisonRx 64 else s.host.poisonRx) ∧
      (∀ st l, s.region d = .hbm st l → d / 4096 * 4096 ∈ (u.stack st).bad)) ∧
  (∀ (t base ways : Nat) (lock : Bool) (s : State), s.host.linkUp = true → s.runsAt t → (s.host.decCommitted && s.host.decLock) = false →
    let stands : Bool := decide (ways = 1) && decide (base % 2 ^ 28 = 0) && s.hdmValid && s.start.trained && decide (s.start.initAt ≤ max s.bclk t)
    exec (.hdmDecoderCommit t base ways lock) s = .next { s.atB t with host :=
      { s.host with decBase := base, decWays := ways, decCommitted := stands, decLock := if stands then lock else s.host.decLock, decError := !stands } })

/-- MSIX_UNMASK, BAR_INEFFECTIVE_ACCESS, REGISTER_WRITE, DATA_OBJECT_EXCHANGE: the vector table takes the entry, and exactly the pending vectors that
may now go are sent; an access of a wrong size or alignment only counts; a write to the configuration space stores its bytes, a whole write of ADMSQ,
ADMCR or ADMINT sets its own bits, and one of an MSI-X table address sets that entry's. -/
def Obligations.HostRegisters : Prop :=
  (∀ (t vec addr data : Nat) (enable fm mask : Bool) (s : State), s.host.linkUp = true → s.runsAt t →
    ∃ u, exec (.msixUnmask t enable fm vec addr data mask) s = .next u ∧ u = { s.atB t with host := u.host, out := u.out } ∧
      u.host = { s.host with msixEnable := enable, funcMask := fm, msix := u.host.msix, pba := u.host.pba } ∧
      (vec < 2048 → Table.get ({ } : MsixEntry) u.host.msix vec = { addr := addr % 2 ^ 64, data := data % 2 ^ 32, mask := mask, written := true }) ∧
      (∀ k, k ≠ vec → Table.get ({ } : MsixEntry) u.host.msix k = Table.get ({ } : MsixEntry) s.host.msix k) ∧
      (s.host.pba = 0 → u.host.pba = 0 ∧ u.out = []) ∧
      (∀ v, v < 2048 → bitAt s.host.pba v = true → u.msixOpen v = true → bitAt u.host.pba v = false ∧ Output.msix v ∈ u.out) ∧
      (∀ v, v < 2048 → u.msixOpen v = false → bitAt u.host.pba v = bitAt s.host.pba v ∧ Output.msix v ∉ u.out)) ∧
  (∀ (t bar off size : Nat) (wr : Bool) (s : State), s.host.linkUp = true → barIneffective bar off size = true →
    exec (.barIneffectiveAccess t bar off size wr) s =
      .next { s.atB t with host := { s.host with barErr := satInc s.host.barErr 64 },
                           out := if wr then [] else [.hostData (List.replicate size 0) false] }) ∧
  (∀ (t off size v : Nat) (s : State), s.host.linkUp = true → (size = 4 ∨ size = 8) → off % size = 0 → off < 4096 →
    ∃ u, exec (.registerWrite t 0 off size v) s = .next u ∧ u = { s.atB t with host := u.host } ∧
      u.host = { s.host with cfg := u.host.cfg, memEnable := u.host.memEnable, bar0 := u.host.bar0, bar2 := u.host.bar2 } ∧
      (∀ i, i < size → Memory.read u.host.cfg (off + i) = (leBytes size v).getD i 0) ∧
      (∀ a, a < off ∨ off + size ≤ a → Memory.read u.host.cfg a = Memory.read s.host.cfg a)) ∧
  (∀ (t off size v : Nat) (s : State), s.host.linkUp = true → s.runsAt t → (size = 4 ∨ size = 8) → off % size = 0 → (off < 0x28000 ∨ 0x30000 ≤ off) →
    ∃ u, exec (.registerWrite t 1 off size v) s = .next u ∧
      u = { s.atB t with cfe := { s.cfe with admsq := u.cfe.admsq, admcr := u.cfe.admcr, admint := u.cfe.admint } } ∧
      (off = 0x20008 → size = 8 → u.cfe.admsq = BitVec.ofNat 64 (bits v 63 60 * 2 ^ 60 + bits v 51 12 * 4096)) ∧
      (off = 0x20010 → size = 8 → u.cfe.admcr = BitVec.ofNat 64 (bits v 63 60 * 2 ^ 60 + bits v 51 12 * 4096)) ∧
      (off = 0x20018 → size = 4 → u.cfe.admint = BitVec.ofNat 32 (bits v 31 15 * 2 ^ 15 + bits v 10 0))) ∧
  (∀ (t vec v : Nat) (s : State), s.host.linkUp = true → s.runsAt t → vec < 2048 → v < 2 ^ 64 → (Table.get ({ } : MsixEntry) s.host.msix vec).addr < 2 ^ 64 →
    ∃ u, exec (.registerWrite t 1 (0x28000 + 16 * vec) 8 v) s = .next u ∧ u = { s.atB t with host := u.host, out := u.out } ∧
      (Table.get ({ } : MsixEntry) u.host.msix vec).addr = v ∧
      (∀ k, k ≠ vec → Table.get ({ } : MsixEntry) u.host.msix k = Table.get ({ } : MsixEntry) s.host.msix k)) ∧
  (∀ (t proto : Nat) (s : State), s.host.linkUp = true →
    (proto = 0 → exec (.dataObjectExchange t proto) s = .next { s.atB t with out := [.dataObject 0 [0, 2]] }) ∧
    (proto = 2 → exec (.dataObjectExchange t proto) s = .next { s.atB t with out := [.dataObject 2 [64 * gib, 350, 350, 128000]] }))

/-! ### Errors, self-test and repair (14_errors_integrity.md, 17_selftest_repair.md) -/

/-- The error queue never holds more than 64 records, whatever is posted, and a record that finds it full is counted. -/
def Obligations.ErrorQueueBounded : Prop :=
  ∀ (e : Errors) (r : ErrRec), (e.erqtail - e.erqhead).toNat ≤ 64 →
    ((e.put r).erqtail - (e.put r).erqhead).toNat ≤ 64 ∧ (e.put r).erqhead = e.erqhead ∧
    ((e.erqtail - e.erqhead).toNat < 64 → Table.get ({ } : ErrRec) (e.put r).slots (e.erqtail.toNat % 64) = r ∧ (e.put r).erqovf = e.erqovf ∧
      (e.put r).erqtail = e.erqtail + 1) ∧
    ((e.erqtail - e.erqhead).toNat = 64 → (e.put r).slots = e.slots ∧ (e.put r).erqovf = e.erqovf + 1 ∧ (e.put r).rsv.isSome = true)

/-- ERRGAP_EXPIRY, HANDLER_WATCHDOG, SAFE_STATE_ENTRY, CROSS_CHECK_RUN, SEAL_REREAD: a deferred signal is sent; every trigger enters the safe state,
once, with a FATAL record of its cause and the keystore zeroed; its end halts every core with a task and freezes the records; a cross-check run, in
the slot left free for it, draws its seed and counts, and agreement, a difference and each verdict of a repeat have the effect the rules give;
a block read again is entered in the bad-block list or recorded as clean. -/
def Obligations.ErrorEvents : Prop :=
  (∀ (t d : Nat) (s : State), s.err.signalDue = some d → d ≤ max s.bclk t → let v := s.obj 0x2A00 2; let open' := (s.atB t).msixOpen v
    ∃ u, exec (.errgapExpiry t) s = .next u ∧
      u = { s.atB t with err := { s.err with signalDue := none, lastSignal := some (max s.bclk t) }, host := u.host, out := u.out } ∧
      (open' = true → u.out = [Output.msix v] ∧ u.host = s.host) ∧
      (open' = false → u.out = [] ∧ u.host = { s.host with pba := Nat.lor s.host.pba (2 ^ v) })) ∧
  (∀ (t n cause : Nat) (c : Instr) (s : State), s.err.fatal = false →
    (c, cause) ∈ [(Instr.handlerWatchdog t, 0x03), (.safeStateEntry t (some .mgcMemory), 0x01), (.safeStateEntry t (some .aggregator), 0x02),
      (.safeStateEntry t (some (.repairAction n)), 0x04), (.safeStateEntry t (some .ledger), 0x05), (.safeStateEntry t (some (.router n)), 0x06)] →
    ∃ u, exec c s = .next u ∧ u = { s.atB t with err := u.err, sec := u.sec, out := u.out } ∧
      u.sec = { s.sec with dik := none, rak := none, sessions := [], sigs := [], chunks := [], drbgLeft := 0 } ∧
      u.err.fatal = true ∧ u.err.fatalAt = some (max s.bclk t) ∧ u.err.rseq = s.err.rseq + 1 ∧ u.err.slots = s.err.slots ∧
      u.err.rsv.map (fun r => (r.rseq, r.cls, r.sev, r.cause)) = some (s.err.rseq + 1, .fatal, .fatal, cause)) ∧
  (∀ (t : Nat) (c : Instr) (s : State), s.err.fatal = true → (c = .handlerWatchdog t ∨ ∃ k, c = .safeStateEntry t (some k)) →
    exec c s = .next (s.atB t)) ∧
  (∀ (t f : Nat) (s : State), let stops (c : Core) : Core := if c.task.isSome ∧ c.st ≠ .benched then { c with st := .halted } else c
    s.err.fatalAt = some f → s.err.frozen = false → f + 2000 ≤ max s.bclk t →
    ∃ u, exec (.safeStateEntry t none) s = .next u ∧ u.err.frozen = true ∧ u.cores = s.cores.map (fun p => (p.1, stops p.2)) ∧
      (s.cfe.att ≠ .attached ∨ s.err.fatalSrc.1 = .cfe →
        u = { s.atB t with cores := u.cores, err := { s.err with frozen := true }, host := u.host, out := u.out })) ∧
  (∀ (t a b : Nat) (s : State), let s0 := s.atB t; s.runsAt t → s0.xcMay a b = true →
    ∃ u, exec (.crossCheckRun t a b .agree) s = .next u ∧
      u = { s0 with err := u.err, fix := (s0.placeRepair .crossCheck [a, b]).fix, free := s.free + 1 } ∧
      u.err.xcSeed = s0.xcSeed ∧ u.err.xcRuns = (s.err.xcRuns + 1) % 2 ^ 64 ∧ u.err.xcFails = s.err.xcFails % 2 ^ 64 ∧ u.err.xcPend = s.err.xcPend ∧
      u.err.xcDue = s.err.xcDue.filter (fun c => !([a, b].contains c)) ∧
      (∀ c, Table.get 0 u.err.xcLast c = if c = a ∨ c = b then s.cyc else Table.get 0 s.err.xcLast c) ∧
      (∀ c, Table.get 0 u.err.xcAt c = if c = a ∨ c = b then max s.bclk t else Table.get 0 s.err.xcAt c)) ∧
  (∀ (t a b : Nat) (s : State), let s0 := s.atB t; s.runsAt t → s0.xcMay a b = true →
    exec (.crossCheckRun t a b .differ) s =
      .next { s0 with fix := (s0.placeRepair .crossCheck [a, b]).fix, free := s.free + 1, err :=
               { s.err with xcSeed := s0.xcSeed, xcRuns := (s.err.xcRuns + 1) % 2 ^ 64, xcFails := (s.err.xcFails + 1) % 2 ^ 64,
                            xcPend := s.err.xcPend ++ [⟨a, b, s0.xcSeed, s0.absSlot⟩] } }) ∧
  (∀ (t a b third bad off : Nat) (r : XcRun) (s : State), let s0 := s.atB t; let other := if bad = a then b else a
    s.runsAt t → s0.xcThird a b third = some r →
    (bad = a ∨ bad = b → ∃ u, exec (.crossCheckRun t a b (.suspect bad third off)) s = .next u ∧ u.cores = s.cores ∧ u.mem = s.mem ∧ u.cfe = s.cfe ∧
      u.err.xcPend = s.err.xcPend.filter (fun x => x != r) ∧ u.err.xcRuns = (s.err.xcRuns + 1) % 2 ^ 64 ∧
      u.err.xcDue = s.err.xcDue.filter (fun c => !([other, third].contains c)) ∧
      (s.pstate bad = .inService → s.repair.bench = none → s.repair.queue = [] → u.pstate bad = .benching ∧ u.repair.bench.map (fun x => x.core) = some bad)) ∧
    (∃ u, exec (.crossCheckRun t a b (.transient third)) s = .next u ∧ u.cores = s.cores ∧ u.mem = s.mem ∧ u.cfe = s.cfe ∧
      u.err.xcPend = s.err.xcPend.filter (fun x => x != r) ∧ u.err.xcRuns = (s.err.xcRuns + 1) % 2 ^ 64 ∧
      (∀ c, c = a ∨ c = b → c < 144 → c ∈ u.err.xcDue)) ∧
    exec (.crossCheckRun t a b (.noneAgree third)) s =
      .next { s0 with fix := (s0.placeRepair .crossCheck [third]).fix, err :=
               { s.err with xcRuns := (s.err.xcRuns + 1) % 2 ^ 64, xcFails := s.err.xcFails % 2 ^ 64, xcPend := s.err.xcPend.filter (fun x => x != r),
                            xcBist := s.err.xcBist ++ [a, b, third].filter (fun c => !(s.err.xcBist.contains c)) } }) ∧
  (∀ (t dpa : Nat) (bad : Bool) (s : State), s.runsAt t → s.err.reread.contains dpa = true → (s.atB t).inRsv = true →
    ∃ u, exec (.sealReread t dpa bad) s = .next u ∧ u = { s.atB t with err := u.err, mem := u.mem, host := u.host, out := u.out } ∧
      u.err.reread = s.err.reread.erase dpa ∧ u.mem.dram = s.mem.dram ∧ u.mem.xfers = s.mem.xfers ∧ (bad = false → u.mem = s.mem) ∧
      (∀ st l, s.region dpa = .hbm st l → bad = true → dpa ∈ (u.stack st).bad))

/-- BENCH_COPY_DONE, HARD_LOSS, BIST_DONE, UNIT_TEST, FUSE_BLOW_DONE, TEST_ACCESS_PORT: what each test's end does to the core and the fuses; repair work
that runs beside the module's own takes effect in a reserved slot, where it is placed. -/
def Obligations.SelfTestEvents : Prop :=
  (∀ (t r : Nat) (b : Bench) (s : State), let s0 := s.atB t; let touch := [b.core, r]
    s.runsAt t → s.repair.bench = some b → b.sub = some r → s0.copyBegun b = true → b.copied = false → s0.mayRepair .benchCopy touch = true →
    exec (.benchCopyDone t true) s = .next { s0 with
      fix := (s0.placeRepair .benchCopy touch).fix, repair := { s.repair with bench := some { b with copying := true, copied := true } } } ∧
    (∃ u, exec (.benchCopyDone t false) s = .next u ∧ u.cores = s.cores ∧ u.mem = s.mem ∧ u.cfe = s.cfe ∧
      (s.repair.queue = [] → b.core ≠ r → u.repair.bench = none ∧ u.pstate b.core = .inService ∧ u.pstate r = .testing ∧
        ∀ k, k ≠ b.core → k ≠ r → u.pstate k = s.pstate k))) ∧
  (∀ (t c : Nat) (s : State), c < 144 → (s.pstate c = .inService ∨ s.pstate c = .benching) →
    ∃ u, exec (.hardLoss t c) s = .next u ∧ u.mem = s.mem ∧ (∀ k, k ≠ c → u.core k = s.core k) ∧
      (s.repair.bench = none → u.pstate c = .lost ∧ (u.core c).st = .halted ∧ u.repair.lost = s.repair.lost ++ [c] ∧ s.posOf c ∈ u.fix.noPlace ∧
        ∀ k, k ≠ c → u.pstate k = s.pstate k) ∧
      ((s.core c).task = none → (s.core c).ondeck = none → u.cfe = s.cfe ∧ u.fix.ledger = s.fix.ledger)) ∧
  (∀ (t c : Nat) (lb mb again : Bool) (rows : List (Nat × Nat × Nat)) (s : State), c < 144 → s.pstate c = .testing → s.start.complete = true →
    let fixes := if lb && !mb && again then repairRows s.repairs c rows else none
    ∃ u, exec (.bistDone t c lb mb rows again) s = .next u ∧ (∀ k, k ≠ c → u.pstate k = s.pstate k) ∧ u.cores = s.cores ∧ u.mem = s.mem ∧ u.fix = s.fix ∧
      (lb = true → mb = true → u.pstate c = .spare ∧ u.repair.pend = s.repair.pend) ∧
      ((lb && mb) = false → ∀ es, fixes = some es → u.pstate c = .spare ∧ u.repair.pend = s.repair.pend ++ es) ∧
      ((lb && mb) = false → fixes = none → u.pstate c = .retired ∧ u.repair.pend = s.repair.pend ++ [fuseEntry 7 c 0 0 0])) ∧
  (∀ (t c : Nat) (rows : List (Nat × Nat × Nat)) (again : Bool) (s : State), let s0 := s.atB t
    s.err.xcBist.contains c = true → s.pstate c = .inService → s0.mayRepair .crossCheck [c] = true →
    exec (.bistDone t c true true rows again) s = .next { s0 with
      fix := (s0.placeRepair .crossCheck [c]).fix, err := { s.err with xcBist := s.err.xcBist.filter (fun x => x != c) } }) ∧
  (∀ (t c v : Nat) (fail : Bool) (s : State), let s0 := s.atB t; let done := Nat.lor (Table.get 0 s.repair.mbUnits c) (2 ^ v)
    s.runsAt t → s.obj 0x8000 1 ≠ 0 → c < 144 → v < 112 → s.pstate c = .inService → (s.core c).tileTestable v = true →
    s0.mayRepair .unitTest (unitTouch c) = true →
    ∃ u, exec (.unitTest t c v fail) s = .next u ∧ u.cores = s.cores ∧ u.mem = s.mem ∧ u.cfe = s.cfe ∧
      (done = 2 ^ 112 - 1 → Table.get 0 u.repair.mbUnits c = 0 ∧ Table.get 0 u.repair.mbLast c = s.cyc) ∧
      (done ≠ 2 ^ 112 - 1 → Table.get 0 u.repair.mbUnits c = done ∧ u.repair.mbLast = s.repair.mbLast) ∧
      (∀ k, k ≠ c → Table.get 0 u.repair.mbUnits k = Table.get 0 s.repair.mbUnits k) ∧
      (fail = false → u = { s0 with fix := (s0.placeRepair .unitTest (unitTouch c)).fix, repair := u.repair } ∧ u.repair.pst = s.repair.pst ∧
        u.repair.bench = s.repair.bench) ∧
      (fail = true → s.repair.bench = none → s.repair.queue = [] → u.pstate c = .benching)) ∧
  (∀ (t k e : Nat) (b : Blow) (s : State), s.repair.blow = some b → b.svn = none → b.since + b.n * 640000 ≤ max s.bclk t → s.repair.pend = [e] →
    s.repair.slotFree = some k →
    exec (.fuseBlowDone t []) s = .next { s.atB t with
      repair := { s.repair with blow := none, pend := [], fuses := Table.set 0 s.repair.fuses k e, used := s.repair.used ++ [k] } }) ∧
  (∀ (t v : Nat) (b : Blow) (s : State), s.repair.blow = some b → b.svn = some v → b.since + b.n * 640000 ≤ max s.bclk t →
    exec (.fuseBlowDone t []) s = .next { s.atB t with
      repair := { s.repair with blow := none }, otp := { s.otp with sec := Nat.lor s.otp.sec ((2 ^ v - 1) * 2 ^ 448) } }) ∧
  (∀ (t : Nat) (inner : Bool) (s : State),
    (inner = true → s.start.st = .testMode →
      exec (.testAccessPort t inner) s = .next { s.atB t with repair := { s.repair with scanOpen := List.range 144 } }) ∧
    (inner = false ∨ s.start.st ≠ .testMode → exec (.testAccessPort t inner) s = .next (s.atB t)))

/-! ### The dictionary (15_marmas_dictionary.md) -/

/-- The rows that write a LIVE object: an accepted write is journalled, answered OK with its JSEQ, and waits for its edge; nothing takes effect
before. In the FREE state of the cadence a write of CADSRC acts at once, and MODRESET in the safe state resets 1 ms later. The rows that write a STAGED
object put their value into the staging set in place of the object's earlier one. -/
def Obligations.WritesWait : Prop :=
  (∀ (t a b key n : Nat) (o : Origin) (c : Instr) (s : State), let j := s.marmas.jnext; let v := writtenAs key n
    liveRow t o a b c key n → s.writesTo t o key v → (key = okey 0x4500 1 → s.fix.cad ≠ .free) →
    ∃ u, exec c s = .next u ∧ u = { s.atB t with marmas := u.marmas, out := u.out } ∧ u.marmas.live = s.marmas.live ++ [⟨j, key, v, s.effCycle⟩] ∧
      u.marmas.jnext = nextJseq j ∧ saysOk u o j ∧ u.marmas.staging = s.marmas.staging ∧ u.marmas.armed = s.marmas.armed) ∧
  (∀ (t : Nat) (nonce : List Byte) (o : Origin) (s : State), let j := s.marmas.jnext
    s.writesTo t o (okey 0x7000 4) nonce →
    ∃ u, exec (.jckreq t o nonce) s = .next u ∧ u = { s.atB t with marmas := u.marmas, out := u.out } ∧
      u.marmas.live = s.marmas.live ++ [⟨j, okey 0x7000 4, nonce, s.effCycle⟩] ∧ u.marmas.jnext = nextJseq j ∧ saysOk u o j) ∧
  (∀ (t : Nat) (o : Origin) (s : State), let j := s.marmas.jnext
    s.writesTo t o (okey 0x4500 1) (leBytes 1 1) → s.fix.cad = .free →
    ∃ u, exec (.cadsrc t o 1) s = .next u ∧ u.obj 0x4500 1 = 1 ∧ u.marmas.live = s.marmas.live ∧ saysOk u o j ∧ u.cores = s.cores ∧ u.mem = s.mem ∧
      u.fix.edgeDue = some (match s.fix.edgeDue with | some e => e | none => max s.bclk t + 64)) ∧
  (∀ (t v : Nat) (o : Origin) (s : State), let y := (s.atB t).take o
    s.err.fatal = true → (s.atB t).route o = .opened → y.judgeWrite o (okey 0x2000 0x10) (leBytes 4 v) = none →
    ∃ u, exec (.modreset t o v) s = .next u ∧ u.bclk = max s.bclk t + 1000000 ∧ u.cores = [] ∧ u.objVals = [] ∧ u.mem = {} ∧ u.cfe = {} ∧ u.err = {} ∧
      u.otp = s.otp ∧ u.flash = s.flash ∧ u.repair.fuses = s.repair.fuses) ∧
  (∀ (t a b m st key n : Nat) (o : Origin) (c : Instr) (s : State), let j := s.marmas.jnext; let v := writtenAs key n
    stagedRow t o a b m st c key n → s.writesTo t o key v →
    ∃ u, exec c s = .next u ∧ u = { s.atB t with marmas := u.marmas, out := u.out } ∧
      u.marmas.staging = s.marmas.staging.filter (fun w => w.key != key) ++ [{ jseq := j, key := key, value := v }] ∧
      u.marmas.commitState = 1 ∧ u.marmas.jnext = nextJseq j ∧ saysOk u o j ∧ u.marmas.live = s.marmas.live)

/-- The rows that write a QUIESCED object take effect at acceptance: PTROOT, MODID, the four firmware actions, BISTRUN, FUSEREPAIR, SCANREQ,
TOKENSUBMIT.
COMMIT arms the staging set and DISCARD empties it; ERQHEAD moves the head of the error queue for its owner only, and SCFREE frees the
scorecard slot it names. -/
def Obligations.WritesAct : Prop :=
  (∀ (t root : Nat) (o : Origin) (s : State), s.writesTo t o (okey 0x2500 1) (leBytes 8 root) →
    ∃ u, exec (.ptroot t o root) s = .next u ∧ u.obj 0x2500 1 = root % 2 ^ 64 ∧ saysOk u o s.marmas.jnext ∧
      u = { s.atB t with mem := { s.mem with xl := { s.mem.xl with tlbs := [], l2 := [], wcache := [] } }, objVals := u.objVals, marmas := u.marmas,
                         out := u.out }) ∧
  (∀ (t v : Nat) (o : Origin) (s : State), s.writesTo t o (okey 0x2700 1) (leBytes 1 v) →
    ∃ u, exec (.modid t o v) s = .next u ∧ u.modId = v % 256 ∧ saysOk u o s.marmas.jnext ∧
      u = { s.atB t with links := { s.links with trainOk := true }, objVals := u.objVals, marmas := u.marmas, out := u.out }) ∧
  (∀ (t v : Nat) (f : FwState) (c : Instr) (o : Origin) (s : State), let base := bankBase s.idleBank
    (c, v, f) ∈ [(Instr.fwactionStage t o, 1, FwState.staging), (.fwactionActivate t o, 2, .armed), (.fwactionAbort t o, 4, .idle)] →
    s.writesTo t o (okey 0x7200 2) (leBytes 1 v) →
    ∃ u, exec c s = .next u ∧ saysOk u o s.marmas.jnext ∧
      u = { s.atB t with sec := { s.sec with fw := f, fwErr := 0 }, flash := u.flash, marmas := u.marmas, out := u.out } ∧
      (v = 1 → ∀ a, Table.get (0xFF : Byte) u.flash a = if base ≤ a ∧ a < base + 4096 then 0xFF else Table.get (0xFF : Byte) s.flash a) ∧
      (v ≠ 1 → u.bankState s.idleBank = Nat.land (s.bankState s.idleBank) (if v = 2 then 0x3F else 0x0F) ∧
        ∀ a, a ≠ base + 3 → Table.get (0xFF : Byte) u.flash a = Table.get (0xFF : Byte) s.flash a)) ∧
  (∀ (t : Nat) (o : Origin) (s : State), let lvl := (s.sec.manifest.getD 5 0).toNat
    s.writesTo t o (okey 0x7200 2) (leBytes 1 3) →
    ∃ u, exec (.fwactionAccept t o) s = .next u ∧ u.bankState s.sec.bootBank = Nat.land (s.bankState s.sec.bootBank) 0x1F ∧
      (∀ a, a ≠ bankBase s.sec.bootBank + 3 → Table.get (0xFF : Byte) u.flash a = Table.get (0xFF : Byte) s.flash a) ∧
      u = { s.atB t with flash := u.flash, repair := u.repair, marmas := u.marmas, out := u.out } ∧ (lvl ≤ s.fusedSvn → u.repair = s.repair) ∧
      (s.fusedSvn < lvl → u.repair = { s.repair with blow := some { svn := some lvl, since := max s.bclk t, n := lvl - s.fusedSvn } })) ∧
  (∀ (t c : Nat) (o : Origin) (s : State), s.writesTo t o (okey 0x8000 3) (leBytes 1 c) → c < 144 →
    ∃ u, exec (.bistrun t o c) s = .next u ∧ u.pstate c = .testing ∧ (∀ k, k ≠ c → u.pstate k = s.pstate k) ∧ saysOk u o s.marmas.jnext ∧
      u = { s.atB t with repair := { s.repair with pst := u.repair.pst }, objVals := u.objVals, marmas := u.marmas, out := u.out }) ∧
  (∀ (t v : Nat) (o : Origin) (s : State), s.writesTo t o (okey 0x8100 1) (leBytes 1 v) →
    ∃ u, exec (.fuserepair t o v) s = .next u ∧ u = { s.atB t with repair := u.repair, marmas := u.marmas, out := u.out } ∧ saysOk u o s.marmas.jnext ∧
      (v % 256 = 1 → s.repair.pend ≠ [] →
        u.repair = { s.repair with blow := some { svn := none, since := max s.bclk t, n := s.repair.pend.length } }) ∧
      (v % 256 ≠ 1 ∨ s.repair.pend = [] → u.repair = s.repair)) ∧
  (∀ (t c : Nat) (o : Origin) (s : State), s.writesTo t o (okey 0x8200 1) (leBytes 1 c) → c < 256 →
    ∃ u, exec (.scanreq t o c) s = .next u ∧ c ∈ u.repair.scanOpen ∧ u.sec.dik = none ∧ u.sec.rak = none ∧ u.sec.sessions = [] ∧ u.sec.debugTok = none ∧
      (u.core c).spm = [] ∧ (u.core c).due = [] ∧ (u.core c).acm = [] ∧ (u.core c).vregs = [] ∧ (u.core c).masks = [] ∧
      (∀ k, k ≠ c → u.core k = s.core k) ∧ u.mem = s.mem ∧ u.cfe = s.cfe ∧ u.flash = s.flash ∧ u.otp = s.otp) ∧
  (∀ (t : Nat) (o : Origin) (s : State), let x := (s.atB t).take o; let j := x.judgeWrite o (okey 0x8202 1) (leBytes 1 1)
    let sec0 := Nat.lor s.otp.sec ((x.token.getD 5 0).toNat * 2 ^ 440)
    s.err.fatal = false → (s.atB t).route o = .opened →
    ∃ u, exec (.tokensubmit t o 1) s = .next u ∧ u.cores = s.cores ∧ u.mem = s.mem ∧ u.cfe = s.cfe ∧ u.flash = s.flash ∧
      (j ≠ none → u.sec = s.sec ∧ u.otp = s.otp) ∧
      (j = none → x.token.getD 4 0 = 1 → u.sec.debugTok = some (x.token.getD 7 0).toNat ∧ u.otp = s.otp ∧ saysOk u o s.marmas.jnext) ∧
      (j = none → x.token.getD 4 0 ≠ 1 → sec0 = Nat.land u.otp.sec sec0 ∧ u.sec.debugTok = s.sec.debugTok ∧ saysOk u o s.marmas.jnext)) ∧
  (∀ (t c : Nat) (o : Origin) (s : State), let j := s.marmas.jnext; let n := c % 2 ^ 32
    s.writesTo t o (okey 0x2000 1) (leBytes 4 c) →
    ∃ u, exec (.commit t o c) s = .next u ∧ u = { s.atB t with marmas := u.marmas, objVals := u.objVals, out := u.out } ∧ u.marmas.commitState = 2 ∧
      u.marmas.staging = s.marmas.staging ∧ u.marmas.live = s.marmas.live ∧ u.marmas.jnext = nextJseq j ∧ saysOk u o j ∧ u.obj 0x2000 1 = n ∧
      u.marmas.armed = some (if n = 0 then s.effCycle else s.fix.cycle + (n + 2 ^ 32 - s.cyc) % 2 ^ 32, j)) ∧
  (∀ (t : Nat) (o : Origin) (s : State), let j := s.marmas.jnext
    s.writesTo t o (okey 0x2000 5) (leBytes 1 1) →
    ∃ u, exec (.discard t o 1) s = .next u ∧ u = { s.atB t with marmas := u.marmas, out := u.out } ∧ u.marmas.staging = [] ∧ u.marmas.commitState = 0 ∧
      u.marmas.live = s.marmas.live ∧ saysOk u o j) ∧
  (∀ (t v : Nat) (s : State), s.host.linkUp = true → s.err.fatal = false → let within' := !serialLt v s.err.erqhead.toNat 32 && !serialLt s.err.erqtail.toNat v 32
    (s.obj 0x2A00 1 = 1 ∨ within' = false → exec (.erqhead t none v) s = .next (s.atB t)) ∧
    (s.obj 0x2A00 1 ≠ 1 → within' = true →
      exec (.erqhead t none v) s = .next { s.atB t with err := ({ s.err with erqhead := BitVec.ofNat 32 v } : Errors).drain })) ∧
  (∀ (t v : Nat) (o : Origin) (s : State), let n := v % 2 ^ 32; let within' := !serialLt n s.err.erqhead.toNat 32 && !serialLt s.err.erqtail.toNat n 32
    s.writesTo t o (okey 0x6A00 2) (leBytes 4 v) →
    ∃ u, exec (.erqhead t (some o) v) s = .next u ∧ u = { s.atB t with err := u.err, marmas := u.marmas, out := u.out } ∧ saysOk u o s.marmas.jnext ∧
      (o.route ≠ 1 → s.obj 0x2A00 1 = 1 → within' = true → u.err = ({ s.err with erqhead := BitVec.ofNat 32 n } : Errors).drain) ∧
      (o.route ≠ 1 → s.obj 0x2A00 1 ≠ 1 → u.err = s.err)) ∧
  (∀ (t k : Nat) (s : State), s.host.linkUp = true → s.err.fatal = false → s.err.frozen = false → k < 496 →
    exec (.scfree t none k) s = .next { s.atB t with err := { s.err with scorecards := Table.set none s.err.scorecards k none } }) ∧
  (∀ (t k : Nat) (o : Origin) (s : State), s.writesTo t o (okey 0x6A02 1) (leBytes 2 k) → s.err.frozen = false → k < 496 →
    ∃ u, exec (.scfree t (some o) k) s = .next u ∧ saysOk u o s.marmas.jnext ∧
      u = { s.atB t with err := { s.err with scorecards := Table.set none s.err.scorecards k none }, marmas := u.marmas, out := u.out })

/-- MARMAS_READ, MARMAS_WRITE, DESCRIBE, NEXT, JREAD, JOURNAL_SIGNATURE: a read answers bytes of the value in force, or of the latest accepted one, and
changes only its count; a refused write changes no object; DESCRIBE and NEXT answer the dictionary; JREAD a journal entry; a signature is stored for
the oldest entry that waits for one.
The six MCTP control rows and DYNAMIC_ADDRESS_ASSIGNMENT: each is answered with the binding's own values; only an assignment changes one. -/
def Obligations.DictionaryRequests : Prop :=
  (∀ (t w0 w1 w2 : Nat) (o : Origin) (data : List Byte) (d : ObjDef) (s : State), let r : Req := ⟨o, w0, w1, w2, data⟩
    let y := (s.atB t).take r.origin; let most := if r.len = 0 then routeMax o else min r.len (routeMax o)
    s.requested t 1 r → objDef r.key = some d → d.acc r.origin ≠ .no → (r.off = 0 ∨ offsetBad d.ty r.off = false) →
    ∃ w, exec (.marmasRead t o w0 w1 w2 data) s =
      .next { y with out := [.marmas o.route o.eid w (((if r.pend then y.latest r.key else y.value r.key).drop r.off).take most)] }) ∧
  (∀ (t w0 w1 w2 : Nat) (o : Origin) (data : List Byte) (s : State), let r : Req := ⟨o, w0, w1, w2, data⟩; let y := (s.atB t).take r.origin
    s.requested t 2 r → exec (.marmasWrite t o w0 w1 w2 data) s = .next (y.writeObject r.origin r.key data) ∧
      (∀ q, y.judgeWrite r.origin r.key data = some q → ∃ u, exec (.marmasWrite t o w0 w1 w2 data) s = .next u ∧ u.objVals = s.objVals ∧ u.cores = s.cores ∧
        u.marmas = { y.marmas with mrefused := u.marmas.mrefused } ∧ u.mem.dram = s.mem.dram ∧ u.cfe = s.cfe)) ∧
  (∀ (t w0 w1 w2 : Nat) (o : Origin) (data : List Byte) (d : ObjDef) (s : State), let r : Req := ⟨o, w0, w1, w2, data⟩
    let y := (s.atB t).take r.origin
    s.requested t 3 r → objDef r.key = some d →
    ∃ w, exec (.describe t o w0 w1 w2 data) s = .next { y with out := [.marmas o.route o.eid w (y.describe r.key d)] }) ∧
  (∀ (t w0 w1 w2 : Nat) (o : Origin) (data : List Byte) (s : State), let r : Req := ⟨o, w0, w1, w2, data⟩; let y := (s.atB t).take r.origin
    s.requested t 4 r → let next' := match nextObject r.key with | some k => k * 256 | none => 0xFFFFFF00
    ∃ w, exec (.next t o w0 w1 w2 data) s = .next { y with out := [.marmas o.route o.eid w (leBytes 4 next')] }) ∧
  (∀ (t w0 w1 w2 : Nat) (o : Origin) (data : List Byte) (e : JEntry) (rest : List JEntry) (s : State), let r : Req := ⟨o, w0, w1, w2, data⟩
    let y := (s.atB t).take r.origin; let most := if r.len = 0 then routeMax o else min r.len (routeMax o); let part := e.bytes.drop r.off
    s.requested t 5 r → s.marmas.journal.dropWhile (fun e => e.jseq != w2) = e :: rest → r.off < e.size →
    ∃ w, exec (.jread t o w0 w1 w2 data) s = .next { y with out :=
      [.marmas o.route o.eid w (if part.length ≤ most then part ++ wholeEntries (most - part.length) rest else part.take most)] }) ∧
  (∀ (t j : Nat) (digest key : List Byte) (rest : List (Nat × List Byte)) (s : State), let m := s.marmas
    m.unsigned = (j, digest) :: rest → s.sec.rak = some key → s.err.fatal = false → s.sec.rakCert = true →
    ∃ u sig, exec (.journalSignature t) s = .next u ∧ u = { s.atB t with marmas := u.marmas, free := s.free + 1 } ∧ sig.length = 17088 ∧
      u.marmas = { m with jsig := Table.set [] m.jsig ((m.jckCount - m.unsigned.length) % 16) (leBytes 8 j ++ sig), jckSigned := j, unsigned := rest,
                          jckWait := if m.jckWait = some j then none else m.jckWait }) ∧
  (∀ (t e : Nat) (o : Origin) (s : State), (s.atB t).mctpUp o = true → 0 < e → e < 255 →
    ∃ u, exec (.setEndpointId t o e) s = .next u ∧ u = { s.atB t with marmas := u.marmas, out := [.mctp o.route o.eid 1 0 [e]] } ∧ u.eidOf o = e ∧
      u.marmas = { s.marmas with eidI3c := u.marmas.eidI3c, eidVdm := u.marmas.eidVdm }) ∧
  (∀ (t code : Nat) (o : Origin) (c : Instr) (vals : List Nat) (s : State), (s.atB t).mctpUp o = true →
    (c, code, vals) ∈
      [(Instr.getEndpointId t o, 2, [s.eidOf o]), (.getEndpointUuid t o, 3, (s.value (okey 0x1000 0xD)).map (·.toNat)),
       (.getMctpVersionSupport t o 0, 4, [1, 3]), (.getMctpVersionSupport t o 0xFF, 4, [1, 3]), (.getMessageTypeSupport t o, 5, messageTypes),
       (.getVendorDefinedMessageSupport t o 0, 6, [0xFF, 0, leNat (s.value (okey 0x1000 2))])] →
    exec c s = .next { s.atB t with out := [.mctp o.route o.eid code 0 vals] }) ∧
  (∀ (t a : Nat) (dasa : Bool) (s : State),
    (s.start.st = .recovery ∨ (s.start.st = .running ∧ s.start.mgcAt ≤ max s.bclk t)) → (dasa = true → s.start.i3cStatic ≠ 0) →
    exec (.dynamicAddressAssignment t a dasa) s = .next { s.atB t with marmas := { s.marmas with i3cDyn := a % 128 } })

/-! ### Security (16_security_attestation.md) -/

/-- The SPDM requests that need no session: each is answered, and counted on SPDMREQS; those that the runtime key signs wait for their signature, whose
end answers them, or, where it came late, leaves the answer for RESPOND_IF_READY. What the DMTF standards lay out is free. -/
def Obligations.SpdmRequests : Prop :=
  (∀ (t : Nat) (o : Origin) (c : Instr) (name : SpdmRsp) (vals : List Nat) (s : State), let x := (s.atB t).deferSigs
    s.asked t o →
    (c, name, vals) ∈
        [(Instr.getVersion t o, SpdmRsp.version, [0x12, 0x13]), (.getCapabilities t o, .capabilities, [spdmCaps, 13, 4096, 65536]),
         (.negotiateAlgorithms t o false, .algorithms, [256, 256, 0, 3, 0x0101, 384, 256, 0]),
         (.negotiateAlgorithms t o true, .algorithms, [256, 256, 0, 3, 0x0101, 384, 256, 1])] →
    exec c s = .next { x with sec := { x.sec with spdmReqs := satInc x.sec.spdmReqs 64 }, out := x.out ++ [.spdm o.route o.eid o.session name vals []] }) ∧
  (∀ (t : Nat) (o : Origin) (s : State), let x := (s.atB t).deferSigs; let counted : Sec := { x.sec with spdmReqs := satInc x.sec.spdmReqs 64 }
    s.asked t o → (s.slotEmpty = true ∨ s.sec.rakCert = true) →
    ∃ u bs, exec (.getDigests t o) s = .next u ∧ (s.slotEmpty = true → u = { x with sec := counted, out := x.out ++ [.spdm o.route o.eid o.session .digests [0] []] }) ∧
      (s.slotEmpty = false → bs.length = 32 ∧
        u = { x with sec := counted, free := s.free + 1, out := x.out ++ [.spdm o.route o.eid o.session .digests [1] bs] })) ∧
  (∀ (t off len : Nat) (o : Origin) (s : State), let x := (s.atB t).deferSigs
    s.asked t o → s.slotEmpty = false → s.sec.rakCert = true →
    ∃ u bs, exec (.getCertificate t o 0 off len) s = .next u ∧ bs.length = min len 4096 ∧
      u = { x with sec := { x.sec with spdmReqs := satInc x.sec.spdmReqs 64 }, free := s.free + 1,
                   out := x.out ++ [.spdm o.route o.eid o.session .certificate [0, off] bs] }) ∧
  (∀ (t i : Nat) (o : Origin) (s : State), let x := (s.atB t).deferSigs
    let body := if i = 0 then [] else if i = 0xFF then (List.range 9).flatMap (fun k => x.block (k + 1)) else x.block i
    s.asked t o → (i ≤ 9 ∨ i = 0xFF) →
    exec (.getMeasurements t o i false) s = .next { x with
      sec := { x.sec with spdmReqs := satInc x.sec.spdmReqs 64 },
      out := x.out ++ [.spdm o.route o.eid o.session .measurements [if i = 0 then 9 else i] body] }) ∧
  (∀ (t arg code : Nat) (o : Origin) (c : Instr) (s : State), let x := (s.atB t).deferSigs
    s.asked t o → s.slotEmpty = false → s.sec.rakCert = true → s.sec.rak ≠ none → (s.sec.drbgLeft ≠ 0 ∨ s.sec.trngFailed = false) →
    ((c = .challenge t o 0 ∧ code = 0x83 ∧ arg = 0) ∨ (c = .getMeasurements t o arg true ∧ code = 0xE0 ∧ (arg ≤ 9 ∨ arg = 0xFF))) →
    ∃ u w, exec c s = .next u ∧ u = { x with sec := { x.sec with sigs := x.sec.sigs ++ [w], drbgLeft := u.sec.drbgLeft }, free := s.free + 1 } ∧
      w = { transport := o.route, eid := o.eid, session := o.session, code := code, arg := arg, body := w.body, askedAt := max s.bclk t }) ∧
  (∀ (t : Nat) (o : Origin) (s : State), let x := (s.atB t).deferSigs; let id := s.sec.nextSession
    s.asked t o → s.slotEmpty = false → s.sec.rakCert = true → s.sec.rak ≠ none → (2 ≤ s.sec.drbgLeft ∨ s.sec.trngFailed = false) →
    s.sec.sessions.length < 4 →
    ∃ u w, exec (.keyExchange t o) s = .next u ∧
      u = { x with sec := { x.sec with sigs := x.sec.sigs ++ [w], drbgLeft := u.sec.drbgLeft, nextSession := id % (2 ^ 32 - 1) + 1,
                                       sessions := s.sec.sessions ++ [{ id := id, transport := o.route, eid := o.eid, lastBeat := max s.bclk t }] },
                   free := s.free + 2 } ∧
      w = { transport := o.route, eid := o.eid, session := id, code := 0xE4, arg := id, body := w.body, askedAt := max s.bclk t }) ∧
  (∀ (t : Nat) (key : List Byte) (w : SigWait) (s : State), let x := (s.atB t).deferSigs; let conn := if w.code = 0xE4 then 0 else w.session
    s.sec.rak = some key → x.sec.sigs.find? (fun w => !w.ready) = some w →
    ∃ u sig, exec (.spdmSignatureDone t) s = .next u ∧ sig.length = 17088 ∧
      (w.deferred = true → u = { x with sec := { x.sec with sigs := x.sec.sigs.map (fun y => if y = w then { y with ready := true } else y) } }) ∧
      (w.deferred = false → u.sec.sigs = x.sec.sigs.erase w ∧ u.sec.spdmReqs = satInc x.sec.spdmReqs 64 ∧ u.cores = s.cores ∧ u.mem = s.mem ∧
        u.out = x.out ++ [.spdm w.transport w.eid conn (sigName w.code) [w.arg] (w.body ++ sig)])) ∧
  (∀ (t code : Nat) (key : List Byte) (o : Origin) (w : SigWait) (s : State), let x := (s.atB t).deferSigs
    let conn := if w.code = 0xE4 then 0 else w.session
    s.asked t o → s.sec.rak = some key → x.sec.sigs.find? (fun w => w.deferred && w.code == code && w.transport == o.route && w.eid == o.eid &&
      (w.session == o.session || (code == 0xE4 && o.session == 0))) = some w →
    ∃ u sig, exec (.respondIfReady t o code) s = .next u ∧ sig.length = 17088 ∧
      (w.ready = true → u.sec.sigs = x.sec.sigs.erase w ∧ u.out = x.out ++ [.spdm w.transport w.eid conn (sigName code) [w.arg] (w.body ++ sig)]) ∧
      (w.ready = false → u.sec.sigs = x.sec.sigs ∧
        u.out = x.out ++ [.spdm w.transport w.eid w.session (.error .responseNotReady) [15, 1, code] []]))

/-- FINISH, HEARTBEAT, KEY_UPDATE, END_SESSION, ENCAPSULATED_REQUEST, CHUNK_SEND, CHUNK_GET, HEARTBEAT_LOSS, TRNG_HEALTH_FAILURE: what each does to its
session, answered and counted; an authentication that fails ends the session, and so does a heartbeat that lapses; after a generator failure no
reseeding. -/
def Obligations.SpdmSessions : Prop :=
  (∀ (t : Nat) (o : Origin) (x : Session) (both : Bool) (owner : List Byte) (s : State), let y := (s.atB t).deferSigs
    let made (z : Session) : Session :=
      if z.id = x.id then { z with established := true, both := both, owner := if both then owner else [], at' := (s.atB t).extTime, lastBeat := max s.bclk t } else z
    s.askedIn t o false x →
    exec (.finish t o true both owner) s = .next { y with
      sec := { y.sec with sessions := y.sec.sessions.map made, spdmReqs := satInc y.sec.spdmReqs 64 },
      out := y.out ++ [.spdm o.route o.eid o.session .finishRsp [] []] } ∧
    ∃ u, exec (.finish t o false both owner) s = .next u ∧ u.sec.sessions = y.sec.sessions.filter (fun z => z.id != x.id) ∧
      u.sec.spdmErrs = satInc y.sec.spdmErrs 64 ∧ u.sec.sigs = y.sec.sigs.filter (fun w => w.session != x.id) ∧ u.cores = s.cores ∧ u.mem = s.mem) ∧
  (∀ (t : Nat) (o : Origin) (x : Session) (c : Instr) (name : SpdmRsp) (f : Session → Session) (s : State), let y := (s.atB t).deferSigs
    s.askedIn t o true x →
    ((c = .heartbeat t o ∧ name = .heartbeatAck ∧ f = fun z => { z with lastBeat := max s.bclk t }) ∨
      (c = .keyUpdate t o ∧ name = .keyUpdateAck ∧ f = fun z => { z with keyGen := z.keyGen + 1 })) →
    exec c s = .next { y with
      sec := { y.sec with sessions := y.sec.sessions.map (fun z => if z.id = x.id then f z else z), spdmReqs := satInc y.sec.spdmReqs 64 },
      out := y.out ++ [.spdm o.route o.eid o.session name [] []] }) ∧
  (∀ (t : Nat) (o : Origin) (x : Session) (s : State), let y := (s.atB t).deferSigs
    s.askedIn t o true x →
    exec (.endSession t o) s = .next { y with
      sec := { y.sec with sessions := y.sec.sessions.filter (fun z => z.id != x.id), sigs := y.sec.sigs.filter (fun w => w.session != x.id),
                          chunks := y.sec.chunks.filter (fun c => c.session != x.id), spdmReqs := satInc y.sec.spdmReqs 64 },
      out := y.out ++ [.spdm o.route o.eid o.session .endSessionAck [] []] }) ∧
  (∀ (t code : Nat) (o : Origin) (x : Session) (s : State), let y := (s.atB t).deferSigs
    s.askedIn t o false x →
    ∃ bs, bs.length = 4 ∧ exec (.encapsulatedRequest t o code) s = .next { y with
      sec := { y.sec with spdmReqs := satInc y.sec.spdmReqs 64 }, free := s.free + 1,
      out := y.out ++ [.spdm o.route o.eid o.session .encapsulated [code] bs] }) ∧
  (∀ (t seq size : Nat) (last : Bool) (o : Origin) (s : State), let y := (s.atB t).deferSigs
    s.asked t o → (y.chunking o).got + size ≤ 65536 → size ≤ 4096 →
    ∃ u, exec (.chunkSend t o seq size last) s = .next u ∧ u.out = y.out ++ [.spdm o.route o.eid o.session .chunkSendAck [seq] []] ∧
      u = { y with sec := { y.sec with chunks := u.sec.chunks, spdmReqs := satInc y.sec.spdmReqs 64 }, out := u.out } ∧
      (∀ c, y.sec.chunks.find? (fun c => c.transport == o.route && c.eid == o.eid && c.session == o.session) = some c ∨
          (y.sec.chunks.find? (fun c => c.transport == o.route && c.eid == o.eid && c.session == o.session) = none ∧
            c = { transport := o.route, eid := o.eid, session := o.session }) →
        u.chunking o = { c with got := if last then 0 else c.got + size })) ∧
  (∀ (t seq : Nat) (o : Origin) (s : State), let y := (s.atB t).deferSigs; let start := if seq = 0 then 0 else 4080 + 4084 * (seq - 1)
    let part := ((y.chunking o).large.drop start).take (if seq = 0 then 4080 else 4084); let last := decide ((y.chunking o).large.length ≤ start + part.length)
    s.asked t o → part ≠ [] →
    exec (.chunkGet t o seq) s = .next { y with
      sec := { y.sec with spdmReqs := satInc y.sec.spdmReqs 64 },
      out := y.out ++ [.spdm o.route o.eid o.session .chunkResponse [seq, b2n last] part] }) ∧
  (∀ (t id : Nat) (x : Session) (s : State), s.sec.sessions.find? (fun x => x.id == id) = some x → x.established = true →
    x.lastBeat + heartbeatTime ≤ max s.bclk t →
    ∃ u, exec (.heartbeatLoss t id) s = .next u ∧ u = { s.atB t with sec := u.sec, err := u.err, host := u.host, out := u.out } ∧
      u.sec = { s.sec with sessions := s.sec.sessions.filter (fun y => y.id != id), sigs := s.sec.sigs.filter (fun w => w.session != id),
                           chunks := s.sec.chunks.filter (fun c => c.session != id) }) ∧
  (∀ (t : Nat) (s : State), s.sec.trngFailed = false → s.start.st ≠ .held →
    ∃ u, exec (.trngHealthFailure t) s = .next u ∧
      u = { s.atB t with sec := { s.sec with trngFailed := true }, err := u.err, host := u.host, out := u.out } ∧
      (∀ n, u.sec.drbgLeft = 0 → u.random n = (u, none)))

/-- FW_STAGING_DONE and RAK_CERTIFICATE_READY: a package read back as written that passes its checks is staged, its bytes and header in the bank that is
not running; any failure refuses it with its code; the certificate's signature ends the use of the device key. -/
def Obligations.FirmwareEvents : Prop :=
  (∀ (t : Nat) (s : State), s.sec.fw = .staging →
    exec (.fwStagingDone t .unreadable) s = .next { s.atB t with sec := { s.sec with fw := .refused, fwErr := 1 } } ∧
    exec (.fwStagingDone t .flashError) s = .next { s.atB t with sec := { s.sec with fw := .refused, fwErr := 5 } }) ∧
  (∀ (t : Nat) (pkg back : List Byte) (s : State), let b := s.idleBank; let x := s.flashPut (bankBase b + 4096) (back.take 0xC00000)
    s.sec.fw = .staging →
    ∃ u, exec (.fwStagingDone t (.done pkg back)) s = .next u ∧ u = { s.atB t with sec := { s.sec with fw := u.sec.fw, fwErr := u.sec.fwErr }, flash := u.flash } ∧
      (∀ i, i < min back.length 0xC00000 → Table.get (0xFF : Byte) u.flash (bankBase b + 4096 + i) = back.getD i 0) ∧
      (∀ a, a < bankBase b ∨ bankBase b + 4096 + back.length ≤ a → Table.get (0xFF : Byte) u.flash a = Table.get (0xFF : Byte) s.flash a) ∧
      (back ≠ pkg → u.sec.fw = .refused ∧ u.sec.fwErr = 4 ∧ u.flash = x.flash) ∧
      (back = pkg → 0xC00000 < back.length ∨ x.manifestOk back = false → u.sec.fw = .refused ∧ u.sec.fwErr = 2 ∧ u.flash = x.flash) ∧
      (back = pkg → back.length ≤ 0xC00000 → x.manifestOk back = true → x.svnOk back = false → u.sec.fw = .refused ∧ u.sec.fwErr = 3 ∧ u.flash = x.flash) ∧
      (back = pkg → back.length ≤ 0xC00000 → x.manifestOk back = true → x.svnOk back = true → u.sec.fw = .staged ∧ u.sec.fwErr = 0 ∧
        u.bankState b = 0x7F ∧ u.bankTries b = 3)) ∧
  (∀ (t : Nat) (s : State), s.start.st = .running → s.start.mgcAt ≤ max s.bclk t → s.sec.rak ≠ none →
    exec (.rakCertificateReady t) s =
      .next { s.atB t with sec := { s.sec with rakCert := true, dik := none }, start := { s.start with flash0 := none } })

/-! ### Power, clocks and start-up (18_power_clocks_emc.md, 19_package_startup.md) -/

/-- AVS_STEP, THERMAL_SAMPLE, THERMTRIP, PWRBRAKE_CHANGE, RAIL_OUT_OF_TOLERANCE, PLL_LOCK_LOSS. With AVS off every stepped rail has 800 mV as its target,
and with it on a rail with margin to spare is lowered and one with too little raised; a sample takes the reading; a core PLL without lock, or a rail
out of limits for 10 µs, ends in the safe state, and a PHY's PLL takes its I/O die's ports down. -/
def Obligations.PowerEvents : Prop :=
  (∀ (t : Nat) (l : List (Nat × Nat × Nat)) (fails : List Nat) (s : State), s.obj 0x2B01 1 = 0 →
    ∃ u, exec (.avsStep t l fails) s = .next u ∧ u = { s.atB t with power := { s.power with rails := u.power.rails } } ∧
      ∀ d, u.rail d = match (l.take 8)[d]? with
        | some x => { (s.rail d) with margin := x.1, readback := x.2.1, current := x.2.2, target := 800 }
        | none => s.rail d) ∧
  (∀ (t m v a : Nat) (s : State), let r := s.rail 0; let seen : Rail := { r with margin := m, readback := v, current := a, fails := 0 }
    let goal := if m < 4 * s.obj 0x2B01 2 then min (r.target + 5) 800 else if 4 * s.obj 0x2B01 3 < m then max (r.target - 5) 620 else r.target
    s.obj 0x2B01 1 ≠ 0 → r.stopped = false → r.hold ≤ max s.bclk t → 4 * s.obj 0x2B01 4 ≤ m →
    ∃ u, exec (.avsStep t [(m, v, a)] []) s = .next u ∧ u = { s.atB t with power := { s.power with rails := u.power.rails } } ∧
      (∀ d, d ≠ 0 → u.rail d = s.rail d) ∧
      u.rail 0 = { seen with target := goal }) ∧
  (∀ (t : Nat) (v : Int) (s : State), -160 ≤ v → v ≤ 1040 → v < 85 * 8 →
    ∃ u, exec (.thermalSample t (List.replicate 100 v)) s = .next u ∧
      (∀ n, n < 100 → u.sensor n = { val := v, off := 0, hot := 0, faulty := (s.sensor n).faulty }) ∧ (∀ n, 100 ≤ n → u.sensor n = s.sensor n) ∧
      u.power = { s.power with sensors := u.power.sensors, deadDies := u.power.deadDies } ∧ u.err.fatal = s.err.fatal ∧ u.cores = s.cores ∧
      u.mem = s.mem ∧ u.objVals = s.objVals) ∧
  (∀ (t die : Nat) (s : State), exec (.thermtrip t die) s =
    .next { s.atB t with power := { s.power with trips := if s.power.trips.contains die then s.power.trips else s.power.trips ++ [die] } }) ∧
  (∀ (t : Nat) (low : Bool) (s : State), s.power.braked ≠ low →
    ∃ u, exec (.pwrbrakeChange t low) s = .next u ∧
      u = { s.atB t with power := { s.power with braked := low }, err := u.err, host := u.host, out := u.out }) ∧
  (∀ (t r mv ns : Nat) (s : State), let q := if r < 8 then (s.rail r).target else (railNominal r).1
    let far : Bool := if r < 8 then decide (40 < awayBy mv q) else decide (5 * q < 100 * awayBy mv q)
    r < 26 → (r < 8 → 15 < awayBy mv q) → (8 ≤ r → (railNominal r).2 * q < 100 * awayBy mv q) → s.err.fatal = false →
    ∃ u, exec (.railOutOfTolerance t r mv ns) s = .next u ∧ u.mem = s.mem ∧ u.cores = s.cores ∧ u.power = s.power ∧ u.cfe = s.cfe ∧
      u.err.fatal = (far && decide (10000 ≤ ns)) ∧ ((far && decide (10000 ≤ ns)) = true → u.sec.dik = none ∧ u.sec.rak = none) ∧
      ((far && decide (10000 ≤ ns)) = false → u.sec = s.sec)) ∧
  (∀ (t pll die : Nat) (s : State), pll ≤ 1 → s.err.fatal = false →
    ∃ u, exec (.pllLockLoss t pll die) s = .next u ∧ u.err.fatal = true ∧ u.err.fatalAt = some (max s.bclk t) ∧ u.err.rsv.map (fun r => r.cause) = some 0x12 ∧
      u.sec.dik = none ∧ u.sec.rak = none ∧ u.mem = s.mem ∧ u.cores = s.cores ∧ u.cfe = s.cfe) ∧
  (∀ (t die : Nat) (s : State),
    ∃ u, exec (.pllLockLoss t 2 die) s = .next u ∧ u = { s.atB t with links := { s.links with ports := u.links.ports }, err := u.err, host := u.host, out := u.out } ∧
      (∀ i, i < 6 → (u.port (6 * (die % 2) + i)).st = .down) ∧ ∀ n, n < 6 * (die % 2) ∨ 6 * (die % 2) + 6 ≤ n → u.port n = s.port n) ∧
  (∀ (t pll die : Nat) (s : State), 3 ≤ pll →
    ∃ u, exec (.pllLockLoss t pll die) s = .next u ∧ (s.host.linkUp = false → u = s.atB t) ∧
      (s.host.linkUp = true → u.host.linkUp = false ∧ u.cfe.att = .detached ∧ u.mem.dram = s.mem.dram))

/-- MOD_RESET_ASSERT, MOD_RESET_RELEASE, STRAP_RESAMPLE, PLL_LOCK_TIMEOUT, HBM_TRAINING_DONE, STARTUP_COMPLETE. A reset returns every unit to its default and
keeps fuses, flash, repairs and the levels on the pins; straps that do not agree hold start-up and are sampled again; TEST_EN leads to test mode where
the lifecycle allows it; without a bank that can boot the module is in RECOVERY, and with a bank whose package is valid the firmware runs 40.9 ms after
the release; training fixes the memory; completion assigns the cores. -/
def Obligations.ResetAndStartUp : Prop :=
  (∀ (t : Nat) (s : State), let now := max s.bclk t
    ∃ u, exec (.modResetAssert t) s = .next u ∧ u.extTime = 0 ∧
      u = { pending := s.pending, cclk := s.cclk, bclk := now, otp := s.otp, flash := s.flash, signatures := s.signatures, free := u.free, out := u.out,
            repair := { fuses := s.repair.fuses, used := s.repair.used }, host := { perst := s.host.perst }, fix := { extBase := u.fix.extBase },
            power := { braked := s.power.braked, trips := s.power.trips, sscDepth := s.obj 0x2B00 1 } }) ∧
  (∀ (t : Nat) (straps : List Nat) (w : Board) (f : BootFinds) (s : State), s.start.st = .held → agree3 (straps.take 3) = none →
    exec (.modResetRelease t straps w f) s =
      .next { (s.atB t).given w with start := { s.start with st := .strapHold, samples := straps.take 3 } }) ∧
  (∀ (t v : Nat) (w : Board) (f : BootFinds) (s : State), let x := (s.atB t).given w; let now := max s.bclk t; let a := bits v 4 2
    let start : StartUp := { s.start with samples := [v, v, v], since := now, bifur := v % 2, i3cStatic := if a = 7 then 0 else 0x30 + a,
                                          flash0 := some x.flash, mgcAt := now + 40900000 }
    let test : Bool := bitAt v 1 && (x.lifecycle == 0 || x.lifecycle == 3)
    s.start.st = .held → (test = true ∨ x.bankOrder = []) →
    exec (.modResetRelease t [v, v, v] w f) s = .next { x with start := { start with st := if test then .testMode else .recovery } }) ∧
  (∀ (t v b : Nat) (rest : List Nat) (w : Board) (f : BootFinds) (s : State), let x := (s.atB t).given w
    s.start.st = .held → (bitAt v 1 && (x.lifecycle == 0 || x.lifecycle == 3)) = false → x.bankOrder = b :: rest → x.headerOk b = true →
    x.manifestOk (x.bankPackage b) = true → x.svnOk (x.bankPackage b) = true →
    ∃ u, exec (.modResetRelease t [v, v, v] w f) s = .next u ∧ u.start.st = .running ∧ u.start.mgcAt = max s.bclk t + 40900000 ∧ u.sec.bootBank = b ∧
      u.sec.bootState = (if x.bankState b = 0x3F then 1 else if x.bankState (1 - b) = 0x3F then 2 else 0) ∧
      u.sec.manifest = (x.bankPackage b).take 16608 ∧ u.sec.dsLocked = true ∧ u.sec.rak ≠ none ∧ u.sec.rakCert = s.sec.rakCert ∧ u.otp = x.otp ∧
      u.bclk = max s.bclk t ∧ u.cores = s.cores ∧ u.mem = s.mem ∧ u.cfe = s.cfe) ∧
  (∀ (t v : Nat) (f : BootFinds) (s : State), let l := (s.start.samples ++ [v]).drop (s.start.samples.length - 2)
    s.start.st = .strapHold →
    ∃ u, exec (.strapResample t v f) s = .next u ∧ (agree3 l = none → u = { s.atB t with start := { s.start with samples := l } }) ∧
      (agree3 l ≠ none → u.start.st ≠ .strapHold ∧ u.start.samples = l ∧ u.start.since = max s.bclk t - 12000 ∧ u.cores = s.cores ∧ u.mem = s.mem)) ∧
  (∀ (t : Nat) (fl : Table Byte) (s : State), s.start.flash0 = some fl → max s.bclk t ≤ s.start.since + 1000000 →
    ∃ u, exec (.pllLockTimeout t) s = .next u ∧ u.start = { st := .stopped, since := s.start.since } ∧ u.flash = fl ∧ u.sec = {} ∧ u.otp = s.otp ∧
      u.repair = { fuses := s.repair.fuses, used := s.repair.used } ∧ u.cores = [] ∧ u.objVals = [] ∧ u.mem = {} ∧ u.cfe = {}) ∧
  (∀ (t : Nat) (s : State), s.start.st = .running → s.start.trained = false → s.start.mgcAt ≤ max s.bclk t →
    exec (.hbmTrainingDone t []) s = .next { s.atB t with start := { s.start with trained := true, initAt := max s.bclk t + 30000000 } }) ∧
  (∀ (t st ch : Nat) (s : State), let k := s.stack st
    s.start.st = .running → s.start.trained = false → s.start.mgcAt ≤ max s.bclk t → st < 16 → ch < 32 → bitAt k.chmap ch = false → k.m < 4 →
    ∃ u, exec (.hbmTrainingDone t [(st, ch)]) s = .next u ∧ u.start.trained = true ∧
      u.stack st = { k with chmap := k.chmap + 2 ^ ch, mo := .done, charged := k.m + 1 } ∧ (∀ j, j ≠ st → u.stack j = s.stack j) ∧
      u.mem.dram = s.mem.dram ∧ u.cores = s.cores) ∧
  (∀ (t : Nat) (s : State), s.start.st = .running → s.start.trained = true → s.start.complete = false → s.repair.fuses = [] →
    ∃ u, exec (.startupComplete t []) s = .next u ∧ u.start = { s.start with complete := true } ∧ u.fix = { s.fix with ready := true } ∧ u.cores = s.cores ∧
      u.mem = s.mem ∧ ∀ p, p < 144 →
        u.pstate p = (if bitAt s.otp.fusedOut p then .fusedOut else if bitAt s.otp.inService p then .inService else .spare) ∧
        (bitAt s.otp.fusedOut p = false → bitAt s.otp.inService p = true → Table.get none u.stands p = some p) ∧
        (bitAt s.otp.fusedOut p = true ∨ bitAt s.otp.inService p = false → Table.get none u.stands p = Table.get none s.stands p))
end

