-- ==== Sys2Proof/Laws/Sparse.lean ====
section
/-!
SUPPORT. The laws of sparse tables and of memory: a read after a write, what a write leaves alone, and that every operation keeps the
canonical form.
-/
namespace Sys2Proof.Machine

variable {α : Type} {d v : α} {m : Table α} {i j : Nat}

theorem Table.get_put_same : Table.get d (Table.put m i v) i = v := by
  induction m with
  | nil => simp [Table.put, Table.get]
  | cons e m ih =>
    obtain ⟨k, w⟩ := e
    simp only [Table.put]
    split <;> rename_i h
    · simp [Table.get]
    · split <;> rename_i h2
      · simp [Table.get]
      · simp [Table.get, h2, ih]

theorem Table.get_put_ne (h : j ≠ i) : Table.get d (Table.put m i v) j = Table.get d m j := by
  induction m with
  | nil => simp [Table.put, Table.get, h]
  | cons e m ih =>
    obtain ⟨k, w⟩ := e
    simp only [Table.put]
    split <;> rename_i h1
    · simp [Table.get, h]
    · split <;> rename_i h2
      · subst h2; simp [Table.get, h]
      · by_cases hk : j = k <;> simp [Table.get, hk, ih]

theorem Table.get_drop_same : Table.get d (m.filter (fun e => e.1 != i)) i = d := by
  induction m with
  | nil => simp [Table.get]
  | cons e m ih =>
    obtain ⟨k, w⟩ := e
    by_cases hk : k = i
    · simp [hk, ih]
    · simp [hk, Table.get, ih, Ne.symm hk]

theorem Table.get_drop_ne (h : j ≠ i) : Table.get d (m.filter (fun e => e.1 != i)) j = Table.get d m j := by
  induction m with
  | nil => simp
  | cons e m ih =>
    obtain ⟨k, w⟩ := e
    by_cases hk : k = i
    · subst hk; simp [Table.get, ih, h]
    · simp only [List.filter_cons, bne_iff_ne, ne_eq, hk, not_false_eq_true, if_true, Table.get, ih]

/-- A read of the key just set gives the value set. -/
@[simp] theorem Table.get_set_same [DecidableEq α] : Table.get d (Table.set d m i v) i = v := by
  unfold Table.set
  split <;> rename_i h
  · rw [h]; exact Table.get_drop_same
  · exact Table.get_put_same

/-- Setting a key leaves every other key alone. -/
theorem Table.get_set_ne [DecidableEq α] (h : j ≠ i) : Table.get d (Table.set d m i v) j = Table.get d m j := by
  unfold Table.set
  split
  · exact Table.get_drop_ne h
  · exact Table.get_put_ne h

/-- Both at once. -/
theorem Table.get_set [DecidableEq α] : Table.get d (Table.set d m i v) j = if j = i then v else Table.get d m j := by
  split <;> rename_i h
  · subst h; simp
  · exact Table.get_set_ne h

@[simp] theorem Table.get_modify_same [DecidableEq α] (f : α → α) : Table.get d (Table.modify d m i f) i = f (Table.get d m i) := by
  simp [Table.modify]

theorem Table.get_modify_ne [DecidableEq α] (f : α → α) (h : j ≠ i) : Table.get d (Table.modify d m i f) j = Table.get d m j := by
  simp [Table.modify, Table.get_set_ne h]

/-- A cleared range reads as the default; every other key is left alone. -/
theorem Table.get_clearRange (lo n : Nat) : Table.get d (Table.clearRange m lo n) j = if lo ≤ j ∧ j < lo + n then d else Table.get d m j := by
  unfold Table.clearRange
  induction m with
  | nil => simp [Table.get]
  | cons e m ih =>
    obtain ⟨k, w⟩ := e
    simp only [List.filter_cons]
    by_cases hk : k < lo ∨ lo + n ≤ k
    · have h1 : (decide (k < lo) || decide (lo + n ≤ k)) = true := by simpa using hk
      rw [if_pos h1]
      by_cases hj : j = k
      · subst hj
        have : ¬ (lo ≤ j ∧ j < lo + n) := by omega
        simp [Table.get, this]
      · simp [Table.get, hj, ih]
    · have h1 : ¬ ((decide (k < lo) || decide (lo + n ≤ k)) = true) := by simpa using hk
      rw [if_neg h1, ih]
      by_cases hj : j = k
      · subst hj
        have : lo ≤ j ∧ j < lo + n := by omega
        simp [this]
      · simp [Table.get, hj]

/-! ### The canonical form -/

theorem Table.wfFrom_mono [DecidableEq α] {lo lo' : Option Nat} (h : ∀ l', lo' = some l' → ∀ e ∈ m.head?, l' < e.1)
    (hm : Table.wfFrom d lo m = true) : Table.wfFrom d lo' m = true := by
  cases m with
  | nil => simp [Table.wfFrom]
  | cons e m =>
    obtain ⟨k, w⟩ := e
    simp only [Table.wfFrom, Bool.and_eq_true] at hm ⊢
    refine ⟨⟨?_, hm.1.2⟩, hm.2⟩
    cases lo' with
    | none => rfl
    | some l' => simpa using h l' rfl (k, w) (by simp)

theorem Table.wfFrom_put [DecidableEq α] (hv : v ≠ d) {lo : Option Nat} (hlo : ∀ l, lo = some l → l < i)
    (hm : Table.wfFrom d lo m = true) : Table.wfFrom d lo (Table.put m i v) = true := by
  induction m generalizing lo with
  | nil =>
    cases lo with
    | none => simp [Table.put, Table.wfFrom, hv]
    | some l => simp [Table.put, Table.wfFrom, hv, hlo l rfl]
  | cons e m ih =>
    obtain ⟨k, w⟩ := e
    simp only [Table.wfFrom, Bool.and_eq_true] at hm
    simp only [Table.put]
    split <;> rename_i h1
    · simp only [Table.wfFrom, Bool.and_eq_true]
      refine ⟨⟨?_, by simpa using hv⟩, ⟨⟨by simpa using h1, hm.1.2⟩, hm.2⟩⟩
      cases lo with
      | none => rfl
      | some l => simpa using hlo l rfl
    · split <;> rename_i h2
      · subst h2
        simp only [Table.wfFrom, Bool.and_eq_true]
        exact ⟨⟨hm.1.1, by simpa using hv⟩, hm.2⟩
      · simp only [Table.wfFrom, Bool.and_eq_true]
        exact ⟨hm.1, ih (fun l hl => by simp only [Option.some.injEq] at hl; omega) hm.2⟩

theorem Table.wfFrom_filter [DecidableEq α] (p : Nat × α → Bool) {lo : Option Nat} (hm : Table.wfFrom d lo m = true) :
    Table.wfFrom d lo (m.filter p) = true := by
  induction m generalizing lo with
  | nil => simpa using hm
  | cons e m ih =>
    obtain ⟨k, w⟩ := e
    simp only [Table.wfFrom, Bool.and_eq_true] at hm
    simp only [List.filter_cons]
    split
    · simp only [Table.wfFrom, Bool.and_eq_true]
      exact ⟨hm.1, ih hm.2⟩
    · refine ih ?_
      refine Table.wfFrom_mono (lo := some k) ?_ hm.2
      intro l' hl e' he'
      subst hl
      have h1 : l' < k := by simpa using hm.1.1
      cases m with
      | nil => simp at he'
      | cons e2 m2 =>
        simp only [List.head?_cons, Option.mem_def, Option.some.injEq] at he'
        subst he'
        have h2 := hm.2
        obtain ⟨k2, w2⟩ := e2
        simp only [Table.wfFrom, Bool.and_eq_true, decide_eq_true_eq] at h2
        have h3 : k < k2 := h2.1.1
        show l' < k2
        omega

/-- Setting a value keeps the canonical form. -/
theorem Table.wf_set [DecidableEq α] (hm : Table.wf d m = true) : Table.wf d (Table.set d m i v) = true := by
  unfold Table.set
  split <;> rename_i h
  · exact Table.wfFrom_filter _ hm
  · exact Table.wfFrom_put h (by simp) hm

theorem Table.wf_modify [DecidableEq α] (f : α → α) (hm : Table.wf d m = true) : Table.wf d (Table.modify d m i f) = true :=
  Table.wf_set hm

theorem Table.wf_clearRange [DecidableEq α] (lo n : Nat) (hm : Table.wf d m = true) : Table.wf d (Table.clearRange m lo n) = true :=
  Table.wfFrom_filter _ hm

theorem Table.wf_filter [DecidableEq α] (p : Nat × α → Bool) (hm : Table.wf d m = true) : Table.wf d (m.filter p) = true :=
  Table.wfFrom_filter _ hm

@[simp] theorem Table.wf_nil [DecidableEq α] : Table.wf d ([] : Table α) = true := rfl

/-! ### Memory -/

@[simp] theorem Memory.read_write_same (m : Memory) (a : Nat) (b : Byte) : (m.write a b).read a = b := Table.get_set_same

theorem Memory.read_write_ne (m : Memory) {a c : Nat} (b : Byte) (h : c ≠ a) : (m.write a b).read c = m.read c := Table.get_set_ne h

/-- A run of stored bytes leaves every byte outside it alone. -/
theorem Memory.read_writeBytes_out (m : Memory) (a : Nat) (bs : List Byte) (c : Nat) (h : c < a ∨ a + bs.length ≤ c) :
    (m.writeBytes a bs).read c = m.read c := by
  induction bs generalizing m a with
  | nil => rfl
  | cons b bs ih =>
    simp only [List.length_cons] at h
    simp only [Memory.writeBytes]
    rw [ih _ _ (by omega), Memory.read_write_ne _ _ (by omega)]

/-- Byte `k` of a stored run reads back. -/
theorem Memory.read_writeBytes_in (m : Memory) (a : Nat) (bs : List Byte) (k : Nat) (h : k < bs.length) :
    (m.writeBytes a bs).read (a + k) = bs.getD k 0 := by
  induction bs generalizing m a k with
  | nil => simp at h
  | cons b bs ih =>
    simp only [Memory.writeBytes]
    cases k with
    | zero => rw [Memory.read_writeBytes_out _ _ _ _ (by omega)]; simp
    | succ k =>
      have := ih (m.write a b) (a + 1) k (by simpa using h)
      rw [show a + (k + 1) = a + 1 + k by omega, this]; simp

@[simp] theorem Memory.length_readBytes (m : Memory) (a n : Nat) : (m.readBytes a n).length = n := by
  induction n generalizing a with
  | zero => rfl
  | succ n ih => simp [Memory.readBytes, ih]

/-- A run just stored reads back whole. -/
theorem Memory.readBytes_writeBytes (m : Memory) (a : Nat) (bs : List Byte) : (m.writeBytes a bs).readBytes a bs.length = bs := by
  have key : ∀ (n k : Nat) (m' : Memory), (∀ j, j < n → m'.read (a + k + j) = bs.getD (k + j) 0) →
      m'.readBytes (a + k) n = (List.range n).map (fun j => bs.getD (k + j) 0) := by
    intro n
    induction n with
    | zero => intros; rfl
    | succ n ih =>
      intro k m' h
      simp only [Memory.readBytes, List.range_succ_eq_map, List.map_cons, List.map_map]
      have h0 := h 0 (by omega)
      simp only [Nat.add_zero] at h0
      rw [h0, show a + k + 1 = a + (k + 1) by omega, ih (k + 1) m' (fun j hj => by
        have := h (j + 1) (by omega)
        rw [show a + (k + 1) + j = a + k + (j + 1) by omega, this, show k + (j + 1) = k + 1 + j by omega])]
      simp only [Nat.add_zero]
      congr 1
      apply List.map_congr_left
      intro j _
      simp only [Function.comp, Nat.succ_eq_add_one, show k + 1 + j = k + (j + 1) by omega]
  have := key bs.length 0 (m.writeBytes a bs) (fun j hj => by
    simpa using Memory.read_writeBytes_in m a bs j hj)
  simp only [Nat.add_zero, Nat.zero_add] at this
  rw [this]
  apply List.ext_getElem
  · simp
  · intro n h1 h2
    simp [List.getD_eq_getElem?_getD, h2]

/-- Storing a byte, or a run, keeps the canonical form. -/
theorem Memory.wf_write {m : Memory} (a : Nat) (b : Byte) (h : m.wf = true) : (m.write a b).wf = true := Table.wf_set h

theorem Memory.wf_writeBytes {m : Memory} (a : Nat) (bs : List Byte) (h : m.wf = true) : (m.writeBytes a bs).wf = true := by
  induction bs generalizing m a with
  | nil => exact h
  | cons b bs ih => exact ih _ (Memory.wf_write _ _ h)

/-! ### Byte order (R9) -/

@[simp] theorem length_leBytes (n v : Nat) : (leBytes n v).length = n := by
  induction n generalizing v with
  | zero => rfl
  | succ n ih => simp [leBytes, ih]

/-- The bytes of a number, least significant first, read back as the number. -/
theorem leNat_leBytes (n v : Nat) : leNat (leBytes n v) = v % 256 ^ n := by
  induction n generalizing v with
  | zero => simp [leBytes, leNat, Nat.mod_one]
  | succ n ih =>
    have h : (BitVec.ofNat 8 v).toNat = v % 256 := by simp [BitVec.toNat_ofNat]
    rw [leBytes, leNat, ih, h, Nat.pow_succ, Nat.mul_comm (256 ^ n) 256, Nat.mod_mul]

end Sys2Proof.Machine
end

