-- ==== Sys2Proof/Laws/State.lean ====
section
/-!
SUPPORT. What each update of the state leaves in every field: one lemma per field per update, true by definition, so that no later proof
unfolds a record update.
-/
namespace Sys2Proof.Machine

variable (s : State)

@[simp] theorem State.atC_pending (t : Nat) : (s.atC t).pending = s.pending := (rfl)
@[simp] theorem State.atC_cclk (t : Nat) : (s.atC t).cclk = max s.cclk t := (rfl)
@[simp] theorem State.atC_bclk (t : Nat) : (s.atC t).bclk = s.bclk := (rfl)
@[simp] theorem State.atC_cores (t : Nat) : (s.atC t).cores = s.cores := (rfl)
@[simp] theorem State.atC_fix (t : Nat) : (s.atC t).fix = s.fix := (rfl)
@[simp] theorem State.atC_cfe (t : Nat) : (s.atC t).cfe = s.cfe := (rfl)
@[simp] theorem State.atC_err (t : Nat) : (s.atC t).err = s.err := (rfl)
@[simp] theorem State.atC_mem (t : Nat) : (s.atC t).mem = s.mem := (rfl)
@[simp] theorem State.atC_links (t : Nat) : (s.atC t).links = s.links := (rfl)
@[simp] theorem State.atC_host (t : Nat) : (s.atC t).host = s.host := (rfl)
@[simp] theorem State.atC_emb (t : Nat) : (s.atC t).emb = s.emb := (rfl)
@[simp] theorem State.atC_repair (t : Nat) : (s.atC t).repair = s.repair := (rfl)
@[simp] theorem State.atC_marmas (t : Nat) : (s.atC t).marmas = s.marmas := (rfl)
@[simp] theorem State.atC_sec (t : Nat) : (s.atC t).sec = s.sec := (rfl)
@[simp] theorem State.atC_power (t : Nat) : (s.atC t).power = s.power := (rfl)
@[simp] theorem State.atC_start (t : Nat) : (s.atC t).start = s.start := (rfl)
@[simp] theorem State.atC_otp (t : Nat) : (s.atC t).otp = s.otp := (rfl)
@[simp] theorem State.atC_flash (t : Nat) : (s.atC t).flash = s.flash := (rfl)
@[simp] theorem State.atC_signatures (t : Nat) : (s.atC t).signatures = s.signatures := (rfl)
@[simp] theorem State.atC_stands (t : Nat) : (s.atC t).stands = s.stands := (rfl)
@[simp] theorem State.atC_objVals (t : Nat) : (s.atC t).objVals = s.objVals := (rfl)
@[simp] theorem State.atC_free (t : Nat) : (s.atC t).free = s.free := (rfl)
@[simp] theorem State.atC_out (t : Nat) : (s.atC t).out = [] := (rfl)

@[simp] theorem State.atB_pending (t : Nat) : (s.atB t).pending = s.pending := (rfl)
@[simp] theorem State.atB_cclk (t : Nat) : (s.atB t).cclk = s.cclk := (rfl)
@[simp] theorem State.atB_bclk (t : Nat) : (s.atB t).bclk = max s.bclk t := (rfl)
@[simp] theorem State.atB_cores (t : Nat) : (s.atB t).cores = s.cores := (rfl)
@[simp] theorem State.atB_fix (t : Nat) : (s.atB t).fix = s.fix := (rfl)
@[simp] theorem State.atB_cfe (t : Nat) : (s.atB t).cfe = s.cfe := (rfl)
@[simp] theorem State.atB_err (t : Nat) : (s.atB t).err = s.err := (rfl)
@[simp] theorem State.atB_mem (t : Nat) : (s.atB t).mem = s.mem := (rfl)
@[simp] theorem State.atB_links (t : Nat) : (s.atB t).links = s.links := (rfl)
@[simp] theorem State.atB_host (t : Nat) : (s.atB t).host = s.host := (rfl)
@[simp] theorem State.atB_emb (t : Nat) : (s.atB t).emb = s.emb := (rfl)
@[simp] theorem State.atB_repair (t : Nat) : (s.atB t).repair = s.repair := (rfl)
@[simp] theorem State.atB_marmas (t : Nat) : (s.atB t).marmas = s.marmas := (rfl)
@[simp] theorem State.atB_sec (t : Nat) : (s.atB t).sec = s.sec := (rfl)
@[simp] theorem State.atB_power (t : Nat) : (s.atB t).power = s.power := (rfl)
@[simp] theorem State.atB_start (t : Nat) : (s.atB t).start = s.start := (rfl)
@[simp] theorem State.atB_otp (t : Nat) : (s.atB t).otp = s.otp := (rfl)
@[simp] theorem State.atB_flash (t : Nat) : (s.atB t).flash = s.flash := (rfl)
@[simp] theorem State.atB_signatures (t : Nat) : (s.atB t).signatures = s.signatures := (rfl)
@[simp] theorem State.atB_stands (t : Nat) : (s.atB t).stands = s.stands := (rfl)
@[simp] theorem State.atB_objVals (t : Nat) : (s.atB t).objVals = s.objVals := (rfl)
@[simp] theorem State.atB_free (t : Nat) : (s.atB t).free = s.free := (rfl)
@[simp] theorem State.atB_out (t : Nat) : (s.atB t).out = [] := (rfl)

@[simp] theorem State.emit_pending (o : Output) : (s.emit o).pending = s.pending := (rfl)
@[simp] theorem State.emit_cclk (o : Output) : (s.emit o).cclk = s.cclk := (rfl)
@[simp] theorem State.emit_bclk (o : Output) : (s.emit o).bclk = s.bclk := (rfl)
@[simp] theorem State.emit_cores (o : Output) : (s.emit o).cores = s.cores := (rfl)
@[simp] theorem State.emit_fix (o : Output) : (s.emit o).fix = s.fix := (rfl)
@[simp] theorem State.emit_cfe (o : Output) : (s.emit o).cfe = s.cfe := (rfl)
@[simp] theorem State.emit_err (o : Output) : (s.emit o).err = s.err := (rfl)
@[simp] theorem State.emit_mem (o : Output) : (s.emit o).mem = s.mem := (rfl)
@[simp] theorem State.emit_links (o : Output) : (s.emit o).links = s.links := (rfl)
@[simp] theorem State.emit_host (o : Output) : (s.emit o).host = s.host := (rfl)
@[simp] theorem State.emit_emb (o : Output) : (s.emit o).emb = s.emb := (rfl)
@[simp] theorem State.emit_repair (o : Output) : (s.emit o).repair = s.repair := (rfl)
@[simp] theorem State.emit_marmas (o : Output) : (s.emit o).marmas = s.marmas := (rfl)
@[simp] theorem State.emit_sec (o : Output) : (s.emit o).sec = s.sec := (rfl)
@[simp] theorem State.emit_power (o : Output) : (s.emit o).power = s.power := (rfl)
@[simp] theorem State.emit_start (o : Output) : (s.emit o).start = s.start := (rfl)
@[simp] theorem State.emit_otp (o : Output) : (s.emit o).otp = s.otp := (rfl)
@[simp] theorem State.emit_flash (o : Output) : (s.emit o).flash = s.flash := (rfl)
@[simp] theorem State.emit_signatures (o : Output) : (s.emit o).signatures = s.signatures := (rfl)
@[simp] theorem State.emit_stands (o : Output) : (s.emit o).stands = s.stands := (rfl)
@[simp] theorem State.emit_objVals (o : Output) : (s.emit o).objVals = s.objVals := (rfl)
@[simp] theorem State.emit_free (o : Output) : (s.emit o).free = s.free := (rfl)
@[simp] theorem State.emit_out (o : Output) : (s.emit o).out = s.out ++ [o] := (rfl)

@[simp] theorem State.setObjAt_pending (k v : Nat) : (s.setObjAt k v).pending = s.pending := (rfl)
@[simp] theorem State.setObjAt_cclk (k v : Nat) : (s.setObjAt k v).cclk = s.cclk := (rfl)
@[simp] theorem State.setObjAt_bclk (k v : Nat) : (s.setObjAt k v).bclk = s.bclk := (rfl)
@[simp] theorem State.setObjAt_cores (k v : Nat) : (s.setObjAt k v).cores = s.cores := (rfl)
@[simp] theorem State.setObjAt_fix (k v : Nat) : (s.setObjAt k v).fix = s.fix := (rfl)
@[simp] theorem State.setObjAt_cfe (k v : Nat) : (s.setObjAt k v).cfe = s.cfe := (rfl)
@[simp] theorem State.setObjAt_err (k v : Nat) : (s.setObjAt k v).err = s.err := (rfl)
@[simp] theorem State.setObjAt_mem (k v : Nat) : (s.setObjAt k v).mem = s.mem := (rfl)
@[simp] theorem State.setObjAt_links (k v : Nat) : (s.setObjAt k v).links = s.links := (rfl)
@[simp] theorem State.setObjAt_host (k v : Nat) : (s.setObjAt k v).host = s.host := (rfl)
@[simp] theorem State.setObjAt_emb (k v : Nat) : (s.setObjAt k v).emb = s.emb := (rfl)
@[simp] theorem State.setObjAt_repair (k v : Nat) : (s.setObjAt k v).repair = s.repair := (rfl)
@[simp] theorem State.setObjAt_marmas (k v : Nat) : (s.setObjAt k v).marmas = s.marmas := (rfl)
@[simp] theorem State.setObjAt_sec (k v : Nat) : (s.setObjAt k v).sec = s.sec := (rfl)
@[simp] theorem State.setObjAt_power (k v : Nat) : (s.setObjAt k v).power = s.power := (rfl)
@[simp] theorem State.setObjAt_start (k v : Nat) : (s.setObjAt k v).start = s.start := (rfl)
@[simp] theorem State.setObjAt_otp (k v : Nat) : (s.setObjAt k v).otp = s.otp := (rfl)
@[simp] theorem State.setObjAt_flash (k v : Nat) : (s.setObjAt k v).flash = s.flash := (rfl)
@[simp] theorem State.setObjAt_signatures (k v : Nat) : (s.setObjAt k v).signatures = s.signatures := (rfl)
@[simp] theorem State.setObjAt_stands (k v : Nat) : (s.setObjAt k v).stands = s.stands := (rfl)
@[simp] theorem State.setObjAt_objVals (k v : Nat) : (s.setObjAt k v).objVals = Table.set none s.objVals k (some v) := (rfl)
@[simp] theorem State.setObjAt_free (k v : Nat) : (s.setObjAt k v).free = s.free := (rfl)
@[simp] theorem State.setObjAt_out (k v : Nat) : (s.setObjAt k v).out = s.out := (rfl)

@[simp] theorem State.setCore_pending (p : Nat) (c : Core) : (s.setCore p c).pending = s.pending := (rfl)
@[simp] theorem State.setCore_cclk (p : Nat) (c : Core) : (s.setCore p c).cclk = s.cclk := (rfl)
@[simp] theorem State.setCore_bclk (p : Nat) (c : Core) : (s.setCore p c).bclk = s.bclk := (rfl)
@[simp] theorem State.setCore_cores (p : Nat) (c : Core) : (s.setCore p c).cores = Table.set {} s.cores p c := (rfl)
@[simp] theorem State.setCore_fix (p : Nat) (c : Core) : (s.setCore p c).fix = s.fix := (rfl)
@[simp] theorem State.setCore_cfe (p : Nat) (c : Core) : (s.setCore p c).cfe = s.cfe := (rfl)
@[simp] theorem State.setCore_err (p : Nat) (c : Core) : (s.setCore p c).err = s.err := (rfl)
@[simp] theorem State.setCore_mem (p : Nat) (c : Core) : (s.setCore p c).mem = s.mem := (rfl)
@[simp] theorem State.setCore_links (p : Nat) (c : Core) : (s.setCore p c).links = s.links := (rfl)
@[simp] theorem State.setCore_host (p : Nat) (c : Core) : (s.setCore p c).host = s.host := (rfl)
@[simp] theorem State.setCore_emb (p : Nat) (c : Core) : (s.setCore p c).emb = s.emb := (rfl)
@[simp] theorem State.setCore_repair (p : Nat) (c : Core) : (s.setCore p c).repair = s.repair := (rfl)
@[simp] theorem State.setCore_marmas (p : Nat) (c : Core) : (s.setCore p c).marmas = s.marmas := (rfl)
@[simp] theorem State.setCore_sec (p : Nat) (c : Core) : (s.setCore p c).sec = s.sec := (rfl)
@[simp] theorem State.setCore_power (p : Nat) (c : Core) : (s.setCore p c).power = s.power := (rfl)
@[simp] theorem State.setCore_start (p : Nat) (c : Core) : (s.setCore p c).start = s.start := (rfl)
@[simp] theorem State.setCore_otp (p : Nat) (c : Core) : (s.setCore p c).otp = s.otp := (rfl)
@[simp] theorem State.setCore_flash (p : Nat) (c : Core) : (s.setCore p c).flash = s.flash := (rfl)
@[simp] theorem State.setCore_signatures (p : Nat) (c : Core) : (s.setCore p c).signatures = s.signatures := (rfl)
@[simp] theorem State.setCore_stands (p : Nat) (c : Core) : (s.setCore p c).stands = s.stands := (rfl)
@[simp] theorem State.setCore_objVals (p : Nat) (c : Core) : (s.setCore p c).objVals = s.objVals := (rfl)
@[simp] theorem State.setCore_free (p : Nat) (c : Core) : (s.setCore p c).free = s.free := (rfl)
@[simp] theorem State.setCore_out (p : Nat) (c : Core) : (s.setCore p c).out = s.out := (rfl)

@[simp] theorem State.modCore_pending (p : Nat) (f : Core → Core) : (s.modCore p f).pending = s.pending := (rfl)
@[simp] theorem State.modCore_cclk (p : Nat) (f : Core → Core) : (s.modCore p f).cclk = s.cclk := (rfl)
@[simp] theorem State.modCore_bclk (p : Nat) (f : Core → Core) : (s.modCore p f).bclk = s.bclk := (rfl)
@[simp] theorem State.modCore_cores (p : Nat) (f : Core → Core) : (s.modCore p f).cores = Table.set {} s.cores p (f (s.core p)) := (rfl)
@[simp] theorem State.modCore_fix (p : Nat) (f : Core → Core) : (s.modCore p f).fix = s.fix := (rfl)
@[simp] theorem State.modCore_cfe (p : Nat) (f : Core → Core) : (s.modCore p f).cfe = s.cfe := (rfl)
@[simp] theorem State.modCore_err (p : Nat) (f : Core → Core) : (s.modCore p f).err = s.err := (rfl)
@[simp] theorem State.modCore_mem (p : Nat) (f : Core → Core) : (s.modCore p f).mem = s.mem := (rfl)
@[simp] theorem State.modCore_links (p : Nat) (f : Core → Core) : (s.modCore p f).links = s.links := (rfl)
@[simp] theorem State.modCore_host (p : Nat) (f : Core → Core) : (s.modCore p f).host = s.host := (rfl)
@[simp] theorem State.modCore_emb (p : Nat) (f : Core → Core) : (s.modCore p f).emb = s.emb := (rfl)
@[simp] theorem State.modCore_repair (p : Nat) (f : Core → Core) : (s.modCore p f).repair = s.repair := (rfl)
@[simp] theorem State.modCore_marmas (p : Nat) (f : Core → Core) : (s.modCore p f).marmas = s.marmas := (rfl)
@[simp] theorem State.modCore_sec (p : Nat) (f : Core → Core) : (s.modCore p f).sec = s.sec := (rfl)
@[simp] theorem State.modCore_power (p : Nat) (f : Core → Core) : (s.modCore p f).power = s.power := (rfl)
@[simp] theorem State.modCore_start (p : Nat) (f : Core → Core) : (s.modCore p f).start = s.start := (rfl)
@[simp] theorem State.modCore_otp (p : Nat) (f : Core → Core) : (s.modCore p f).otp = s.otp := (rfl)
@[simp] theorem State.modCore_flash (p : Nat) (f : Core → Core) : (s.modCore p f).flash = s.flash := (rfl)
@[simp] theorem State.modCore_signatures (p : Nat) (f : Core → Core) : (s.modCore p f).signatures = s.signatures := (rfl)
@[simp] theorem State.modCore_stands (p : Nat) (f : Core → Core) : (s.modCore p f).stands = s.stands := (rfl)
@[simp] theorem State.modCore_objVals (p : Nat) (f : Core → Core) : (s.modCore p f).objVals = s.objVals := (rfl)
@[simp] theorem State.modCore_free (p : Nat) (f : Core → Core) : (s.modCore p f).free = s.free := (rfl)
@[simp] theorem State.modCore_out (p : Nat) (f : Core → Core) : (s.modCore p f).out = s.out := (rfl)

@[simp] theorem State.modHost_pending (g : HostSide → HostSide) : (s.modHost g).pending = s.pending := (rfl)
@[simp] theorem State.modHost_cclk (g : HostSide → HostSide) : (s.modHost g).cclk = s.cclk := (rfl)
@[simp] theorem State.modHost_bclk (g : HostSide → HostSide) : (s.modHost g).bclk = s.bclk := (rfl)
@[simp] theorem State.modHost_cores (g : HostSide → HostSide) : (s.modHost g).cores = s.cores := (rfl)
@[simp] theorem State.modHost_fix (g : HostSide → HostSide) : (s.modHost g).fix = s.fix := (rfl)
@[simp] theorem State.modHost_cfe (g : HostSide → HostSide) : (s.modHost g).cfe = s.cfe := (rfl)
@[simp] theorem State.modHost_err (g : HostSide → HostSide) : (s.modHost g).err = s.err := (rfl)
@[simp] theorem State.modHost_mem (g : HostSide → HostSide) : (s.modHost g).mem = s.mem := (rfl)
@[simp] theorem State.modHost_links (g : HostSide → HostSide) : (s.modHost g).links = s.links := (rfl)
@[simp] theorem State.modHost_host (g : HostSide → HostSide) : (s.modHost g).host = g s.host := (rfl)
@[simp] theorem State.modHost_emb (g : HostSide → HostSide) : (s.modHost g).emb = s.emb := (rfl)
@[simp] theorem State.modHost_repair (g : HostSide → HostSide) : (s.modHost g).repair = s.repair := (rfl)
@[simp] theorem State.modHost_marmas (g : HostSide → HostSide) : (s.modHost g).marmas = s.marmas := (rfl)
@[simp] theorem State.modHost_sec (g : HostSide → HostSide) : (s.modHost g).sec = s.sec := (rfl)
@[simp] theorem State.modHost_power (g : HostSide → HostSide) : (s.modHost g).power = s.power := (rfl)
@[simp] theorem State.modHost_start (g : HostSide → HostSide) : (s.modHost g).start = s.start := (rfl)
@[simp] theorem State.modHost_otp (g : HostSide → HostSide) : (s.modHost g).otp = s.otp := (rfl)
@[simp] theorem State.modHost_flash (g : HostSide → HostSide) : (s.modHost g).flash = s.flash := (rfl)
@[simp] theorem State.modHost_signatures (g : HostSide → HostSide) : (s.modHost g).signatures = s.signatures := (rfl)
@[simp] theorem State.modHost_stands (g : HostSide → HostSide) : (s.modHost g).stands = s.stands := (rfl)
@[simp] theorem State.modHost_objVals (g : HostSide → HostSide) : (s.modHost g).objVals = s.objVals := (rfl)
@[simp] theorem State.modHost_free (g : HostSide → HostSide) : (s.modHost g).free = s.free := (rfl)
@[simp] theorem State.modHost_out (g : HostSide → HostSide) : (s.modHost g).out = s.out := (rfl)

@[simp] theorem State.modErr_pending (g : Errors → Errors) : (s.modErr g).pending = s.pending := (rfl)
@[simp] theorem State.modErr_cclk (g : Errors → Errors) : (s.modErr g).cclk = s.cclk := (rfl)
@[simp] theorem State.modErr_bclk (g : Errors → Errors) : (s.modErr g).bclk = s.bclk := (rfl)
@[simp] theorem State.modErr_cores (g : Errors → Errors) : (s.modErr g).cores = s.cores := (rfl)
@[simp] theorem State.modErr_fix (g : Errors → Errors) : (s.modErr g).fix = s.fix := (rfl)
@[simp] theorem State.modErr_cfe (g : Errors → Errors) : (s.modErr g).cfe = s.cfe := (rfl)
@[simp] theorem State.modErr_err (g : Errors → Errors) : (s.modErr g).err = g s.err := (rfl)
@[simp] theorem State.modErr_mem (g : Errors → Errors) : (s.modErr g).mem = s.mem := (rfl)
@[simp] theorem State.modErr_links (g : Errors → Errors) : (s.modErr g).links = s.links := (rfl)
@[simp] theorem State.modErr_host (g : Errors → Errors) : (s.modErr g).host = s.host := (rfl)
@[simp] theorem State.modErr_emb (g : Errors → Errors) : (s.modErr g).emb = s.emb := (rfl)
@[simp] theorem State.modErr_repair (g : Errors → Errors) : (s.modErr g).repair = s.repair := (rfl)
@[simp] theorem State.modErr_marmas (g : Errors → Errors) : (s.modErr g).marmas = s.marmas := (rfl)
@[simp] theorem State.modErr_sec (g : Errors → Errors) : (s.modErr g).sec = s.sec := (rfl)
@[simp] theorem State.modErr_power (g : Errors → Errors) : (s.modErr g).power = s.power := (rfl)
@[simp] theorem State.modErr_start (g : Errors → Errors) : (s.modErr g).start = s.start := (rfl)
@[simp] theorem State.modErr_otp (g : Errors → Errors) : (s.modErr g).otp = s.otp := (rfl)
@[simp] theorem State.modErr_flash (g : Errors → Errors) : (s.modErr g).flash = s.flash := (rfl)
@[simp] theorem State.modErr_signatures (g : Errors → Errors) : (s.modErr g).signatures = s.signatures := (rfl)
@[simp] theorem State.modErr_stands (g : Errors → Errors) : (s.modErr g).stands = s.stands := (rfl)
@[simp] theorem State.modErr_objVals (g : Errors → Errors) : (s.modErr g).objVals = s.objVals := (rfl)
@[simp] theorem State.modErr_free (g : Errors → Errors) : (s.modErr g).free = s.free := (rfl)
@[simp] theorem State.modErr_out (g : Errors → Errors) : (s.modErr g).out = s.out := (rfl)

@[simp] theorem State.modFix_pending (g : Fixture → Fixture) : (s.modFix g).pending = s.pending := (rfl)
@[simp] theorem State.modFix_cclk (g : Fixture → Fixture) : (s.modFix g).cclk = s.cclk := (rfl)
@[simp] theorem State.modFix_bclk (g : Fixture → Fixture) : (s.modFix g).bclk = s.bclk := (rfl)
@[simp] theorem State.modFix_cores (g : Fixture → Fixture) : (s.modFix g).cores = s.cores := (rfl)
@[simp] theorem State.modFix_fix (g : Fixture → Fixture) : (s.modFix g).fix = g s.fix := (rfl)
@[simp] theorem State.modFix_cfe (g : Fixture → Fixture) : (s.modFix g).cfe = s.cfe := (rfl)
@[simp] theorem State.modFix_err (g : Fixture → Fixture) : (s.modFix g).err = s.err := (rfl)
@[simp] theorem State.modFix_mem (g : Fixture → Fixture) : (s.modFix g).mem = s.mem := (rfl)
@[simp] theorem State.modFix_links (g : Fixture → Fixture) : (s.modFix g).links = s.links := (rfl)
@[simp] theorem State.modFix_host (g : Fixture → Fixture) : (s.modFix g).host = s.host := (rfl)
@[simp] theorem State.modFix_emb (g : Fixture → Fixture) : (s.modFix g).emb = s.emb := (rfl)
@[simp] theorem State.modFix_repair (g : Fixture → Fixture) : (s.modFix g).repair = s.repair := (rfl)
@[simp] theorem State.modFix_marmas (g : Fixture → Fixture) : (s.modFix g).marmas = s.marmas := (rfl)
@[simp] theorem State.modFix_sec (g : Fixture → Fixture) : (s.modFix g).sec = s.sec := (rfl)
@[simp] theorem State.modFix_power (g : Fixture → Fixture) : (s.modFix g).power = s.power := (rfl)
@[simp] theorem State.modFix_start (g : Fixture → Fixture) : (s.modFix g).start = s.start := (rfl)
@[simp] theorem State.modFix_otp (g : Fixture → Fixture) : (s.modFix g).otp = s.otp := (rfl)
@[simp] theorem State.modFix_flash (g : Fixture → Fixture) : (s.modFix g).flash = s.flash := (rfl)
@[simp] theorem State.modFix_signatures (g : Fixture → Fixture) : (s.modFix g).signatures = s.signatures := (rfl)
@[simp] theorem State.modFix_stands (g : Fixture → Fixture) : (s.modFix g).stands = s.stands := (rfl)
@[simp] theorem State.modFix_objVals (g : Fixture → Fixture) : (s.modFix g).objVals = s.objVals := (rfl)
@[simp] theorem State.modFix_free (g : Fixture → Fixture) : (s.modFix g).free = s.free := (rfl)
@[simp] theorem State.modFix_out (g : Fixture → Fixture) : (s.modFix g).out = s.out := (rfl)

@[simp] theorem State.modRepair_pending (g : Repair → Repair) : (s.modRepair g).pending = s.pending := (rfl)
@[simp] theorem State.modRepair_cclk (g : Repair → Repair) : (s.modRepair g).cclk = s.cclk := (rfl)
@[simp] theorem State.modRepair_bclk (g : Repair → Repair) : (s.modRepair g).bclk = s.bclk := (rfl)
@[simp] theorem State.modRepair_cores (g : Repair → Repair) : (s.modRepair g).cores = s.cores := (rfl)
@[simp] theorem State.modRepair_fix (g : Repair → Repair) : (s.modRepair g).fix = s.fix := (rfl)
@[simp] theorem State.modRepair_cfe (g : Repair → Repair) : (s.modRepair g).cfe = s.cfe := (rfl)
@[simp] theorem State.modRepair_err (g : Repair → Repair) : (s.modRepair g).err = s.err := (rfl)
@[simp] theorem State.modRepair_mem (g : Repair → Repair) : (s.modRepair g).mem = s.mem := (rfl)
@[simp] theorem State.modRepair_links (g : Repair → Repair) : (s.modRepair g).links = s.links := (rfl)
@[simp] theorem State.modRepair_host (g : Repair → Repair) : (s.modRepair g).host = s.host := (rfl)
@[simp] theorem State.modRepair_emb (g : Repair → Repair) : (s.modRepair g).emb = s.emb := (rfl)
@[simp] theorem State.modRepair_repair (g : Repair → Repair) : (s.modRepair g).repair = g s.repair := (rfl)
@[simp] theorem State.modRepair_marmas (g : Repair → Repair) : (s.modRepair g).marmas = s.marmas := (rfl)
@[simp] theorem State.modRepair_sec (g : Repair → Repair) : (s.modRepair g).sec = s.sec := (rfl)
@[simp] theorem State.modRepair_power (g : Repair → Repair) : (s.modRepair g).power = s.power := (rfl)
@[simp] theorem State.modRepair_start (g : Repair → Repair) : (s.modRepair g).start = s.start := (rfl)
@[simp] theorem State.modRepair_otp (g : Repair → Repair) : (s.modRepair g).otp = s.otp := (rfl)
@[simp] theorem State.modRepair_flash (g : Repair → Repair) : (s.modRepair g).flash = s.flash := (rfl)
@[simp] theorem State.modRepair_signatures (g : Repair → Repair) : (s.modRepair g).signatures = s.signatures := (rfl)
@[simp] theorem State.modRepair_stands (g : Repair → Repair) : (s.modRepair g).stands = s.stands := (rfl)
@[simp] theorem State.modRepair_objVals (g : Repair → Repair) : (s.modRepair g).objVals = s.objVals := (rfl)
@[simp] theorem State.modRepair_free (g : Repair → Repair) : (s.modRepair g).free = s.free := (rfl)
@[simp] theorem State.modRepair_out (g : Repair → Repair) : (s.modRepair g).out = s.out := (rfl)

@[simp] theorem State.modCfe_pending (g : Cfe → Cfe) : (s.modCfe g).pending = s.pending := (rfl)
@[simp] theorem State.modCfe_cclk (g : Cfe → Cfe) : (s.modCfe g).cclk = s.cclk := (rfl)
@[simp] theorem State.modCfe_bclk (g : Cfe → Cfe) : (s.modCfe g).bclk = s.bclk := (rfl)
@[simp] theorem State.modCfe_cores (g : Cfe → Cfe) : (s.modCfe g).cores = s.cores := (rfl)
@[simp] theorem State.modCfe_fix (g : Cfe → Cfe) : (s.modCfe g).fix = s.fix := (rfl)
@[simp] theorem State.modCfe_cfe (g : Cfe → Cfe) : (s.modCfe g).cfe = g s.cfe := (rfl)
@[simp] theorem State.modCfe_err (g : Cfe → Cfe) : (s.modCfe g).err = s.err := (rfl)
@[simp] theorem State.modCfe_mem (g : Cfe → Cfe) : (s.modCfe g).mem = s.mem := (rfl)
@[simp] theorem State.modCfe_links (g : Cfe → Cfe) : (s.modCfe g).links = s.links := (rfl)
@[simp] theorem State.modCfe_host (g : Cfe → Cfe) : (s.modCfe g).host = s.host := (rfl)
@[simp] theorem State.modCfe_emb (g : Cfe → Cfe) : (s.modCfe g).emb = s.emb := (rfl)
@[simp] theorem State.modCfe_repair (g : Cfe → Cfe) : (s.modCfe g).repair = s.repair := (rfl)
@[simp] theorem State.modCfe_marmas (g : Cfe → Cfe) : (s.modCfe g).marmas = s.marmas := (rfl)
@[simp] theorem State.modCfe_sec (g : Cfe → Cfe) : (s.modCfe g).sec = s.sec := (rfl)
@[simp] theorem State.modCfe_power (g : Cfe → Cfe) : (s.modCfe g).power = s.power := (rfl)
@[simp] theorem State.modCfe_start (g : Cfe → Cfe) : (s.modCfe g).start = s.start := (rfl)
@[simp] theorem State.modCfe_otp (g : Cfe → Cfe) : (s.modCfe g).otp = s.otp := (rfl)
@[simp] theorem State.modCfe_flash (g : Cfe → Cfe) : (s.modCfe g).flash = s.flash := (rfl)
@[simp] theorem State.modCfe_signatures (g : Cfe → Cfe) : (s.modCfe g).signatures = s.signatures := (rfl)
@[simp] theorem State.modCfe_stands (g : Cfe → Cfe) : (s.modCfe g).stands = s.stands := (rfl)
@[simp] theorem State.modCfe_objVals (g : Cfe → Cfe) : (s.modCfe g).objVals = s.objVals := (rfl)
@[simp] theorem State.modCfe_free (g : Cfe → Cfe) : (s.modCfe g).free = s.free := (rfl)
@[simp] theorem State.modCfe_out (g : Cfe → Cfe) : (s.modCfe g).out = s.out := (rfl)

@[simp] theorem State.modCmd_pending (ref : Nat) (g : Cmd → Cmd) : (s.modCmd ref g).pending = s.pending := (rfl)
@[simp] theorem State.modCmd_cclk (ref : Nat) (g : Cmd → Cmd) : (s.modCmd ref g).cclk = s.cclk := (rfl)
@[simp] theorem State.modCmd_bclk (ref : Nat) (g : Cmd → Cmd) : (s.modCmd ref g).bclk = s.bclk := (rfl)
@[simp] theorem State.modCmd_cores (ref : Nat) (g : Cmd → Cmd) : (s.modCmd ref g).cores = s.cores := (rfl)
@[simp] theorem State.modCmd_fix (ref : Nat) (g : Cmd → Cmd) : (s.modCmd ref g).fix = s.fix := (rfl)
@[simp] theorem State.modCmd_cfe (ref : Nat) (g : Cmd → Cmd) : (s.modCmd ref g).cfe = s.cfe.modCmd ref g := (rfl)
@[simp] theorem State.modCmd_err (ref : Nat) (g : Cmd → Cmd) : (s.modCmd ref g).err = s.err := (rfl)
@[simp] theorem State.modCmd_mem (ref : Nat) (g : Cmd → Cmd) : (s.modCmd ref g).mem = s.mem := (rfl)
@[simp] theorem State.modCmd_links (ref : Nat) (g : Cmd → Cmd) : (s.modCmd ref g).links = s.links := (rfl)
@[simp] theorem State.modCmd_host (ref : Nat) (g : Cmd → Cmd) : (s.modCmd ref g).host = s.host := (rfl)
@[simp] theorem State.modCmd_emb (ref : Nat) (g : Cmd → Cmd) : (s.modCmd ref g).emb = s.emb := (rfl)
@[simp] theorem State.modCmd_repair (ref : Nat) (g : Cmd → Cmd) : (s.modCmd ref g).repair = s.repair := (rfl)
@[simp] theorem State.modCmd_marmas (ref : Nat) (g : Cmd → Cmd) : (s.modCmd ref g).marmas = s.marmas := (rfl)
@[simp] theorem State.modCmd_sec (ref : Nat) (g : Cmd → Cmd) : (s.modCmd ref g).sec = s.sec := (rfl)
@[simp] theorem State.modCmd_power (ref : Nat) (g : Cmd → Cmd) : (s.modCmd ref g).power = s.power := (rfl)
@[simp] theorem State.modCmd_start (ref : Nat) (g : Cmd → Cmd) : (s.modCmd ref g).start = s.start := (rfl)
@[simp] theorem State.modCmd_otp (ref : Nat) (g : Cmd → Cmd) : (s.modCmd ref g).otp = s.otp := (rfl)
@[simp] theorem State.modCmd_flash (ref : Nat) (g : Cmd → Cmd) : (s.modCmd ref g).flash = s.flash := (rfl)
@[simp] theorem State.modCmd_signatures (ref : Nat) (g : Cmd → Cmd) : (s.modCmd ref g).signatures = s.signatures := (rfl)
@[simp] theorem State.modCmd_stands (ref : Nat) (g : Cmd → Cmd) : (s.modCmd ref g).stands = s.stands := (rfl)
@[simp] theorem State.modCmd_objVals (ref : Nat) (g : Cmd → Cmd) : (s.modCmd ref g).objVals = s.objVals := (rfl)
@[simp] theorem State.modCmd_free (ref : Nat) (g : Cmd → Cmd) : (s.modCmd ref g).free = s.free := (rfl)
@[simp] theorem State.modCmd_out (ref : Nat) (g : Cmd → Cmd) : (s.modCmd ref g).out = s.out := (rfl)

@[simp] theorem State.modMem_pending (g : Mem → Mem) : (s.modMem g).pending = s.pending := (rfl)
@[simp] theorem State.modMem_cclk (g : Mem → Mem) : (s.modMem g).cclk = s.cclk := (rfl)
@[simp] theorem State.modMem_bclk (g : Mem → Mem) : (s.modMem g).bclk = s.bclk := (rfl)
@[simp] theorem State.modMem_cores (g : Mem → Mem) : (s.modMem g).cores = s.cores := (rfl)
@[simp] theorem State.modMem_fix (g : Mem → Mem) : (s.modMem g).fix = s.fix := (rfl)
@[simp] theorem State.modMem_cfe (g : Mem → Mem) : (s.modMem g).cfe = s.cfe := (rfl)
@[simp] theorem State.modMem_err (g : Mem → Mem) : (s.modMem g).err = s.err := (rfl)
@[simp] theorem State.modMem_mem (g : Mem → Mem) : (s.modMem g).mem = g s.mem := (rfl)
@[simp] theorem State.modMem_links (g : Mem → Mem) : (s.modMem g).links = s.links := (rfl)
@[simp] theorem State.modMem_host (g : Mem → Mem) : (s.modMem g).host = s.host := (rfl)
@[simp] theorem State.modMem_emb (g : Mem → Mem) : (s.modMem g).emb = s.emb := (rfl)
@[simp] theorem State.modMem_repair (g : Mem → Mem) : (s.modMem g).repair = s.repair := (rfl)
@[simp] theorem State.modMem_marmas (g : Mem → Mem) : (s.modMem g).marmas = s.marmas := (rfl)
@[simp] theorem State.modMem_sec (g : Mem → Mem) : (s.modMem g).sec = s.sec := (rfl)
@[simp] theorem State.modMem_power (g : Mem → Mem) : (s.modMem g).power = s.power := (rfl)
@[simp] theorem State.modMem_start (g : Mem → Mem) : (s.modMem g).start = s.start := (rfl)
@[simp] theorem State.modMem_otp (g : Mem → Mem) : (s.modMem g).otp = s.otp := (rfl)
@[simp] theorem State.modMem_flash (g : Mem → Mem) : (s.modMem g).flash = s.flash := (rfl)
@[simp] theorem State.modMem_signatures (g : Mem → Mem) : (s.modMem g).signatures = s.signatures := (rfl)
@[simp] theorem State.modMem_stands (g : Mem → Mem) : (s.modMem g).stands = s.stands := (rfl)
@[simp] theorem State.modMem_objVals (g : Mem → Mem) : (s.modMem g).objVals = s.objVals := (rfl)
@[simp] theorem State.modMem_free (g : Mem → Mem) : (s.modMem g).free = s.free := (rfl)
@[simp] theorem State.modMem_out (g : Mem → Mem) : (s.modMem g).out = s.out := (rfl)

@[simp] theorem State.modLinks_pending (g : Links → Links) : (s.modLinks g).pending = s.pending := (rfl)
@[simp] theorem State.modLinks_cclk (g : Links → Links) : (s.modLinks g).cclk = s.cclk := (rfl)
@[simp] theorem State.modLinks_bclk (g : Links → Links) : (s.modLinks g).bclk = s.bclk := (rfl)
@[simp] theorem State.modLinks_cores (g : Links → Links) : (s.modLinks g).cores = s.cores := (rfl)
@[simp] theorem State.modLinks_fix (g : Links → Links) : (s.modLinks g).fix = s.fix := (rfl)
@[simp] theorem State.modLinks_cfe (g : Links → Links) : (s.modLinks g).cfe = s.cfe := (rfl)
@[simp] theorem State.modLinks_err (g : Links → Links) : (s.modLinks g).err = s.err := (rfl)
@[simp] theorem State.modLinks_mem (g : Links → Links) : (s.modLinks g).mem = s.mem := (rfl)
@[simp] theorem State.modLinks_links (g : Links → Links) : (s.modLinks g).links = g s.links := (rfl)
@[simp] theorem State.modLinks_host (g : Links → Links) : (s.modLinks g).host = s.host := (rfl)
@[simp] theorem State.modLinks_emb (g : Links → Links) : (s.modLinks g).emb = s.emb := (rfl)
@[simp] theorem State.modLinks_repair (g : Links → Links) : (s.modLinks g).repair = s.repair := (rfl)
@[simp] theorem State.modLinks_marmas (g : Links → Links) : (s.modLinks g).marmas = s.marmas := (rfl)
@[simp] theorem State.modLinks_sec (g : Links → Links) : (s.modLinks g).sec = s.sec := (rfl)
@[simp] theorem State.modLinks_power (g : Links → Links) : (s.modLinks g).power = s.power := (rfl)
@[simp] theorem State.modLinks_start (g : Links → Links) : (s.modLinks g).start = s.start := (rfl)
@[simp] theorem State.modLinks_otp (g : Links → Links) : (s.modLinks g).otp = s.otp := (rfl)
@[simp] theorem State.modLinks_flash (g : Links → Links) : (s.modLinks g).flash = s.flash := (rfl)
@[simp] theorem State.modLinks_signatures (g : Links → Links) : (s.modLinks g).signatures = s.signatures := (rfl)
@[simp] theorem State.modLinks_stands (g : Links → Links) : (s.modLinks g).stands = s.stands := (rfl)
@[simp] theorem State.modLinks_objVals (g : Links → Links) : (s.modLinks g).objVals = s.objVals := (rfl)
@[simp] theorem State.modLinks_free (g : Links → Links) : (s.modLinks g).free = s.free := (rfl)
@[simp] theorem State.modLinks_out (g : Links → Links) : (s.modLinks g).out = s.out := (rfl)

@[simp] theorem State.modEmb_pending (g : Emb → Emb) : (s.modEmb g).pending = s.pending := (rfl)
@[simp] theorem State.modEmb_cclk (g : Emb → Emb) : (s.modEmb g).cclk = s.cclk := (rfl)
@[simp] theorem State.modEmb_bclk (g : Emb → Emb) : (s.modEmb g).bclk = s.bclk := (rfl)
@[simp] theorem State.modEmb_cores (g : Emb → Emb) : (s.modEmb g).cores = s.cores := (rfl)
@[simp] theorem State.modEmb_fix (g : Emb → Emb) : (s.modEmb g).fix = s.fix := (rfl)
@[simp] theorem State.modEmb_cfe (g : Emb → Emb) : (s.modEmb g).cfe = s.cfe := (rfl)
@[simp] theorem State.modEmb_err (g : Emb → Emb) : (s.modEmb g).err = s.err := (rfl)
@[simp] theorem State.modEmb_mem (g : Emb → Emb) : (s.modEmb g).mem = s.mem := (rfl)
@[simp] theorem State.modEmb_links (g : Emb → Emb) : (s.modEmb g).links = s.links := (rfl)
@[simp] theorem State.modEmb_host (g : Emb → Emb) : (s.modEmb g).host = s.host := (rfl)
@[simp] theorem State.modEmb_emb (g : Emb → Emb) : (s.modEmb g).emb = g s.emb := (rfl)
@[simp] theorem State.modEmb_repair (g : Emb → Emb) : (s.modEmb g).repair = s.repair := (rfl)
@[simp] theorem State.modEmb_marmas (g : Emb → Emb) : (s.modEmb g).marmas = s.marmas := (rfl)
@[simp] theorem State.modEmb_sec (g : Emb → Emb) : (s.modEmb g).sec = s.sec := (rfl)
@[simp] theorem State.modEmb_power (g : Emb → Emb) : (s.modEmb g).power = s.power := (rfl)
@[simp] theorem State.modEmb_start (g : Emb → Emb) : (s.modEmb g).start = s.start := (rfl)
@[simp] theorem State.modEmb_otp (g : Emb → Emb) : (s.modEmb g).otp = s.otp := (rfl)
@[simp] theorem State.modEmb_flash (g : Emb → Emb) : (s.modEmb g).flash = s.flash := (rfl)
@[simp] theorem State.modEmb_signatures (g : Emb → Emb) : (s.modEmb g).signatures = s.signatures := (rfl)
@[simp] theorem State.modEmb_stands (g : Emb → Emb) : (s.modEmb g).stands = s.stands := (rfl)
@[simp] theorem State.modEmb_objVals (g : Emb → Emb) : (s.modEmb g).objVals = s.objVals := (rfl)
@[simp] theorem State.modEmb_free (g : Emb → Emb) : (s.modEmb g).free = s.free := (rfl)
@[simp] theorem State.modEmb_out (g : Emb → Emb) : (s.modEmb g).out = s.out := (rfl)

@[simp] theorem State.modMarmas_pending (g : Marmas → Marmas) : (s.modMarmas g).pending = s.pending := (rfl)
@[simp] theorem State.modMarmas_cclk (g : Marmas → Marmas) : (s.modMarmas g).cclk = s.cclk := (rfl)
@[simp] theorem State.modMarmas_bclk (g : Marmas → Marmas) : (s.modMarmas g).bclk = s.bclk := (rfl)
@[simp] theorem State.modMarmas_cores (g : Marmas → Marmas) : (s.modMarmas g).cores = s.cores := (rfl)
@[simp] theorem State.modMarmas_fix (g : Marmas → Marmas) : (s.modMarmas g).fix = s.fix := (rfl)
@[simp] theorem State.modMarmas_cfe (g : Marmas → Marmas) : (s.modMarmas g).cfe = s.cfe := (rfl)
@[simp] theorem State.modMarmas_err (g : Marmas → Marmas) : (s.modMarmas g).err = s.err := (rfl)
@[simp] theorem State.modMarmas_mem (g : Marmas → Marmas) : (s.modMarmas g).mem = s.mem := (rfl)
@[simp] theorem State.modMarmas_links (g : Marmas → Marmas) : (s.modMarmas g).links = s.links := (rfl)
@[simp] theorem State.modMarmas_host (g : Marmas → Marmas) : (s.modMarmas g).host = s.host := (rfl)
@[simp] theorem State.modMarmas_emb (g : Marmas → Marmas) : (s.modMarmas g).emb = s.emb := (rfl)
@[simp] theorem State.modMarmas_repair (g : Marmas → Marmas) : (s.modMarmas g).repair = s.repair := (rfl)
@[simp] theorem State.modMarmas_marmas (g : Marmas → Marmas) : (s.modMarmas g).marmas = g s.marmas := (rfl)
@[simp] theorem State.modMarmas_sec (g : Marmas → Marmas) : (s.modMarmas g).sec = s.sec := (rfl)
@[simp] theorem State.modMarmas_power (g : Marmas → Marmas) : (s.modMarmas g).power = s.power := (rfl)
@[simp] theorem State.modMarmas_start (g : Marmas → Marmas) : (s.modMarmas g).start = s.start := (rfl)
@[simp] theorem State.modMarmas_otp (g : Marmas → Marmas) : (s.modMarmas g).otp = s.otp := (rfl)
@[simp] theorem State.modMarmas_flash (g : Marmas → Marmas) : (s.modMarmas g).flash = s.flash := (rfl)
@[simp] theorem State.modMarmas_signatures (g : Marmas → Marmas) : (s.modMarmas g).signatures = s.signatures := (rfl)
@[simp] theorem State.modMarmas_stands (g : Marmas → Marmas) : (s.modMarmas g).stands = s.stands := (rfl)
@[simp] theorem State.modMarmas_objVals (g : Marmas → Marmas) : (s.modMarmas g).objVals = s.objVals := (rfl)
@[simp] theorem State.modMarmas_free (g : Marmas → Marmas) : (s.modMarmas g).free = s.free := (rfl)
@[simp] theorem State.modMarmas_out (g : Marmas → Marmas) : (s.modMarmas g).out = s.out := (rfl)

@[simp] theorem State.modSec_pending (g : Sec → Sec) : (s.modSec g).pending = s.pending := (rfl)
@[simp] theorem State.modSec_cclk (g : Sec → Sec) : (s.modSec g).cclk = s.cclk := (rfl)
@[simp] theorem State.modSec_bclk (g : Sec → Sec) : (s.modSec g).bclk = s.bclk := (rfl)
@[simp] theorem State.modSec_cores (g : Sec → Sec) : (s.modSec g).cores = s.cores := (rfl)
@[simp] theorem State.modSec_fix (g : Sec → Sec) : (s.modSec g).fix = s.fix := (rfl)
@[simp] theorem State.modSec_cfe (g : Sec → Sec) : (s.modSec g).cfe = s.cfe := (rfl)
@[simp] theorem State.modSec_err (g : Sec → Sec) : (s.modSec g).err = s.err := (rfl)
@[simp] theorem State.modSec_mem (g : Sec → Sec) : (s.modSec g).mem = s.mem := (rfl)
@[simp] theorem State.modSec_links (g : Sec → Sec) : (s.modSec g).links = s.links := (rfl)
@[simp] theorem State.modSec_host (g : Sec → Sec) : (s.modSec g).host = s.host := (rfl)
@[simp] theorem State.modSec_emb (g : Sec → Sec) : (s.modSec g).emb = s.emb := (rfl)
@[simp] theorem State.modSec_repair (g : Sec → Sec) : (s.modSec g).repair = s.repair := (rfl)
@[simp] theorem State.modSec_marmas (g : Sec → Sec) : (s.modSec g).marmas = s.marmas := (rfl)
@[simp] theorem State.modSec_sec (g : Sec → Sec) : (s.modSec g).sec = g s.sec := (rfl)
@[simp] theorem State.modSec_power (g : Sec → Sec) : (s.modSec g).power = s.power := (rfl)
@[simp] theorem State.modSec_start (g : Sec → Sec) : (s.modSec g).start = s.start := (rfl)
@[simp] theorem State.modSec_otp (g : Sec → Sec) : (s.modSec g).otp = s.otp := (rfl)
@[simp] theorem State.modSec_flash (g : Sec → Sec) : (s.modSec g).flash = s.flash := (rfl)
@[simp] theorem State.modSec_signatures (g : Sec → Sec) : (s.modSec g).signatures = s.signatures := (rfl)
@[simp] theorem State.modSec_stands (g : Sec → Sec) : (s.modSec g).stands = s.stands := (rfl)
@[simp] theorem State.modSec_objVals (g : Sec → Sec) : (s.modSec g).objVals = s.objVals := (rfl)
@[simp] theorem State.modSec_free (g : Sec → Sec) : (s.modSec g).free = s.free := (rfl)
@[simp] theorem State.modSec_out (g : Sec → Sec) : (s.modSec g).out = s.out := (rfl)

@[simp] theorem State.modPower_pending (g : Power → Power) : (s.modPower g).pending = s.pending := (rfl)
@[simp] theorem State.modPower_cclk (g : Power → Power) : (s.modPower g).cclk = s.cclk := (rfl)
@[simp] theorem State.modPower_bclk (g : Power → Power) : (s.modPower g).bclk = s.bclk := (rfl)
@[simp] theorem State.modPower_cores (g : Power → Power) : (s.modPower g).cores = s.cores := (rfl)
@[simp] theorem State.modPower_fix (g : Power → Power) : (s.modPower g).fix = s.fix := (rfl)
@[simp] theorem State.modPower_cfe (g : Power → Power) : (s.modPower g).cfe = s.cfe := (rfl)
@[simp] theorem State.modPower_err (g : Power → Power) : (s.modPower g).err = s.err := (rfl)
@[simp] theorem State.modPower_mem (g : Power → Power) : (s.modPower g).mem = s.mem := (rfl)
@[simp] theorem State.modPower_links (g : Power → Power) : (s.modPower g).links = s.links := (rfl)
@[simp] theorem State.modPower_host (g : Power → Power) : (s.modPower g).host = s.host := (rfl)
@[simp] theorem State.modPower_emb (g : Power → Power) : (s.modPower g).emb = s.emb := (rfl)
@[simp] theorem State.modPower_repair (g : Power → Power) : (s.modPower g).repair = s.repair := (rfl)
@[simp] theorem State.modPower_marmas (g : Power → Power) : (s.modPower g).marmas = s.marmas := (rfl)
@[simp] theorem State.modPower_sec (g : Power → Power) : (s.modPower g).sec = s.sec := (rfl)
@[simp] theorem State.modPower_power (g : Power → Power) : (s.modPower g).power = g s.power := (rfl)
@[simp] theorem State.modPower_start (g : Power → Power) : (s.modPower g).start = s.start := (rfl)
@[simp] theorem State.modPower_otp (g : Power → Power) : (s.modPower g).otp = s.otp := (rfl)
@[simp] theorem State.modPower_flash (g : Power → Power) : (s.modPower g).flash = s.flash := (rfl)
@[simp] theorem State.modPower_signatures (g : Power → Power) : (s.modPower g).signatures = s.signatures := (rfl)
@[simp] theorem State.modPower_stands (g : Power → Power) : (s.modPower g).stands = s.stands := (rfl)
@[simp] theorem State.modPower_objVals (g : Power → Power) : (s.modPower g).objVals = s.objVals := (rfl)
@[simp] theorem State.modPower_free (g : Power → Power) : (s.modPower g).free = s.free := (rfl)
@[simp] theorem State.modPower_out (g : Power → Power) : (s.modPower g).out = s.out := (rfl)

@[simp] theorem State.modStart_pending (g : StartUp → StartUp) : (s.modStart g).pending = s.pending := (rfl)
@[simp] theorem State.modStart_cclk (g : StartUp → StartUp) : (s.modStart g).cclk = s.cclk := (rfl)
@[simp] theorem State.modStart_bclk (g : StartUp → StartUp) : (s.modStart g).bclk = s.bclk := (rfl)
@[simp] theorem State.modStart_cores (g : StartUp → StartUp) : (s.modStart g).cores = s.cores := (rfl)
@[simp] theorem State.modStart_fix (g : StartUp → StartUp) : (s.modStart g).fix = s.fix := (rfl)
@[simp] theorem State.modStart_cfe (g : StartUp → StartUp) : (s.modStart g).cfe = s.cfe := (rfl)
@[simp] theorem State.modStart_err (g : StartUp → StartUp) : (s.modStart g).err = s.err := (rfl)
@[simp] theorem State.modStart_mem (g : StartUp → StartUp) : (s.modStart g).mem = s.mem := (rfl)
@[simp] theorem State.modStart_links (g : StartUp → StartUp) : (s.modStart g).links = s.links := (rfl)
@[simp] theorem State.modStart_host (g : StartUp → StartUp) : (s.modStart g).host = s.host := (rfl)
@[simp] theorem State.modStart_emb (g : StartUp → StartUp) : (s.modStart g).emb = s.emb := (rfl)
@[simp] theorem State.modStart_repair (g : StartUp → StartUp) : (s.modStart g).repair = s.repair := (rfl)
@[simp] theorem State.modStart_marmas (g : StartUp → StartUp) : (s.modStart g).marmas = s.marmas := (rfl)
@[simp] theorem State.modStart_sec (g : StartUp → StartUp) : (s.modStart g).sec = s.sec := (rfl)
@[simp] theorem State.modStart_power (g : StartUp → StartUp) : (s.modStart g).power = s.power := (rfl)
@[simp] theorem State.modStart_start (g : StartUp → StartUp) : (s.modStart g).start = g s.start := (rfl)
@[simp] theorem State.modStart_otp (g : StartUp → StartUp) : (s.modStart g).otp = s.otp := (rfl)
@[simp] theorem State.modStart_flash (g : StartUp → StartUp) : (s.modStart g).flash = s.flash := (rfl)
@[simp] theorem State.modStart_signatures (g : StartUp → StartUp) : (s.modStart g).signatures = s.signatures := (rfl)
@[simp] theorem State.modStart_stands (g : StartUp → StartUp) : (s.modStart g).stands = s.stands := (rfl)
@[simp] theorem State.modStart_objVals (g : StartUp → StartUp) : (s.modStart g).objVals = s.objVals := (rfl)
@[simp] theorem State.modStart_free (g : StartUp → StartUp) : (s.modStart g).free = s.free := (rfl)
@[simp] theorem State.modStart_out (g : StartUp → StartUp) : (s.modStart g).out = s.out := (rfl)


/-! ### Cores -/

@[simp] theorem State.core_setCore_same (p : Nat) (c : Core) : (s.setCore p c).core p = c := Table.get_set_same
theorem State.core_setCore_ne {p q : Nat} (c : Core) (h : q ≠ p) : (s.setCore p c).core q = s.core q := Table.get_set_ne h
@[simp] theorem State.core_modCore_same (p : Nat) (f : Core → Core) : (s.modCore p f).core p = f (s.core p) := Table.get_set_same
theorem State.core_modCore_ne {p q : Nat} (f : Core → Core) (h : q ≠ p) : (s.modCore p f).core q = s.core q := Table.get_set_ne h
@[simp] theorem State.core_atC (t p : Nat) : (s.atC t).core p = s.core p := (rfl)
@[simp] theorem State.core_atB (t p : Nat) : (s.atB t).core p = s.core p := (rfl)

/-! ### Dictionary values -/

@[simp] theorem State.objAt_atB (t k : Nat) : (s.atB t).objAt k = s.objAt k := (rfl)
@[simp] theorem State.objAt_atC (t k : Nat) : (s.atC t).objAt k = s.objAt k := (rfl)
@[simp] theorem State.obj_atB (t i j : Nat) : (s.atB t).obj i j = s.obj i j := (rfl)
@[simp] theorem State.obj_atC (t i j : Nat) : (s.atC t).obj i j = s.obj i j := (rfl)
/-- An object set holds the value set. -/
@[simp] theorem State.objAt_setObjAt_same (k v : Nat) : (s.setObjAt k v).objAt k = v := by simp [State.objAt, State.setObjAt]
/-- Every other object keeps its value. -/
theorem State.objAt_setObjAt_ne {k j : Nat} (v : Nat) (h : j ≠ k) : (s.setObjAt k v).objAt j = s.objAt j := by
  simp [State.objAt, State.setObjAt, Table.get_set_ne h]

/-! ### A step takes the front command -/

@[simp] theorem Errors.put_frozen (e : Errors) (r : ErrRec) : (e.put r).frozen = e.frozen := by
  unfold Errors.put; split <;> (try split) <;> (try split) <;> rfl

end Sys2Proof.Machine
end

