-- ==== Sys2Proof/Laws/Pending.lean ====
section
/-!
SUPPORT. One lemma per shared operation: what the operations leave of the queue of waiting commands: all of it, since no effect of a command touches the queue.
-/
set_option linter.unusedSimpArgs false
set_option linter.unusedVariables false
namespace Sys2Proof.Machine

/-- The state that a fetch of a transfer's source leaves. -/
def Fetched.state : Fetched → State
  | .ok s | .blocked s _ | .wait s => s

@[simp] theorem ite_pending (c : Prop) [Decidable c] (a b : State) :
    (if c then a else b).pending = if c then a.pending else b.pending := by split <;> rfl
@[simp] theorem ite_fst_pending {α : Type} (c : Prop) [Decidable c] (a b : State × α) :
    (if c then a else b).1.pending = if c then a.1.pending else b.1.pending := by split <;> rfl
@[simp] theorem foldl_pending {α : Type} (g : State → α → State) (h : ∀ s a, (g s a).pending = s.pending) (l : List α) (s : State) :
    (l.foldl g s).pending = s.pending := by
  induction l generalizing s with
  | nil => rfl
  | cons a l ih => simp [ih, h]
@[simp] theorem foldl_fst_pending {α β : Type} (g : State × β → α → State × β) (h : ∀ s a, (g s a).1.pending = s.1.pending) (l : List α) (s : State × β) : (l.foldl g s).1.pending = s.1.pending := by
  induction l generalizing s with
  | nil => rfl
  | cons a l ih => simp [ih, h]
@[simp] theorem andThen_pending {α β : Type} (r : State × Moved α) (g : State → α → State × Moved β) (h : ∀ s a, (g s a).1.pending = s.pending) :
    (andThen r g).1.pending = r.1.pending := by
  unfold andThen; split <;> simp [h]
@[simp] theorem State.emitAll_pending (s : State) (l : List Output) : (State.emitAll s l).pending = s.pending := by
  simp [State.emitAll]
@[simp] theorem State.setObj_pending (s : State) (idx sub v : Nat) : (State.setObj s idx sub v).pending = s.pending := by
  simp [State.setObj]
@[simp] theorem State.msix_pending (s : State) (vec : Nat) : (State.msix s vec).pending = s.pending := by
  simp [State.msix]
@[simp] theorem State.sendPending_pending (s : State) : (State.sendPending s).pending = s.pending := by
  simp [State.sendPending]
@[simp] theorem State.signalErr_pending (s : State) : (State.signalErr s).pending = s.pending := by
  unfold State.signalErr
  dsimp only
  repeat' (first | (simp; done) | split)
@[simp] theorem State.sendEvent_pending (s : State) (r : ErrRec) : (State.sendEvent s r).pending = s.pending := by
  simp [State.sendEvent]
@[simp] theorem State.postNew_pending (s : State) (a : ErrArgs) : (State.postNew s a).pending = s.pending := by
  simp [State.postNew]
@[simp] theorem State.postErr_pending (s : State) (a : ErrArgs) : (State.postErr s a).pending = s.pending := by
  unfold State.postErr
  dsimp only
  repeat' (first | (simp; done) | split)
@[simp] theorem State.clearSecrets_pending (s : State) : (State.clearSecrets s).pending = s.pending := by
  simp [State.clearSecrets]
@[simp] theorem State.fatalTrigger_pending (s : State) (cause : Nat) (uk : UKind) (unit i6 i7 : Nat) :
    (State.fatalTrigger s cause uk unit i6 i7).pending = s.pending := by
  simp [State.fatalTrigger]
@[simp] theorem State.setPstate_pending (s : State) (c : Nat) (p : PState) : (State.setPstate s c p).pending = s.pending := by
  simp [State.setPstate]
@[simp] theorem State.repairRec_pending (s : State) (sev : Sev) (cause c : Nat) : (State.repairRec s sev cause c).pending = s.pending := by
  simp [State.repairRec]
@[simp] theorem State.keepClear_pending (s : State) (c : Nat) : (State.keepClear s c).pending = s.pending := by
  simp [State.keepClear]
@[simp] theorem State.startBench_pending (s : State) (c : Nat) (sub : Option Nat) : (State.startBench s c sub).pending = s.pending := by
  simp [State.startBench]
@[simp] theorem State.requestBench_pending (s : State) (c : Nat) (sub : Option Nat) : (State.requestBench s c sub).1.pending = s.pending := by
  simp [State.requestBench]
@[simp] theorem State.followUp_pending (s : State) (cause : Cause) (core dpa : Nat) : (State.followUp s cause core dpa).pending = s.pending := by
  unfold State.followUp
  dsimp only
  repeat' (first | (simp; done) | split)
@[simp] theorem State.withdraw_pending (s : State) (c : Cmd) : (State.withdraw s c).pending = s.pending := by
  simp [State.withdraw]
@[simp] theorem State.markHeld_pending (s : State) (q : Nat) : (State.markHeld s q).pending = s.pending := by
  simp [State.markHeld]
@[simp] theorem State.haltQueue_pending (s : State) (c : Cmd) (haltedPos : List Nat) : (State.haltQueue s c haltedPos).pending = s.pending := by
  unfold State.haltQueue
  refine (State.markHeld_pending ..).trans ((foldl_pending _ ?_ _ _).trans ?_)
  · intro a b
    rw [ite_pending, State.withdraw_pending, ite_self]
  · exact (State.modFix_pending ..).trans (State.modCfe_pending ..)
@[simp] theorem State.captureCard_pending (s : State) (a : FaultArgs) (c : Cmd) (rseq : Nat) :
    (State.captureCard s a c rseq).1.pending = s.pending := by
  unfold State.captureCard
  dsimp only
  repeat' (first | (simp; done) | split)
@[simp] theorem State.addCause_pending (s : State) (a : FaultArgs) (c : Cmd) (k : Nat) : (State.addCause s a c k).pending = s.pending := by
  unfold State.addCause
  dsimp only
  repeat' (first | (simp; done) | split)
@[simp] theorem State.faultCommand_pending (s : State) (a : FaultArgs) : (State.faultCommand s a).pending = s.pending := by
  unfold State.faultCommand
  dsimp only
  repeat' (first | (simp; done) | split)
@[simp] theorem State.recordReason_pending (s : State) (ref code : Nat) : (State.recordReason s ref code).pending = s.pending := by
  simp [State.recordReason]
@[simp] theorem State.coreFault_pending (s : State) (p : Nat) (cause : Cause) (eng : Engine) (instr : Nat) (detail : List Nat) (passidx : Nat) (dva :
    Nat) (dpa : Nat) : (State.coreFault s p cause eng instr detail passidx dva dpa).pending = s.pending := by
  simp [State.coreFault]
@[simp] theorem State.bgWrite_pending (s : State) (p off : Nat) (bs : List Byte) : (State.bgWrite s p off bs).pending = s.pending := by
  simp [State.bgWrite]
@[simp] theorem State.noteEcc_pending (s : State) (p : Nat) (e : Ecc) : (State.noteEcc s p e).pending = s.pending := by
  simp [State.noteEcc]
@[simp] theorem State.loseAccess_pending (s : State) (p t : Nat) (x y : Access) : (State.loseAccess s p t x y).pending = s.pending := by
  simp [State.loseAccess]
@[simp] theorem State.modStack_pending (s : State) (k : Nat) (f : Stack → Stack) : (State.modStack s k f).pending = s.pending := by
  simp [State.modStack]
@[simp] theorem State.modSlm_pending (s : State) (k : Nat) (f : Slm → Slm) : (State.modSlm s k f).pending = s.pending := by
  simp [State.modSlm]
@[simp] theorem State.addBad_pending (s : State) (st dpa : Nat) : (State.addBad s st dpa).pending = s.pending := by
  simp [State.addBad]
@[simp] theorem State.beginMapout_pending (s : State) (st ch : Nat) : (State.beginMapout s st ch).pending = s.pending := by
  simp [State.beginMapout]
@[simp] theorem State.refuseMapout_pending (s : State) (st ch : Nat) : (State.refuseMapout s st ch).pending = s.pending := by
  simp [State.refuseMapout]
@[simp] theorem State.startMapout_pending (s : State) (st ch : Nat) : (State.startMapout s st ch).pending = s.pending := by
  simp [State.startMapout]
@[simp] theorem State.waitMapout_pending (s : State) (st ch : Nat) : (State.waitMapout s st ch).pending = s.pending := by
  simp [State.waitMapout]
@[simp] theorem State.autoMapout_pending (s : State) (st ch : Nat) : (State.autoMapout s st ch).pending = s.pending := by
  simp [State.autoMapout]
@[simp] theorem State.hbmCorrected_pending (s : State) (st l dpa : Nat) : (State.hbmCorrected s st l dpa).pending = s.pending := by
  simp [State.hbmCorrected]
@[simp] theorem State.hbmUncorrectable_pending (s : State) (st l dpa : Nat) : (State.hbmUncorrectable s st l dpa).pending = s.pending := by
  simp [State.hbmUncorrectable]
@[simp] theorem State.noteRead_pending (s : State) (dpa : Nat) (e : Ecc) : (State.noteRead s dpa e).pending = s.pending := by
  unfold State.noteRead
  repeat' (first | (simp; done) | split)
@[simp] theorem State.cacheRead_pending (s : State) (dpa cls : Nat) : (State.cacheRead s dpa cls).pending = s.pending := by
  unfold State.cacheRead
  dsimp only
  repeat' (first | (simp; done) | split)
@[simp] theorem State.foundAt_pending (s : State) (dpa : Nat) (e : Ecc) : (State.foundAt s dpa e).1.pending = s.pending := by
  unfold State.foundAt
  dsimp only
  repeat' (first | (simp; done) | split)
@[simp] theorem State.cacheWrite_pending (s : State) (dpa : Nat) (atomic : Bool) : (State.cacheWrite s dpa atomic).pending = s.pending := by
  unfold State.cacheWrite
  dsimp only
  repeat' (first | (simp; done) | split)
@[simp] theorem State.cacheInstall_pending (s : State) (k blk : Nat) : (State.cacheInstall s k blk).pending = s.pending := by
  simp [State.cacheInstall]
@[simp] theorem State.writeDram_pending (s : State) (dpa : Nat) (bs : List Byte) : (State.writeDram s dpa bs).pending = s.pending := by
  unfold State.writeDram
  dsimp only
  repeat' (first | (simp; done) | split)
@[simp] theorem State.writeDpa_pending (s : State) (dpa : Nat) (bs : List Byte) : (State.writeDpa s dpa bs).pending = s.pending := by
  unfold State.writeDpa
  repeat' (first | (simp; done) | split | (refine (foldl_pending _ ?_ _ _).trans ?_) | (intro _ _))
@[simp] theorem State.modXl_pending (s : State) (f : Xlate → Xlate) : (State.modXl s f).pending = s.pending := by
  simp [State.modXl]
@[simp] theorem State.pageWalk_pending (s : State) (d : Nat) (xus : List Nat) (stale : Bool) (dva : Nat) (ue : Option Nat) :
    (State.pageWalk s d xus stale dva ue).1.pending = s.pending := by
  unfold State.pageWalk
  dsimp only
  repeat' (first | (simp; done) | split)
@[simp] theorem State.xlFault_pending (s : State) : (State.xlFault s).pending = s.pending := by
  simp [State.xlFault]
@[simp] theorem State.tlbFind_pending (s : State) (xu dva : Nat) : (State.tlbFind s xu dva).1.pending = s.pending := by
  unfold State.tlbFind
  repeat' (first | (simp; done) | split)
@[simp] theorem State.translate_pending (s : State) (xu dva : Nat) (wr : Bool) (ue : Option Nat) :
    (State.translate s xu dva wr ue).1.pending = s.pending := by
  unfold State.translate
  dsimp only
  repeat' (first | (simp; done) | split | (refine (foldl_pending _ ?_ _ _).trans ?_) | (refine (foldl_fst_pending _ ?_ _ _).trans ?_) | (intro _ _)
                 | (simp only [Prod.ext_iff] at *; (repeat (cases ‹_ ∧ _›)); subst_vars; simp; done))
@[simp] theorem State.noteMiss_pending (s : State) (id xu dva cls : Nat) : (State.noteMiss s id xu dva cls).pending = s.pending := by
  simp [State.noteMiss]
@[simp] theorem State.endMiss_pending (s : State) (m : Miss) : (State.endMiss s m).pending = s.pending := by
  simp [State.endMiss]
@[simp] theorem State.applyInvalidations_pending (s : State) : (State.applyInvalidations s).pending = s.pending := by
  simp [State.applyInvalidations]
@[simp] theorem State.setRoot_pending (s : State) (root : Nat) : (State.setRoot s root).pending = s.pending := by
  simp [State.setRoot]
@[simp] theorem State.modPort_pending (s : State) (n : Nat) (f : Port → Port) : (State.modPort s n f).pending = s.pending := by
  simp [State.modPort]
@[simp] theorem State.txNow_pending (s : State) (n : Nat) (k : Packet) : (State.txNow s n k).pending = s.pending := by
  simp [State.txNow]
@[simp] theorem State.txOn_pending (s : State) (n : Nat) (k : Packet) : (State.txOn s n k).pending = s.pending := by
  simp [State.txOn]
@[simp] theorem State.flushPort_pending (s : State) (n : Nat) : (State.flushPort s n).pending = s.pending := by
  simp [State.flushPort]
@[simp] theorem State.send_pending (s : State) (k : Packet) : (State.send s k).pending = s.pending := by
  unfold State.send
  repeat' (first | (simp; done) | split)
@[simp] theorem State.sendRequest_pending (s : State) (a : PktArgs) (owner : ReqOwner) : (State.sendRequest s a owner).pending = s.pending := by
  unfold State.sendRequest
  split
  · exact State.modLinks_pending ..
  · exact (State.modLinks_pending ..).trans ((State.send_pending ..).trans (State.modLinks_pending ..))
@[simp] theorem State.flushBacklog_pending (s : State) (dst : Nat) : (State.flushBacklog s dst).pending = s.pending := by
  unfold State.flushBacklog
  dsimp only
  repeat' (first | (simp; done) | split)
@[simp] theorem State.dropReq_pending (s : State) (dst eseq : Nat) : (State.dropReq s dst eseq).pending = s.pending := by
  simp [State.dropReq]
@[simp] theorem State.eack_pending (s : State) (k : Packet) (case : Nat) : (State.eack s k case).pending = s.pending := by
  unfold State.eack
  exact State.send_pending ..
@[simp] theorem State.dropPkt_pending (s : State) (n : Nat) (nak : Bool) : (State.dropPkt s n nak).pending = s.pending := by
  simp [State.dropPkt]
@[simp] theorem State.seeEpoch_pending (s : State) (k : Packet) : (State.seeEpoch s k).pending = s.pending := by
  simp [State.seeEpoch]
@[simp] theorem State.answer_pending (s : State) (k : Packet) (case : Nat) : (State.answer s k case).pending = s.pending := by
  unfold State.answer
  refine (State.eack_pending ..).trans ?_
  split
  · exact State.modLinks_pending ..
  · rfl
@[simp] theorem State.storeHost_pending (s : State) (ref : Nat) (xfer : Option (Nat × Nat)) (ring : Option Nat) (addr : Nat) (bs : List Byte) :
    (State.storeHost s ref xfer ring addr bs).pending = s.pending := by
  simp [State.storeHost]
@[simp] theorem State.askBi_pending (s : State) (lines : List Nat) (wr : Bool) : (State.askBi s lines wr).pending = s.pending := by
  simp [State.askBi]
@[simp] theorem State.endBi_pending (s : State) (dpa len : Nat) : (State.endBi s dpa len).pending = s.pending := by
  simp [State.endBi]
@[simp] theorem State.modXfer_pending (s : State) (id : Nat) (f : Xfer → Xfer) : (State.modXfer s id f).pending = s.pending := by
  simp [State.modXfer]
@[simp] theorem State.placeAt_pending (s : State) (xu cls a n : Nat) (tgt : Tgt) (addr : Nat) :
    (State.placeAt s xu cls a n tgt addr).1.pending = s.pending := by
  unfold State.placeAt
  dsimp only
  repeat' (first | (simp; done) | split)
@[simp] theorem State.resolve_pending (s : State) (xu a n : Nat) (wr : Bool) (ue : Option Nat) :
    (State.resolve s xu a n wr ue).1.pending = s.pending := by
  unfold State.resolve
  repeat' (first | (simp; done) | split | (refine (foldl_pending _ ?_ _ _).trans ?_) | (refine (foldl_fst_pending _ ?_ _ _).trans ?_) | (intro _ _)
                 | (simp only [Prod.ext_iff] at *; (repeat (cases ‹_ ∧ _›)); subst_vars; simp; done))
@[simp] theorem State.pageOf_pending (s : State) (x : Xfer) (a : Nat) : (State.pageOf s x a).1.pending = s.pending := by
  unfold State.pageOf
  dsimp only
  repeat' (first | (simp; done) | split | (refine (foldl_pending _ ?_ _ _).trans ?_) | (refine (foldl_fst_pending _ ?_ _ _).trans ?_) | (intro _ _)
                 | (simp only [Prod.ext_iff] at *; (repeat (cases ‹_ ∧ _›)); subst_vars; simp; done))
@[simp] theorem State.placeX_pending (s : State) (x : Xfer) (l : Loc) (a n : Nat) (wr : Bool) :
    (State.placeX s x l a n wr).1.pending = s.pending := by
  unfold State.placeX
  repeat' (first | (simp; done) | split)
@[simp] theorem State.srcPlaces_pending (s : State) (x : Xfer) (r0 : List (Nat × Nat)) : (State.srcPlaces s x r0).1.pending = s.pending := by
  induction r0 generalizing s <;> (unfold State.srcPlaces; repeat' (first | (simp [*]; done) | split
                                                                          | (simp only [Prod.ext_iff] at *; (repeat (cases ‹_ ∧ _›)); subst_vars; simp [*]; done)))
@[simp] theorem State.cacheFill_pending (s : State) (p line : Nat) (bs : List Byte) : (State.cacheFill s p line bs).pending = s.pending := by
  simp [State.cacheFill]
@[simp] theorem State.cachedRead_pending (s : State) (p dva dpa n : Nat) : (State.cachedRead s p dva dpa n).1.pending = s.pending := by
  unfold State.cachedRead
  dsimp only
  repeat' (first | (simp; done) | split | (refine (foldl_fst_pending _ ?_ _ _).trans ?_) | (intro _ _))
@[simp] theorem State.fetchRun_pending (s : State) (x : Xfer) (a n : Nat) (pl : Place) : (State.fetchRun s x a n pl).1.pending = s.pending := by
  unfold State.fetchRun
  dsimp only
  repeat' (first | (simp; done) | split)
@[simp] theorem State.srcFinding_pending (s : State) (x : Xfer) (fnd : UnitFinding) (srcs : List SrcRun) :
    (State.srcFinding s x fnd srcs).1.pending = s.pending := by
  unfold State.srcFinding
  dsimp only
  repeat' (first | (simp; done) | split | (refine (foldl_pending _ ?_ _ _).trans ?_) | (refine (foldl_fst_pending _ ?_ _ _).trans ?_) | (intro _ _)
                 | (simp only [Prod.ext_iff] at *; (repeat (cases ‹_ ∧ _›)); subst_vars; simp; done))
@[simp] theorem State.dstPlaces_pending (s : State) (x : Xfer) (r0 : List (Nat × Nat)) : (State.dstPlaces s x r0).1.pending = s.pending := by
  induction r0 generalizing s <;> simp [State.dstPlaces, *]
@[simp] theorem State.cacheThrough_pending (s : State) (p dva : Nat) (bs : List Byte) : (State.cacheThrough s p dva bs).pending = s.pending := by
  unfold State.cacheThrough
  dsimp only
  repeat' (first | (simp; done) | split | (refine (foldl_pending _ ?_ _ _).trans ?_) | (intro _ _))
@[simp] theorem State.portArrive_pending (s : State) (x : Xfer) (port : Nat) (bs : List Byte) :
    (State.portArrive s x port bs).pending = s.pending := by
  simp [State.portArrive]
@[simp] theorem State.deliverRun_pending (s : State) (x : Xfer) (k : Nat) (last : Bool) (pl : Place) (a : Nat) (bs : List Byte) :
    (State.deliverRun s x k last pl a bs).pending = s.pending := by
  unfold State.deliverRun
  dsimp only
  repeat' (first | (simp; done) | split)
@[simp] theorem State.deliverRuns_pending (s : State) (x : Xfer) (k : Nat) (r0 : List (Place × Nat × List Byte)) :
    (State.deliverRuns s x k r0).pending = s.pending := by
  induction r0 generalizing s <;> simp [State.deliverRuns, *]
@[simp] theorem State.countArrival_pending (s : State) (tc core cnt : Nat) : (State.countArrival s tc core cnt).pending = s.pending := by
  simp [State.countArrival]
@[simp] theorem State.placesWait_pending (s : State) (wr : Bool) (l : List (Place × Nat × Nat)) :
    (State.placesWait s wr l).1.pending = s.pending := by
  unfold State.placesWait
  dsimp only
  repeat' (first | (simp; done) | split | (refine (foldl_fst_pending _ ?_ _ _).trans ?_) | (intro _ _))
@[simp] theorem State.oldBytes_pending (s : State) (l : List (Place × Nat × List Byte)) (ue : Nat → Bool) :
    (State.oldBytes s l ue).1.pending = s.pending := by
  unfold State.oldBytes
  repeat' (first | (simp; done) | split | (refine (foldl_pending _ ?_ _ _).trans ?_) | (refine (foldl_fst_pending _ ?_ _ _).trans ?_) | (intro _ _)
                 | (simp only [Prod.ext_iff] at *; (repeat (cases ‹_ ∧ _›)); subst_vars; simp; done))
@[simp] theorem State.failXfer_pending (s : State) (x : Xfer) (f : XferFault) : (State.failXfer s x f).pending = s.pending := by
  simp [State.failXfer]
@[simp] theorem State.unitAcked_pending (s : State) (tc : Nat) (x : Xfer) (k : Nat) (own : Bool) :
    (State.unitAcked s tc x k own).pending = s.pending := by
  simp [State.unitAcked]
@[simp] theorem State.takePages_pending (s : State) (x : Xfer) (r0 : List Nat) : (State.takePages s x r0).pending = s.pending := by
  induction r0 generalizing s <;> (unfold State.takePages; repeat' (first | (simp [*]; done) | split
                                                                          | (simp only [Prod.ext_iff] at *; (repeat (cases ‹_ ∧ _›)); subst_vars; simp [*]; done)))
@[simp] theorem State.nextUnit_pending (s : State) (x : Xfer) (k : Nat) : (State.nextUnit s x k).pending = s.pending := by
  simp [State.nextUnit]
@[simp] theorem State.landUnit_pending (s : State) (tc : Nat) (x : Xfer) (k : Nat) (runs : List (Place × Nat × List Byte)) :
    (State.landUnit s tc x k runs).pending = s.pending := by
  unfold State.landUnit
  dsimp only
  repeat' (first | (simp; done) | split)
@[simp] theorem State.startXfer_pending (s : State) (x : Xfer) : (State.startXfer s x).pending = s.pending := by
  simp [State.startXfer]
@[simp] theorem State.walkReaches_pending (s : State) (m : Miss) (r : WalkOut) (w : Nat × Nat × Nat) :
    (State.walkReaches s m r w).pending = s.pending := by
  unfold State.walkReaches
  repeat' (first | (simp; done) | split)
@[simp] theorem State.deliverSpm_pending (s : State) (tc core off : Nat) (cnt : Option Nat) (bs : List Byte) :
    (State.deliverSpm s tc core off cnt bs).pending = s.pending := by
  unfold State.deliverSpm
  dsimp only
  repeat' (first | (simp; done) | split)
@[simp] theorem State.dropPort_pending (s : State) (x : Nat) : (State.dropPort s x).pending = s.pending := by
  simp [State.dropPort]
@[simp] theorem State.failPort_pending (s : State) (r : PortReq) (c : Cause) (dpa : Nat) (detail : List Nat) :
    (State.failPort s r c dpa detail).pending = s.pending := by
  simp [State.failPort]
@[simp] theorem State.checkAtomic_pending (s : State) (x : Nat) : (State.checkAtomic s x).pending = s.pending := by
  unfold State.checkAtomic
  dsimp only
  repeat' (first | (simp; done) | split)
@[simp] theorem State.opFault_pending (s : State) (p : Nat) (e : MatEngine) (o : MatOp) (cause : Cause) :
    (State.opFault s p e o cause).pending = s.pending := by
  simp [State.opFault]
@[simp] theorem State.replayOrFault_pending (s : State) (t p : Nat) (e : MatEngine) (o : MatOp) :
    (State.replayOrFault s t p e o).pending = s.pending := by
  unfold State.replayOrFault
  dsimp only
  repeat' (first | (simp; done) | split)
@[simp] theorem State.completeOp_pending (s : State) (t p : Nat) (e : MatEngine) (o : MatOp) : (State.completeOp s t p e o).pending = s.pending := by
  simp [State.completeOp]
@[simp] theorem State.taskEnded_pending (s : State) (p : Nat) : (State.taskEnded s p).pending = s.pending := by
  simp [State.taskEnded]
@[simp] theorem State.takeRecord_pending (s : State) (t p : Nat) (k : TaskRec) : (State.takeRecord s t p k).pending = s.pending := by
  unfold State.takeRecord
  dsimp only
  repeat' (first | (simp; done) | split)
@[simp] theorem State.modEmbUnit_pending (s : State) (st : Nat) (f : EmbUnit → EmbUnit) : (State.modEmbUnit s st f).pending = s.pending := by
  simp [State.modEmbUnit]
@[simp] theorem State.embPlace_pending (s : State) (st dva n : Nat) (wr : Bool) (ue : Option Nat) :
    (State.embPlace s st dva n wr ue).1.pending = s.pending := by
  unfold State.embPlace
  repeat' (first | (simp; done) | split | (refine (foldl_pending _ ?_ _ _).trans ?_) | (refine (foldl_fst_pending _ ?_ _ _).trans ?_) | (intro _ _)
                 | (simp only [Prod.ext_iff] at *; (repeat (cases ‹_ ∧ _›)); subst_vars; simp; done))
@[simp] theorem State.readHome_pending (s : State) (st d par stripe : Nat) (ue : Option Nat) :
    (State.readHome s st d par stripe ue).1.pending = s.pending := by
  unfold State.readHome
  repeat' (first | (simp; done) | split | (refine (foldl_pending _ ?_ _ _).trans ?_) | (refine (foldl_fst_pending _ ?_ _ _).trans ?_) | (intro _ _)
                 | (simp only [Prod.ext_iff] at *; (repeat (cases ‹_ ∧ _›)); subst_vars; simp; done))
@[simp] theorem State.homeEntry_pending (s : State) (st table d gen stripe : Nat) (ue : Option Nat) :
    (State.homeEntry s st table d gen stripe ue).1.pending = s.pending := by
  unfold State.homeEntry
  dsimp only
  repeat' (first | (simp; done) | split | (refine (foldl_pending _ ?_ _ _).trans ?_) | (refine (foldl_fst_pending _ ?_ _ _).trans ?_) | (intro _ _)
                 | (simp only [Prod.ext_iff] at *; (repeat (cases ‹_ ∧ _›)); subst_vars; simp; done))
@[simp] theorem State.stripeHome_pending (s : State) (st table d gen stripe : Nat) (ue : Option Nat) :
    (State.stripeHome s st table d gen stripe ue).1.pending = s.pending := by
  simp [State.stripeHome]
@[simp] theorem State.failEmb_pending (s : State) (st ref : Nat) (f : XferFault) : (State.failEmb s st ref f).pending = s.pending := by
  simp [State.failEmb]
@[simp] theorem State.markLate_pending (s : State) (ref code : Nat) : (State.markLate s ref code).pending = s.pending := by
  simp [State.markLate]
@[simp] theorem State.embCtl_pending (s : State) (o : ReqOwner) (dst table st tag ref step gen round : Nat) (m : CtlMsg) :
    (State.embCtl s o dst table st tag ref step gen round m).pending = s.pending := by
  simp [State.embCtl]
@[simp] theorem State.tellEntry_pending (s : State) (f : Feed) (table step gen round : Nat) (m : CtlMsg) :
    (State.tellEntry s f table step gen round m).pending = s.pending := by
  simp [State.tellEntry]
@[simp] theorem State.loseStripe_pending (s : State) (key : Nat) : (State.loseStripe s key).pending = s.pending := by
  simp [State.loseStripe]
@[simp] theorem State.sendMigBlock_pending (s : State) (dst key st frame blk : Nat) :
    (State.sendMigBlock s dst key st frame blk).pending = s.pending := by
  simp [State.sendMigBlock]
@[simp] theorem State.writeCopy_pending (s : State) (key st frame off : Nat) (bs : List Byte) :
    (State.writeCopy s key st frame off bs).pending = s.pending := by
  simp [State.writeCopy]
@[simp] theorem State.ackHome_pending (s : State) (tag home n : Nat) : (State.ackHome s tag home n).pending = s.pending := by
  unfold State.ackHome
  dsimp only
  repeat' (first | (simp; done) | split)
@[simp] theorem State.noteCombined_pending (s : State) (tag home n step : Nat) (waited : Bool) :
    (State.noteCombined s tag home n step waited).pending = s.pending := by
  unfold State.noteCombined
  dsimp only
  repeat' (first | (simp; done) | split)
@[simp] theorem State.failFeed_pending (s : State) (f : Feed) (home key : Nat) (x : XferFault) :
    (State.failFeed s f home key x).pending = s.pending := by
  simp [State.failFeed]
@[simp] theorem State.deferPartial_pending (s : State) (home : Nat) (p : Partial) : (State.deferPartial s home p).pending = s.pending := by
  simp [State.deferPartial]
@[simp] theorem State.loseEntry_pending (s : State) (home key : Nat) (next : Bool) : (State.loseEntry s home key next).pending = s.pending := by
  simp [State.loseEntry]
@[simp] theorem State.addSats_pending (s : State) (t n : Nat) : (State.addSats s t n).pending = s.pending := by
  simp [State.addSats]
@[simp] theorem State.applyHome_pending (s : State) (st t d stripe : Nat) : (State.applyHome s st t d stripe).1.pending = s.pending := by
  unfold State.applyHome
  repeat' (first | (simp; done) | split)
@[simp] theorem State.routeRow_pending (s : State) (repl : Bool) (st table d gen : Nat) (ue : Option Nat) (row : Nat) :
    (State.routeRow s repl st table d gen ue row).1.pending = s.pending := by
  unfold State.routeRow
  repeat' (first | (simp; done) | split | (refine (foldl_pending _ ?_ _ _).trans ?_) | (refine (foldl_fst_pending _ ?_ _ _).trans ?_) | (intro _ _)
                 | (simp only [Prod.ext_iff] at *; (repeat (cases ‹_ ∧ _›)); subst_vars; simp; done))
@[simp] theorem State.addShares_pending (s : State) (l : List Share) : (State.addShares s l).pending = s.pending := by
  simp [State.addShares]
@[simp] theorem State.sendParts_pending (s : State) (h : Share) : (State.sendParts s h).pending = s.pending := by
  simp [State.sendParts]
@[simp] theorem State.noteServed_pending (s : State) (table d home row n : Nat) (maxRun : Nat) :
    (State.noteServed s table d home row n maxRun).pending = s.pending := by
  simp [State.noteServed]
@[simp] theorem State.cacheRow_pending (s : State) (home key b : Nat) : (State.cacheRow s home key b).pending = s.pending := by
  simp [State.cacheRow]
@[simp] theorem State.failEmbPort_pending (s : State) (r : PortReq) (st : Nat) (f : XferFault) :
    (State.failEmbPort s r st f).pending = s.pending := by
  simp [State.failEmbPort]
@[simp] theorem State.sendIndexes_pending (s : State) (l : Look) (m : Nat) (entries : List (Nat × Nat)) :
    (State.sendIndexes s l m entries).pending = s.pending := by
  unfold State.sendIndexes
  refine (State.embCtl_pending ..).trans (foldl_pending _ ?_ _ _)
  intro a b
  exact State.sendRequest_pending ..
@[simp] theorem State.rowFound_pending (s : State) (h : Share) (hst key dpa : Nat) (fnd : RowFinding) :
    (State.rowFound s h hst key dpa fnd).1.pending = s.pending := by
  unfold State.rowFound
  dsimp only
  repeat' (first | (simp; done) | split)
@[simp] theorem State.sendUpdate_pending (s : State) (m table st tag ref step gen row : Nat) (vals : List Int) :
    (State.sendUpdate s m table st tag ref step gen row vals).pending = s.pending := by
  simp [State.sendUpdate]
@[simp] theorem State.placeRepair_pending (s : State) (k : RepairKind) (touch : List Nat) : (State.placeRepair s k touch).pending = s.pending := by
  simp [State.placeRepair]
@[simp] theorem State.slowed_pending (s : State) (use : Placement → Nat) (room : Nat) : (State.slowed s use room).pending = s.pending := by
  simp [State.slowed]
@[simp] theorem State.slowedPort_pending (s : State) (n charged : Nat) : (State.slowedPort s n charged).pending = s.pending := by
  simp [State.slowedPort]
@[simp] theorem State.setLook_pending (s : State) (l : Look) : (State.setLook s l).pending = s.pending := by
  simp [State.setLook]
@[simp] theorem State.endRelay_pending (s : State) (r : Relay) : (State.endRelay s r).pending = s.pending := by
  simp [State.endRelay]
@[simp] theorem State.relayPartial_pending (s : State) (m home step : Nat) (p : Partial) :
    (State.relayPartial s m home step p).pending = s.pending := by
  simp [State.relayPartial]
@[simp] theorem State.setMig_pending (s : State) (m : Mig) : (State.setMig s m).pending = s.pending := by
  simp [State.setMig]
@[simp] theorem State.endMig_pending (s : State) (key : Nat) (st : MigSt) : (State.endMig s key st).pending = s.pending := by
  simp [State.endMig]
@[simp] theorem State.placeMig_pending (s : State) (m : Mig) : (State.placeMig s m).pending = s.pending := by
  unfold State.placeMig
  dsimp only
  repeat' (first | (simp; done) | split)
@[simp] theorem State.migAcked_pending (s : State) (key : Nat) : (State.migAcked s key).pending = s.pending := by
  unfold State.migAcked
  repeat' (first | (simp; done) | split)
@[simp] theorem State.loseBad_pending (s : State) (st : Nat) : (State.loseBad s st).pending = s.pending := by
  simp [State.loseBad]
@[simp] theorem State.embWrite_pending (s : State) (st dva : Nat) (bs : List Byte) : (State.embWrite s st dva bs).pending = s.pending := by
  unfold State.embWrite
  repeat' (first | (simp; done) | split | (refine (foldl_pending _ ?_ _ _).trans ?_) | (refine (foldl_fst_pending _ ?_ _ _).trans ?_) | (intro _ _)
                 | (simp only [Prod.ext_iff] at *; (repeat (cases ‹_ ∧ _›)); subst_vars; simp; done))
@[simp] theorem State.writeHome_pending (s : State) (st d par stripe e : Nat) : (State.writeHome s st d par stripe e).pending = s.pending := by
  simp [State.writeHome]
@[simp] theorem State.dropHmap_pending (s : State) (p : Nat → Bool) : (State.dropHmap s p).pending = s.pending := by
  simp [State.dropHmap]
@[simp] theorem State.moveEntries_pending (s : State) (d key a b : Nat) : (State.moveEntries s d key a b).pending = s.pending := by
  simp [State.moveEntries]
@[simp] theorem State.switchMig_pending (s : State) (m : Mig) : (State.switchMig s m).pending = s.pending := by
  simp [State.switchMig]
@[simp] theorem State.migEdge_pending (s : State) : (State.migEdge s).pending = s.pending := by
  unfold State.migEdge
  repeat' (first | (simp; done) | split | (refine (foldl_pending _ ?_ _ _).trans ?_) | (intro _ _))
@[simp] theorem State.setTbldesc_pending (s : State) (t v : Nat) : (State.setTbldesc s t v).pending = s.pending := by
  simp [State.setTbldesc]
@[simp] theorem State.armHmap_pending (s : State) (t v : Nat) : (State.armHmap s t v).pending = s.pending := by
  simp [State.armHmap]
@[simp] theorem State.applyMigrelease_pending (s : State) (v : Nat) : (State.applyMigrelease s v).pending = s.pending := by
  simp [State.applyMigrelease]
@[simp] theorem State.handOver_pending (s : State) (m : Mig) : (State.handOver s m).pending = s.pending := by
  simp [State.handOver]
@[simp] theorem State.switchGen_pending (s : State) (t : Nat) : (State.switchGen s t).pending = s.pending := by
  unfold State.switchGen
  dsimp only
  repeat' (first | (simp; done) | split | (refine (foldl_pending _ ?_ _ _).trans ?_) | (intro _ _))
@[simp] theorem State.switchGens_pending (s : State) : (State.switchGens s).pending = s.pending := by
  simp [State.switchGens]
@[simp] theorem State.writeTableHeat_pending (s : State) (t st : Nat) : (State.writeTableHeat s t st).pending = s.pending := by
  unfold State.writeTableHeat
  dsimp only
  repeat' (first | (simp; done) | split | (refine (foldl_pending _ ?_ _ _).trans ?_) | (intro _ _))
@[simp] theorem State.eachEmb_pending (s : State) (f : State → Nat → State) (h_f : ∀ z y0, (f z y0).pending = z.pending) :
    (State.eachEmb s f).pending = s.pending := by
  simp [State.eachEmb, *]
@[simp] theorem State.heatEdge_pending (s : State) : (State.heatEdge s).pending = s.pending := by
  simp [State.heatEdge]
@[simp] theorem State.replEdge_pending (s : State) : (State.replEdge s).pending = s.pending := by
  simp [State.replEdge]
@[simp] theorem State.modRally_pending (s : State) (e : Nat) (f : Rally → Rally) : (State.modRally s e f).pending = s.pending := by
  simp [State.modRally]
@[simp] theorem State.endRally_pending (s : State) (e : Nat) : (State.endRally s e).pending = s.pending := by
  simp [State.endRally]
@[simp] theorem State.sendTile_pending (s : State) (e : Nat) : (State.sendTile s e).pending = s.pending := by
  simp [State.sendTile]
@[simp] theorem State.sendVerdict_pending (s : State) (e verdict : Nat) (anchor : Int) (sums : Bool) :
    (State.sendVerdict s e verdict anchor sums).pending = s.pending := by
  unfold State.sendVerdict
  refine foldl_pending _ ?_ _ _
  intro a b
  dsimp only
  split
  · refine foldl_pending _ ?_ _ _
    intro x i
    exact State.sendRequest_pending ..
  · exact State.sendRequest_pending ..
@[simp] theorem State.failRally_pending (s : State) (e : Nat) (c : Cause) : (State.failRally s e c).pending = s.pending := by
  unfold State.failRally
  dsimp only
  repeat' (first | (simp; done) | split)
@[simp] theorem State.addTile_pending (s : State) (e : Nat) (l : List (Nat × Int)) : (State.addTile s e l).pending = s.pending := by
  simp [State.addTile]
@[simp] theorem State.replayRally_pending (s : State) (t e : Nat) (anchor : Int) : (State.replayRally s t e anchor).pending = s.pending := by
  unfold State.replayRally
  dsimp only
  repeat' (first | (simp; done) | split)
@[simp] theorem State.judgeRoot_pending (s : State) (t e : Nat) : (State.judgeRoot s t e).pending = s.pending := by
  unfold State.judgeRoot
  dsimp only
  repeat' (first | (simp; done) | split)
@[simp] theorem State.rallyCheck_pending (s : State) (t e : Nat) : (State.rallyCheck s t e).pending = s.pending := by
  simp [State.rallyCheck]
@[simp] theorem State.rallyOwn_pending (s : State) (t e : Nat) (o : MatOp) : (State.rallyOwn s t e o).pending = s.pending := by
  simp [State.rallyOwn]
@[simp] theorem State.rallyRefused_pending (s : State) (k : Packet) (case : Nat) : (State.rallyRefused s k case).1.pending = s.pending := by
  simp [State.rallyRefused]
@[simp] theorem State.forwardVerdict_pending (s : State) (e : Nat) (k : Packet) : (State.forwardVerdict s e k).pending = s.pending := by
  simp [State.forwardVerdict]
@[simp] theorem State.judgeWindow_pending (s : State) (n : Nat) (k : Packet) (len : Nat) (wr : Bool) (ue : Option Nat) :
    (State.judgeWindow s n k len wr ue).1.pending = s.pending := by
  unfold State.judgeWindow
  dsimp only
  repeat' (first | (simp; done) | split | (refine (foldl_pending _ ?_ _ _).trans ?_) | (refine (foldl_fst_pending _ ?_ _ _).trans ?_) | (intro _ _)
                 | (simp only [Prod.ext_iff] at *; (repeat (cases ‹_ ∧ _›)); subst_vars; simp; done))
@[simp] theorem State.windowRefused_pending (s : State) (k : Packet) (case : Nat) : (State.windowRefused s k case).pending = s.pending := by
  simp [State.windowRefused]
@[simp] theorem State.windowRead_pending (s : State) (cls : Nat) (e : Ecc) (runs : List (Place × Nat × Nat)) :
    (State.windowRead s cls e runs).1.pending = s.pending := by
  unfold State.windowRead
  dsimp only
  repeat' (first | (simp; done) | split | (refine (foldl_fst_pending _ ?_ _ _).trans ?_) | (intro _ _))
@[simp] theorem State.noteRetry_pending (s : State) (r : E2e) : (State.noteRetry s r).pending = s.pending := by
  unfold State.noteRetry
  repeat' (first | (simp; done) | split)
@[simp] theorem State.resend_pending (s : State) (r : E2e) (f : E2e → E2e) : (State.resend s r f).pending = s.pending := by
  unfold State.resend
  dsimp only
  repeat' (first | (simp; done) | split)
@[simp] theorem State.linkErr_pending (s : State) (n cause : Nat) (sev : Sev) (l : Option Nat) :
    (State.linkErr s n cause sev l).pending = s.pending := by
  simp [State.linkErr]
@[simp] theorem State.portDown_pending (s : State) (n : Nat) : (State.portDown s n).pending = s.pending := by
  simp [State.portDown]
@[simp] theorem State.settlePort_pending (s : State) (n : Nat) : (State.settlePort s n).pending = s.pending := by
  simp [State.settlePort]
@[simp] theorem State.linkEdge_pending (s : State) : (State.linkEdge s).pending = s.pending := by
  simp [State.linkEdge]
@[simp] theorem State.sendControl_pending (s : State) (n : Nat) : (State.sendControl s n).pending = s.pending := by
  simp [State.sendControl]
@[simp] theorem State.resendHeld_pending (s : State) (n : Nat) : (State.resendHeld s n).pending = s.pending := by
  simp [State.resendHeld]
@[simp] theorem State.retry_pending (s : State) (n : Nat) : (State.retry s n).pending = s.pending := by
  simp [State.retry]
@[simp] theorem State.ackHeld_pending (s : State) (n ack : Nat) : (State.ackHeld s n ack).pending = s.pending := by
  simp [State.ackHeld]
@[simp] theorem State.beginReplace_pending (s : State) (n l pos : Nat) (reactive : Bool) :
    (State.beginReplace s n l pos reactive).pending = s.pending := by
  unfold State.beginReplace
  repeat' (first | (simp; done) | split)
@[simp] theorem State.takeTrigger_pending (s : State) (n : Nat) (k : Trigger) : (State.takeTrigger s n k).pending = s.pending := by
  unfold State.takeTrigger
  dsimp only
  repeat' (first | (simp; done) | split)
@[simp] theorem State.nextTrigger_pending (s : State) (n : Nat) : (State.nextTrigger s n).pending = s.pending := by
  simp [State.nextTrigger]
@[simp] theorem State.applyRetrain_pending (s : State) (n l v : Nat) : (State.applyRetrain s n l v).pending = s.pending := by
  simp [State.applyRetrain]
@[simp] theorem State.applyPin_pending (s : State) (n l : Nat) : (State.applyPin s n l).pending = s.pending := by
  simp [State.applyPin]
@[simp] theorem State.applyModid_pending (s : State) (v : Nat) : (State.applyModid s v).pending = s.pending := by
  simp [State.applyModid]
@[simp] theorem State.charge_pending (s : State) (ref : Nat) (l : List Placement) : (State.charge s ref l).pending = s.pending := by
  simp [State.charge]
@[simp] theorem State.setCad_pending (s : State) (c : CadState) : (State.setCad s c).pending = s.pending := by
  unfold State.setCad
  dsimp only
  repeat' (first | (simp; done) | split)
@[simp] theorem State.announce_pending (s : State) (e : Nat) (c : CadState) (hold : Nat) : (State.announce s e c hold).pending = s.pending := by
  simp [State.announce]
@[simp] theorem State.stray_pending (s : State) : (State.stray s).pending = s.pending := by
  simp [State.stray]
@[simp] theorem State.relockPulse_pending (s : State) : (State.relockPulse s).pending = s.pending := by
  unfold State.relockPulse
  dsimp only
  repeat' (first | (simp; done) | split)
@[simp] theorem State.applyCadsrc_pending (s : State) (v : Nat) : (State.applyCadsrc s v).pending = s.pending := by
  unfold State.applyCadsrc
  dsimp only
  repeat' (first | (simp; done) | split)
@[simp] theorem State.cadsrcFree_pending (s : State) : (State.cadsrcFree s).pending = s.pending := by
  unfold State.cadsrcFree
  dsimp only
  repeat' (first | (simp; done) | split)
@[simp] theorem State.applyFixcommit_pending (s : State) (v : Nat) : (State.applyFixcommit s v).pending = s.pending := by
  simp [State.applyFixcommit]
@[simp] theorem State.tableEdge_pending (s : State) : (State.tableEdge s).pending = s.pending := by
  unfold State.tableEdge
  split
  · rfl
  · split
    · rfl
    · refine (State.modFix_pending ..).trans ((foldl_pending _ ?_ _ _).trans (foldl_pending _ ?_ _ _))
      · intro a b
        split
        · rfl
        · exact State.setObj_pending ..
      · intro a b
        exact State.setObj_pending ..
@[simp] theorem State.winRead_pending (s : State) (a n w off : Nat) : (State.winRead s a n w off).1.pending = s.pending := by
  unfold State.winRead
  dsimp only
  repeat' (first | (simp; done) | split)
@[simp] theorem State.cfePlaces_pending (s : State) (f : ReadFind) (r0 : List (Nat × Nat)) : (State.cfePlaces s f r0).1.pending = s.pending := by
  induction r0 generalizing s <;> simp [State.cfePlaces, *]
@[simp] theorem State.cfeWriteRun_pending (s : State) (ref : Nat) (ring : Option Nat) (pl : Place) (a : Nat) (bs : List Byte) :
    (State.cfeWriteRun s ref ring pl a bs).1.pending = s.pending := by
  unfold State.cfeWriteRun
  dsimp only
  repeat' (first | (simp; done) | split)
@[simp] theorem State.settle_pending (s : State) (q : Nat) : (State.settle s q).pending = s.pending := by
  simp [State.settle]
@[simp] theorem State.takeBuffer_pending (s : State) (b : Buffer) : (State.takeBuffer s b).pending = s.pending := by
  unfold State.takeBuffer
  dsimp only
  repeat' (first | (simp; done) | split)
@[simp] theorem State.signalRing_pending (s : State) (r : Nat) : (State.signalRing s r).pending = s.pending := by
  unfold State.signalRing
  dsimp only
  repeat' (first | (simp; done) | split)
@[simp] theorem State.ringLost_pending (s : State) (r : Nat) : (State.ringLost s r).pending = s.pending := by
  simp [State.ringLost]
@[simp] theorem State.storeWaits_pending (s : State) (q : Nat) (on : Bool) : (State.storeWaits s q on).pending = s.pending := by
  simp [State.storeWaits]
@[simp] theorem State.cfeFault_pending (s : State) (eng : Engine) (ref : Nat) (x : XferFault) : (State.cfeFault s eng ref x).pending = s.pending := by
  simp [State.cfeFault]
@[simp] theorem State.refuse_pending (s : State) (c : Cmd) (cls : Option Class) (st : Status) (reason : Nat) :
    (State.refuse s c cls st reason).pending = s.pending := by
  unfold State.refuse
  dsimp only
  repeat' (first | (simp; done) | split)
@[simp] theorem State.postRequests_pending (s : State) (c : Cmd) (l : List (Nat × Nat)) : (State.postRequests s c l).pending = s.pending := by
  simp [State.postRequests]
@[simp] theorem State.endDestroy_pending (s : State) (q : Nat) : (State.endDestroy s q).pending = s.pending := by
  unfold State.endDestroy
  dsimp only
  repeat' (first | (simp; done) | split)
@[simp] theorem State.posted_pending (s : State) (c : Cmd) (st : Status) : (State.posted s c st).pending = s.pending := by
  unfold State.posted
  dsimp only
  repeat' (first | (simp; done) | split)
@[simp] theorem State.finish_pending (s : State) (q : Nat) : (State.finish s q).pending = s.pending := by
  simp [State.finish]
@[simp] theorem State.adminDone_pending (s : State) (c : Cmd) (st : Status) (err : Nat) (inl : List Byte) :
    (State.adminDone s c st err inl).pending = s.pending := by
  simp [State.adminDone]
@[simp] theorem State.adminErr_pending (s : State) (c : Cmd) (err : Nat) : (State.adminErr s c err).pending = s.pending := by
  simp [State.adminErr]
@[simp] theorem State.dropUntaken_pending (s : State) (q : Nat) : (State.dropUntaken s q).pending = s.pending := by
  simp [State.dropUntaken]
@[simp] theorem State.cancelAll_pending (s : State) (q : Nat) (p : Cmd → Bool) : (State.cancelAll s q p).pending = s.pending := by
  simp [State.cancelAll]
@[simp] theorem State.endFaulted_pending (s : State) (q : Nat) : (State.endFaulted s q).pending = s.pending := by
  simp [State.endFaulted]
@[simp] theorem State.applyQuotas_pending (s : State) : (State.applyQuotas s).pending = s.pending := by
  simp [State.applyQuotas]
@[simp] theorem State.setAtt_pending (s : State) (a : AttState) : (State.setAtt s a).pending = s.pending := by
  simp [State.setAtt]
@[simp] theorem State.loseReads_pending (s : State) : (State.loseReads s).pending = s.pending := by
  unfold State.loseReads
  repeat' (first | (simp; done) | split | (refine (foldl_pending _ ?_ _ _).trans ?_) | (intro _ _))
@[simp] theorem State.loseStore_pending (s : State) (h : HostStore) : (State.loseStore s h).pending = s.pending := by
  unfold State.loseStore
  dsimp only
  repeat' (first | (simp; done) | split)
@[simp] theorem State.loseStores_pending (s : State) : (State.loseStores s).pending = s.pending := by
  simp [State.loseStores]
@[simp] theorem State.hostLoss_pending (s : State) : (State.hostLoss s).pending = s.pending := by
  simp [State.hostLoss]
@[simp] theorem State.attachEdge_pending (s : State) : (State.attachEdge s).pending = s.pending := by
  simp [State.attachEdge]
@[simp] theorem State.otpBlow_pending (s : State) (mask : Nat) : (State.otpBlow s mask).pending = s.pending := by
  simp [State.otpBlow]
@[simp] theorem State.random_pending (s : State) (n : Nat) : (State.random s n).1.pending = s.pending := by
  simp [State.random]
@[simp] theorem State.securityRec_pending (s : State) (sev : Sev) (cause id : Nat) : (State.securityRec s sev cause id).pending = s.pending := by
  simp [State.securityRec]
@[simp] theorem State.freePlace_pending (s : State) (pos : Nat) : (State.freePlace s pos).pending = s.pending := by
  simp [State.freePlace]
@[simp] theorem State.endBench_pending (s : State) : (State.endBench s).pending = s.pending := by
  unfold State.endBench
  dsimp only
  repeat' (first | (simp; done) | split)
@[simp] theorem State.cancelBench_pending (s : State) (c : Nat) : (State.cancelBench s c).pending = s.pending := by
  unfold State.cancelBench
  repeat' (first | (simp; done) | split)
@[simp] theorem State.returnBench_pending (s : State) (p : Nat) : (State.returnBench s p).pending = s.pending := by
  unfold State.returnBench
  repeat' (first | (simp; done) | split)
@[simp] theorem State.applyBenchreq_pending (s : State) (p v : Nat) : (State.applyBenchreq s p v).pending = s.pending := by
  simp [State.applyBenchreq]
@[simp] theorem State.takeOver_pending (s : State) (pos old new : Nat) (c : Core) : (State.takeOver s pos old new c).pending = s.pending := by
  simp [State.takeOver]
@[simp] theorem State.benchStep_pending (s : State) : (State.benchStep s).pending = s.pending := by
  unfold State.benchStep
  dsimp only
  repeat' (first | (simp; done) | split)
@[simp] theorem State.replace_pending (s : State) (c : Cmd) (ords : List Nat) : (State.replace s c ords).pending = s.pending := by
  unfold State.replace
  dsimp only
  repeat' (first | (simp; done) | split)
@[simp] theorem State.loseCore_pending (s : State) (c : Nat) : (State.loseCore s c).pending = s.pending := by
  unfold State.loseCore
  dsimp only
  repeat' (first | (simp; done) | split)
@[simp] theorem State.benchEdge_pending (s : State) : (State.benchEdge s).pending = s.pending := by
  unfold State.benchEdge
  refine (State.benchStep_pending ..).trans ((foldl_pending _ ?_ _ _).trans ((foldl_pending _ ?_ _ _).trans ((State.modRepair_pending ..).trans (foldl_pending _ ?_ _ _))))
  · intro a b
    split
    · exact State.replace_pending ..
    · exact State.modRepair_pending ..
  · intro a b
    exact State.loseCore_pending ..
  · intro a b
    rw [ite_pending, State.setPstate_pending, ite_self]
@[simp] theorem State.setBist_pending (s : State) (c : Nat) (pend mb lb : Bool) : (State.setBist s c pend mb lb).pending = s.pending := by
  unfold State.setBist
  exact State.modRepair_pending ..
@[simp] theorem State.closePos_pending (s : State) (p : Nat) : (State.closePos s p).pending = s.pending := by
  simp [State.closePos]
@[simp] theorem State.toSpare_pending (s : State) (c : Nat) : (State.toSpare s c).pending = s.pending := by
  simp [State.toSpare]
@[simp] theorem State.slotBist_pending (s : State) (c : Nat) (pass : Bool) : (State.slotBist s c pass).pending = s.pending := by
  simp [State.slotBist]
@[simp] theorem State.applyBistrun_pending (s : State) (c : Nat) : (State.applyBistrun s c).pending = s.pending := by
  simp [State.applyBistrun]
@[simp] theorem State.applyFuserepair_pending (s : State) (v : Nat) : (State.applyFuserepair s v).pending = s.pending := by
  simp [State.applyFuserepair]
@[simp] theorem State.applyScanreq_pending (s : State) (c : Nat) : (State.applyScanreq s c).pending = s.pending := by
  simp [State.applyScanreq]
@[simp] theorem State.applyToken_pending (s : State) : (State.applyToken s).pending = s.pending := by
  simp [State.applyToken]
@[simp] theorem State.blowAll_pending (s : State) (errs : List Nat) (r0 : Nat) : (State.blowAll s errs r0).pending = s.pending := by
  induction r0 generalizing s with
  | zero => rfl
  | succ n ih =>
    rw [State.blowAll]
    split
    · rfl
    · split
      · exact State.postErr_pending ..
      · dsimp only
        split
        · rw [ih, State.postErr_pending, State.modRepair_pending]
        · rw [ih, State.modRepair_pending, State.modRepair_pending]
@[simp] theorem State.setErqhead_pending (s : State) (mgmt : Bool) (v : Nat) : (State.setErqhead s mgmt v).pending = s.pending := by
  simp [State.setErqhead]
@[simp] theorem State.freeCard_pending (s : State) (k : Nat) : (State.freeCard s k).pending = s.pending := by
  simp [State.freeCard]
@[simp] theorem State.trigger_pending (s : State) (r0 : FatalTrigger) : (State.trigger s r0).pending = s.pending := by
  induction r0 generalizing s <;> simp [State.trigger, *]
@[simp] theorem State.haltCores_pending (s : State) : (State.haltCores s).pending = s.pending := by
  simp [State.haltCores]
@[simp] theorem State.xcDrawn_pending (s : State) : (State.xcDrawn s).pending = s.pending := by
  simp [State.xcDrawn]
@[simp] theorem State.xcPass_pending (s : State) (l : List Nat) : (State.xcPass s l).pending = s.pending := by
  simp [State.xcPass]
@[simp] theorem State.xcEdge_pending (s : State) : (State.xcEdge s).pending = s.pending := by
  simp [State.xcEdge]
@[simp] theorem State.xcCount_pending (s : State) (touch : List Nat) (fails : Nat) : (State.xcCount s touch fails).pending = s.pending := by
  simp [State.xcCount]
@[simp] theorem State.xcVerdict_pending (s : State) (r : XcRun) (third : Nat) : (State.xcVerdict s r third).pending = s.pending := by
  simp [State.xcVerdict]
@[simp] theorem State.xcRec_pending (s : State) (sev : Sev) (cause c other third off : Nat) :
    (State.xcRec s sev cause c other third off).pending = s.pending := by
  simp [State.xcRec]
@[simp] theorem State.linkDown_pending (s : State) : (State.linkDown s).pending = s.pending := by
  simp [State.linkDown]
@[simp] theorem State.hostEdge_pending (s : State) : (State.hostEdge s).pending = s.pending := by
  unfold State.hostEdge
  repeat' (first | (simp; done) | split)
@[simp] theorem State.snoopAdd_pending (s : State) (line : Nat) : (State.snoopAdd s line).pending = s.pending := by
  unfold State.snoopAdd
  dsimp only
  repeat' (first | (simp; done) | split)
@[simp] theorem State.windowUnit_pending (s : State) (dpa : Nat) (data : List Byte) (poison : Bool) (e : Ecc) :
    (State.windowUnit s dpa data poison e).pending = s.pending := by
  simp [State.windowUnit]
@[simp] theorem State.primaryMailbox_pending (s : State) (opcode : Nat) : (State.primaryMailbox s opcode).pending = s.pending := by
  simp [State.primaryMailbox]
@[simp] theorem State.powerRec_pending (s : State) (sev : Sev) (cause num : Nat) (reading : Int) :
    (State.powerRec s sev cause num reading).pending = s.pending := by
  simp [State.powerRec]
@[simp] theorem State.modRail_pending (s : State) (d : Nat) (f : Rail → Rail) : (State.modRail s d f).pending = s.pending := by
  simp [State.modRail]
@[simp] theorem State.avsRail_pending (s : State) (d margin mv da : Nat) (fail : Bool) :
    (State.avsRail s d margin mv da fail).pending = s.pending := by
  simp [State.avsRail]
@[simp] theorem State.sample_pending (s : State) (n : Nat) (v med : Int) : (State.sample s n v med).pending = s.pending := by
  simp [State.sample]
@[simp] theorem State.noteDead_pending (s : State) (x : Nat × Nat) : (State.noteDead s x).pending = s.pending := by
  simp [State.noteDead]
@[simp] theorem State.powerEdge_pending (s : State) (watts : Nat) : (State.powerEdge s watts).pending = s.pending := by
  simp [State.powerEdge]
@[simp] theorem State.applyMapout_pending (s : State) (st ch : Nat) : (State.applyMapout s st ch).pending = s.pending := by
  simp [State.applyMapout]
@[simp] theorem State.applyUnitmode_pending (s : State) (k u v : Nat) : (State.applyUnitmode s k u v).pending = s.pending := by
  simp [State.applyUnitmode]
@[simp] theorem State.applyRegulator_pending (s : State) (k n : Nat) : (State.applyRegulator s k n).pending = s.pending := by
  simp [State.applyRegulator]
@[simp] theorem State.entry_pending (s : State) (kind route eid key keyid : Nat) (old new : List Byte) :
    (State.entry s kind route eid key keyid old new).pending = s.pending := by
  simp [State.entry]
@[simp] theorem State.signedEntry_pending (s : State) (kind key : Nat) (nonce : List Byte) :
    (State.signedEntry s kind key nonce).pending = s.pending := by
  simp [State.signedEntry]
@[simp] theorem State.autoCheckpoint_pending (s : State) : (State.autoCheckpoint s).pending = s.pending := by
  simp [State.autoCheckpoint]
@[simp] theorem State.journalPut_pending (s : State) (kind route eid key keyid : Nat) (old new : List Byte) :
    (State.journalPut s kind route eid key keyid old new).1.pending = s.pending := by
  simp [State.journalPut]
@[simp] theorem State.genesis_pending (s : State) (nonce : List Byte) : (State.genesis s nonce).pending = s.pending := by
  simp [State.genesis]
@[simp] theorem State.checkpoint_pending (s : State) (nonce : List Byte) : (State.checkpoint s nonce).pending = s.pending := by
  simp [State.checkpoint]
@[simp] theorem State.flashPut_pending (s : State) (a : Nat) (bs : List Byte) : (State.flashPut s a bs).pending = s.pending := by
  simp [State.flashPut]
@[simp] theorem State.flashErase_pending (s : State) (a n : Nat) : (State.flashErase s a n).pending = s.pending := by
  simp [State.flashErase]
@[simp] theorem State.flashAnd_pending (s : State) (a v : Nat) : (State.flashAnd s a v).pending = s.pending := by
  simp [State.flashAnd]
@[simp] theorem State.setFw_pending (s : State) (f : FwState) (e : Nat) : (State.setFw s f e).pending = s.pending := by
  simp [State.setFw]
@[simp] theorem State.applyFwaction_pending (s : State) (v : Nat) : (State.applyFwaction s v).pending = s.pending := by
  simp [State.applyFwaction]
@[simp] theorem State.resetModule_pending (s : State) : (State.resetModule s).pending = s.pending := by
  simp [State.resetModule]
@[simp] theorem State.selectBank_pending (s : State) (notes : List Nat) (r0 : List Nat) : (State.selectBank s notes r0).1.pending = s.pending := by
  induction r0 generalizing s notes with
  | nil => rfl
  | cons b l ih =>
    have h : ∀ (c : Prop) [Decidable c] (m : Table Byte), (if c then { s with flash := m } else s).pending = s.pending := by
      intro c _ m
      split <;> rfl
    rw [State.selectBank]
    split
    · exact ih ..
    · extract_lets n s1 p
      have h1 : s1.pending = s.pending := h ..
      split
      · exact (ih ..).trans h1
      · split
        · exact (ih ..).trans h1
        · exact h1
@[simp] theorem State.startImage_pending (s : State) (b bs : Nat) : (State.startImage s b bs).pending = s.pending := by
  simp [State.startImage]
@[simp] theorem State.startCount_pending (s : State) (fails : Bool) : (State.startCount s fails).pending = s.pending := by
  simp [State.startCount]
@[simp] theorem State.softRows_pending (s : State) (l : List (Nat × Nat × Nat × Nat)) : (State.softRows s l).pending = s.pending := by
  unfold State.softRows
  repeat' (first | (simp; done) | split | (refine (foldl_pending _ ?_ _ _).trans ?_) | (intro _ _))
@[simp] theorem State.withFree_pending (s : State) (n : Nat) : (State.withFree s n).pending = s.pending := by
  simp [State.withFree]
@[simp] theorem State.startFirmware_pending (s : State) (f : BootFinds) (notes : List Nat) : (State.startFirmware s f notes).pending = s.pending := by
  have h : ∀ (b : Bool) (x : State), (if b then (x.modSec (fun y => { y with certBad := true })).securityRec .degraded 0x09 0 else x).pending = x.pending := by
    intro b x
    rw [ite_pending, State.securityRec_pending, State.modSec_pending, ite_self]
  unfold State.startFirmware
  refine (State.startCount_pending ..).trans ((State.softRows_pending ..).trans ((State.withFree_pending ..).trans ((State.genesis_pending ..).trans
    ((State.modSec_pending ..).trans ((h ..).trans ?_)))))
  refine foldl_pending _ ?_ _ _
  intro a b
  exact State.securityRec_pending ..
@[simp] theorem State.bootFrom_pending (s : State) (since strap : Nat) (f : BootFinds) : (State.bootFrom s since strap f).pending = s.pending := by
  unfold State.bootFrom
  dsimp only
  repeat' (first | (simp; done) | split | (refine (foldl_pending _ ?_ _ _).trans ?_) | (refine (foldl_fst_pending _ ?_ _ _).trans ?_) | (intro _ _)
                 | (simp only [Prod.ext_iff] at *; (repeat (cases ‹_ ∧ _›)); subst_vars; simp; done))
@[simp] theorem State.given_pending (s : State) (b : Board) : (State.given s b).pending = s.pending := by
  simp [State.given]
@[simp] theorem State.mapUntrained_pending (s : State) (st ch : Nat) : (State.mapUntrained s st ch).pending = s.pending := by
  simp [State.mapUntrained]
@[simp] theorem State.startCore_pending (s : State) (finds : List BistFind) (c : Nat) : (State.startCore s finds c).pending = s.pending := by
  unfold State.startCore
  dsimp only
  split
  · exact State.setPstate_pending ..
  · split
    · exact State.setPstate_pending ..
    · split
      · exact (State.repairRec_pending ..).trans ((State.setPstate_pending ..).trans (State.setBist_pending ..))
      · split
        · exact (State.repairRec_pending ..).trans ((State.setPstate_pending ..).trans (State.setBist_pending ..))
        · split
          · exact (State.repairRec_pending ..).trans ((State.setPstate_pending ..).trans ((State.repairRec_pending ..).trans ((State.modRepair_pending ..).trans (State.setBist_pending ..))))
          · exact (State.repairRec_pending ..).trans ((State.setPstate_pending ..).trans ((State.modRepair_pending ..).trans (State.setBist_pending ..)))
@[simp] theorem State.assign_pending (s : State) (p : Nat) : (State.assign s p).pending = s.pending := by
  unfold State.assign
  dsimp only
  repeat' (first | (simp; done) | split)
@[simp] theorem State.respond_pending (s : State) (o : Origin) (op key : Nat) (pend : Bool) (r : Resp) :
    (State.respond s o op key pend r).pending = s.pending := by
  simp [State.respond]
@[simp] theorem State.take_pending (s : State) (o : Origin) : (State.take s o).pending = s.pending := by
  simp [State.take]
@[simp] theorem State.applyQuiesced_pending (s : State) (key n : Nat) : (State.applyQuiesced s key n).pending = s.pending := by
  simp [State.applyQuiesced]
@[simp] theorem State.armCommit_pending (s : State) (jseq v : Nat) : (State.armCommit s jseq v).1.pending = s.pending := by
  simp [State.armCommit]
@[simp] theorem State.discard_pending (s : State) : (State.discard s).pending = s.pending := by
  simp [State.discard]
@[simp] theorem State.stage_pending (s : State) (w : Waiting) : (State.stage s w).pending = s.pending := by
  simp [State.stage]
@[simp] theorem State.safeReset_pending (s : State) : (State.safeReset s).pending = s.pending := by
  simp [State.safeReset]
@[simp] theorem State.accept_pending (s : State) (o : Origin) (d : ObjDef) (key : Nat) (v : List Byte) (jseq : Nat) :
    (State.accept s o d key v jseq).1.pending = s.pending := by
  simp [State.accept]
@[simp] theorem State.noteRefusal_pending (s : State) (o : Origin) (key n : Nat) (r : Resp) :
    (State.noteRefusal s o key n r).pending = s.pending := by
  simp [State.noteRefusal]
@[simp] theorem State.writeObject_pending (s : State) (o : Origin) (key : Nat) (v : List Byte) :
    (State.writeObject s o key v).pending = s.pending := by
  unfold State.writeObject
  dsimp only
  repeat' (first | (simp; done) | split)
@[simp] theorem State.writeRequest_pending (s : State) (o : Origin) (key : Nat) (v : List Byte) :
    (State.writeRequest s o key v).pending = s.pending := by
  unfold State.writeRequest
  repeat' (first | (simp; done) | split)
@[simp] theorem State.writeNum_pending (s : State) (o : Origin) (idx sub n : Nat) : (State.writeNum s o idx sub n).pending = s.pending := by
  simp [State.writeNum]
@[simp] theorem State.writeOf_pending (s : State) (o : Origin) (base count i sub n : Nat) :
    (State.writeOf s o base count i sub n).pending = s.pending := by
  simp [State.writeOf]
@[simp] theorem State.request_pending (s : State) (op : Nat) (r : Req) (f : State → Origin → State) (h_f : ∀ z y0, (f z y0).pending = z.pending) :
    (State.request s op r f).pending = s.pending := by
  unfold State.request
  dsimp only
  repeat' (first | (simp [*]; done) | split)
@[simp] theorem State.drawn_pending (s : State) : (State.drawn s).pending = s.pending := by
  simp [State.drawn]
@[simp] theorem State.spdmAnswer_pending (s : State) (transport eid session : Nat) (name : SpdmRsp) (vals : List Nat) (data : List Byte) :
    (State.spdmAnswer s transport eid session name vals data).pending = s.pending := by
  simp [State.spdmAnswer]
@[simp] theorem State.spdmRsp_pending (s : State) (o : Origin) (name : SpdmRsp) (vals : List Nat) (data : List Byte) :
    (State.spdmRsp s o name vals data).pending = s.pending := by
  simp [State.spdmRsp]
@[simp] theorem State.spdmErr_pending (s : State) (o : Origin) (e : SpdmErr) : (State.spdmErr s o e).pending = s.pending := by
  simp [State.spdmErr]
@[simp] theorem State.notReady_pending (s : State) (w : SigWait) : (State.notReady s w).pending = s.pending := by
  simp [State.notReady]
@[simp] theorem State.deferSigs_pending (s : State) : (State.deferSigs s).pending = s.pending := by
  simp [State.deferSigs]
@[simp] theorem State.withCert_pending (s : State) (o : Origin) (slot : Nat) (f : State → State) (h_f : ∀ z, (f z).pending = z.pending) :
    (State.withCert s o slot f).pending = s.pending := by
  simp [State.withCert, *]
@[simp] theorem State.signed_pending (s : State) (o : Origin) (session code arg : Nat) (body : List Byte) :
    (State.signed s o session code arg body).pending = s.pending := by
  unfold State.signed
  dsimp only
  repeat' (first | (simp; done) | split | (refine (foldl_pending _ ?_ _ _).trans ?_) | (refine (foldl_fst_pending _ ?_ _ _).trans ?_) | (intro _ _)
                 | (simp only [Prod.ext_iff] at *; (repeat (cases ‹_ ∧ _›)); subst_vars; simp; done))
@[simp] theorem State.setChunking_pending (s : State) (c : Chunking) : (State.setChunking s c).pending = s.pending := by
  simp [State.setChunking]
@[simp] theorem State.sendSigned_pending (s : State) (w : SigWait) : (State.sendSigned s w).pending = s.pending := by
  unfold State.sendSigned
  dsimp only
  repeat' (first | (simp; done) | split)
@[simp] theorem State.endSession_pending (s : State) (id : Nat) : (State.endSession s id).pending = s.pending := by
  simp [State.endSession]
@[simp] theorem State.inSession_pending (s : State) (o : Origin) (hand : Bool) (f : State → Session → State) (h_f :
    ∀ z y0, (f z y0).pending = z.pending) : (State.inSession s o hand f).pending = s.pending := by
  unfold State.inSession
  repeat' (first | (simp [*]; done) | split)
@[simp] theorem State.modSession_pending (s : State) (id : Nat) (f : Session → Session) : (State.modSession s id f).pending = s.pending := by
  simp [State.modSession]
@[simp] theorem State.beginEdge_pending (s : State) (e : Nat) : (State.beginEdge s e).pending = s.pending := by
  unfold State.beginEdge
  dsimp only
  repeat' (first | (simp; done) | split)
@[simp] theorem State.dropLive_pending (s : State) (p : Nat → Bool) : (State.dropLive s p).pending = s.pending := by
  simp [State.dropLive]
@[simp] theorem State.fixEdge_pending (s : State) : (State.fixEdge s).pending = s.pending := by
  unfold State.fixEdge
  refine (State.tableEdge_pending ..).trans ((foldl_pending _ ?_ _ _).trans (State.dropLive_pending ..))
  intro a b
  exact State.applyFixcommit_pending ..
@[simp] theorem State.regulatorEdge_pending (s : State) : (State.regulatorEdge s).pending = s.pending := by
  unfold State.regulatorEdge
  repeat' (first | (simp; done) | split | (refine (foldl_pending _ ?_ _ _).trans ?_) | (intro _ _))
@[simp] theorem State.checkpointEdge_pending (s : State) : (State.checkpointEdge s).pending = s.pending := by
  simp [State.checkpointEdge]
@[simp] theorem State.mapoutRec_pending (s : State) (st : Nat) : (State.mapoutRec s st).pending = s.pending := by
  simp [State.mapoutRec]
@[simp] theorem State.slowedStack_pending (s : State) (st : Nat) : (State.slowedStack s st).pending = s.pending := by
  simp [State.slowedStack]
@[simp] theorem State.mapoutCopy_pending (s : State) (st : Nat) : (State.mapoutCopy s st).pending = s.pending := by
  simp [State.mapoutCopy]
@[simp] theorem State.eachStack_pending (s : State) (f : State → Nat → State) (h_f : ∀ z y0, (f z y0).pending = z.pending) :
    (State.eachStack s f).pending = s.pending := by
  simp [State.eachStack, *]
@[simp] theorem State.hmapEdge_pending (s : State) : (State.hmapEdge s).pending = s.pending := by
  simp [State.hmapEdge]
@[simp] theorem State.ledgerEdge_pending (s : State) : (State.ledgerEdge s).pending = s.pending := by
  simp [State.ledgerEdge]
@[simp] theorem State.fetchRuns_pending (s : State) (x : Xfer) (r0 : List SrcRun) : (State.fetchRuns s x r0).1.pending = s.pending := by
  induction r0 generalizing s with
  | nil => intros; rfl
  | cons a l ih => cases a <;> unfold State.fetchRuns <;> (repeat' (first | rfl | (simp [*]; done) | (refine (foldl_pending _ ?_ _ _).trans ?_)
                                                                          | (refine (foldl_fst_pending _ ?_ _ _).trans ?_)
                                                                          | (refine (andThen_pending _ _ ?_).trans ?_) | (intro _ _) | split
                                                                          | (simp only [Prod.ext_iff] at *; (repeat (cases ‹_ ∧ _›)); subst_vars; simp [*]; done)))
@[simp] theorem State.sourceSealed_pending (s : State) (x : Xfer) : (State.sourceSealed s x).1.pending = s.pending := by
  unfold State.sourceSealed
  repeat' (first | rfl | (simp [*]; done) | (refine (foldl_pending _ ?_ _ _).trans ?_) | (refine (foldl_fst_pending _ ?_ _ _).trans ?_)
                 | (refine (andThen_pending _ _ ?_).trans ?_) | (intro _ _) | split
                 | (simp only [Prod.ext_iff] at *; (repeat (cases ‹_ ∧ _›)); subst_vars; simp [*]; done))
@[simp] theorem State.unitReady_pending (s : State) (x : Xfer) (k : Nat) : (State.unitReady s x k).1.pending = s.pending := by
  unfold State.unitReady
  repeat' (first | rfl | (simp [*]; done) | (refine (foldl_pending _ ?_ _ _).trans ?_) | (refine (foldl_fst_pending _ ?_ _ _).trans ?_)
                 | (refine (andThen_pending _ _ ?_).trans ?_) | (intro _ _) | split
                 | (simp only [Prod.ext_iff] at *; (repeat (cases ‹_ ∧ _›)); subst_vars; simp [*]; done))
@[simp] theorem State.unitBytes_pending (s : State) (x : Xfer) (k : Nat) (fnd : UnitFinding) (oldBad : Bool) (r : List SrcRun × List (Place × Nat × Nat)) :
    (State.unitBytes s x k fnd oldBad r).1.pending = s.pending := by
  unfold State.unitBytes
  dsimp only
  repeat' (first | rfl | (simp [*]; done) | (refine (foldl_pending _ ?_ _ _).trans ?_) | (refine (foldl_fst_pending _ ?_ _ _).trans ?_)
                 | (refine (andThen_pending _ _ ?_).trans ?_) | (intro _ _) | split
                 | (simp only [Prod.ext_iff] at *; (repeat (cases ‹_ ∧ _›)); subst_vars; simp [*]; done))
@[simp] theorem State.moveUnit_pending (s : State) (tc : Nat) (x : Xfer) (fnd : UnitFinding) (oldBad : Bool) :
    (State.moveUnit s tc x fnd oldBad).pending = s.pending := by
  unfold State.moveUnit
  repeat' (first | rfl | (simp [*]; done) | (refine (foldl_pending _ ?_ _ _).trans ?_) | (refine (foldl_fst_pending _ ?_ _ _).trans ?_)
                 | (refine (andThen_pending _ _ ?_).trans ?_) | (intro _ _) | split
                 | (simp only [Prod.ext_iff] at *; (repeat (cases ‹_ ∧ _›)); subst_vars; simp [*]; done))
@[simp] theorem State.readRest_pending (s : State) (x : Xfer) (fnd : UnitFinding) : (State.readRest s x fnd).1.pending = s.pending := by
  unfold State.readRest
  repeat' (first | rfl | (simp [*]; done) | (refine (foldl_pending _ ?_ _ _).trans ?_) | (refine (foldl_fst_pending _ ?_ _ _).trans ?_)
                 | (refine (andThen_pending _ _ ?_).trans ?_) | (intro _ _) | split
                 | (simp only [Prod.ext_iff] at *; (repeat (cases ‹_ ∧ _›)); subst_vars; simp [*]; done))
@[simp] theorem State.cfeReadRun_pending (s : State) (f : ReadFind) (a n : Nat) : (State.cfeReadRun s f a n).1.pending = s.pending := by
  unfold State.cfeReadRun
  dsimp only
  repeat' (first | rfl | (simp [*]; done) | (refine (foldl_pending _ ?_ _ _).trans ?_) | (refine (foldl_fst_pending _ ?_ _ _).trans ?_)
                 | (refine (andThen_pending _ _ ?_).trans ?_) | (intro _ _) | split
                 | (simp only [Prod.ext_iff] at *; (repeat (cases ‹_ ∧ _›)); subst_vars; simp [*]; done))
@[simp] theorem State.cfeReadRuns_pending (s : State) (f : ReadFind) (r0 : List (Nat × Nat)) : (State.cfeReadRuns s f r0).1.pending = s.pending := by
  induction r0 generalizing s <;> unfold State.cfeReadRuns <;> (repeat' (first | rfl | (simp [*]; done)
                                                                               | (refine (foldl_pending _ ?_ _ _).trans ?_)
                                                                               | (refine (foldl_fst_pending _ ?_ _ _).trans ?_)
                                                                               | (refine (andThen_pending _ _ ?_).trans ?_) | (intro _ _) | split
                                                                               | (simp only [Prod.ext_iff] at *; (repeat (cases ‹_ ∧ _›)); subst_vars; simp [*]; done)))
@[simp] theorem State.cfeRead_pending (s : State) (f : ReadFind) (a n : Nat) : (State.cfeRead s f a n).1.pending = s.pending := by
  unfold State.cfeRead
  dsimp only
  repeat' (first | rfl | (simp [*]; done) | (refine (foldl_pending _ ?_ _ _).trans ?_) | (refine (foldl_fst_pending _ ?_ _ _).trans ?_)
                 | (refine (andThen_pending _ _ ?_).trans ?_) | (intro _ _) | split
                 | (simp only [Prod.ext_iff] at *; (repeat (cases ‹_ ∧ _›)); subst_vars; simp [*]; done))
@[simp] theorem State.readHeaders_pending (s : State) (f : ReadFind) (r0 : List (Nat × Nat)) : (State.readHeaders s f r0).1.pending = s.pending := by
  induction r0 generalizing s <;> unfold State.readHeaders <;> (repeat' (first | rfl | (simp [*]; done)
                                                                               | (refine (foldl_pending _ ?_ _ _).trans ?_)
                                                                               | (refine (foldl_fst_pending _ ?_ _ _).trans ?_)
                                                                               | (refine (andThen_pending _ _ ?_).trans ?_) | (intro _ _) | split
                                                                               | (simp only [Prod.ext_iff] at *; (repeat (cases ‹_ ∧ _›)); subst_vars; simp [*]; done)))
@[simp] theorem State.routeRows_pending (s : State) (repl : Bool) (st table d gen : Nat) (ue : Option Nat) (r0 : List Nat) (r1 : List Route) :
    (State.routeRows s repl st table d gen ue r0 r1).1.pending = s.pending := by
  induction r0 generalizing s r1 <;> unfold State.routeRows <;> (repeat' (first | (with_reducible rfl) | (simp [*]; done)
                                                                                | (refine (foldl_pending _ ?_ _ _).trans ?_)
                                                                                | (refine (foldl_fst_pending _ ?_ _ _).trans ?_)
                                                                                | (refine (andThen_pending _ _ ?_).trans ?_) | (intro _ _) | split
                                                                                | (simp only [Prod.ext_iff] at *; (repeat (cases ‹_ ∧ _›)); subst_vars; simp [*]; done) | dsimp only))
@[simp] theorem State.startInbound_pending (s : State) (x : Inbound) : (State.startInbound s x).pending = s.pending := by
  unfold State.startInbound
  repeat' (first | (with_reducible rfl) | (simp [*]; done) | (refine (foldl_pending _ ?_ _ _).trans ?_)
                 | (refine (foldl_fst_pending _ ?_ _ _).trans ?_) | (refine (andThen_pending _ _ ?_).trans ?_) | (intro _ _) | split
                 | (simp only [Prod.ext_iff] at *; (repeat (cases ‹_ ∧ _›)); subst_vars; simp [*]; done) | dsimp only)
@[simp] theorem State.putInbound_pending (s : State) (x : Inbound) : (State.putInbound s x).pending = s.pending := by
  unfold State.putInbound
  repeat' (first | (with_reducible rfl) | (simp [*]; done) | (refine (foldl_pending _ ?_ _ _).trans ?_)
                 | (refine (foldl_fst_pending _ ?_ _ _).trans ?_) | (refine (andThen_pending _ _ ?_).trans ?_) | (intro _ _) | split
                 | (simp only [Prod.ext_iff] at *; (repeat (cases ‹_ ∧ _›)); subst_vars; simp [*]; done) | dsimp only)
@[simp] theorem State.cfeWriteRuns_pending (s : State) (ref : Nat) (ring : Option Nat) (r0 : List (Place × Nat × Nat)) (r1 : List Byte) :
    (State.cfeWriteRuns s ref ring r0 r1).1.pending = s.pending := by
  induction r0 generalizing s r1 <;> unfold State.cfeWriteRuns <;> (repeat' (first | (with_reducible rfl) | (simp [*]; done)
                                                                                   | (refine (foldl_pending _ ?_ _ _).trans ?_)
                                                                                   | (refine (foldl_fst_pending _ ?_ _ _).trans ?_)
                                                                                   | (refine (andThen_pending _ _ ?_).trans ?_) | (intro _ _)
                                                                                   | split
                                                                                   | (simp only [Prod.ext_iff] at *; (repeat (cases ‹_ ∧ _›)); subst_vars; simp [*]; done) | dsimp only))
@[simp] theorem State.cfeWrite_pending (s : State) (f : ReadFind) (ref a : Nat) (bs : List Byte) (ring : Option Nat) :
    (State.cfeWrite s f ref a bs ring).1.pending = s.pending := by
  unfold State.cfeWrite
  repeat' (first | (with_reducible rfl) | (simp [*]; done) | (refine (foldl_pending _ ?_ _ _).trans ?_)
                 | (refine (foldl_fst_pending _ ?_ _ _).trans ?_) | (refine (andThen_pending _ _ ?_).trans ?_) | (intro _ _) | split
                 | (simp only [Prod.ext_iff] at *; (repeat (cases ‹_ ∧ _›)); subst_vars; simp [*]; done) | dsimp only)
@[simp] theorem State.writeRing_pending (s : State) (f : ReadFind) (r : Nat) (w : List Nat) : (State.writeRing s f r w).1.pending = s.pending := by
  unfold State.writeRing
  repeat' (first | (with_reducible rfl) | (simp [*]; done) | (refine (foldl_pending _ ?_ _ _).trans ?_)
                 | (refine (foldl_fst_pending _ ?_ _ _).trans ?_) | (refine (andThen_pending _ _ ?_).trans ?_) | (intro _ _) | split
                 | (simp only [Prod.ext_iff] at *; (repeat (cases ‹_ ∧ _›)); subst_vars; simp [*]; done) | dsimp only)
@[simp] theorem State.unpark_pending (s : State) (r : Nat) (r0 : Nat) : (State.unpark s r r0).pending = s.pending := by
  induction r0 generalizing s <;> unfold State.unpark <;> (repeat' (first | (with_reducible rfl) | (simp [*]; done)
                                                                          | (refine (foldl_pending _ ?_ _ _).trans ?_)
                                                                          | (refine (foldl_fst_pending _ ?_ _ _).trans ?_)
                                                                          | (refine (andThen_pending _ _ ?_).trans ?_) | (intro _ _) | split
                                                                          | (simp only [Prod.ext_iff] at *; (repeat (cases ‹_ ∧ _›)); subst_vars; simp [*]; done) | dsimp only))
@[simp] theorem State.issueRecord_pending (s : State) (f : ReadFind) (r : Nat) (w : List Nat) :
    (State.issueRecord s f r w).1.pending = s.pending := by
  unfold State.issueRecord
  repeat' (first | (with_reducible rfl) | (simp [*]; done) | (refine (foldl_pending _ ?_ _ _).trans ?_)
                 | (refine (foldl_fst_pending _ ?_ _ _).trans ?_) | (refine (andThen_pending _ _ ?_).trans ?_) | (intro _ _) | split
                 | (simp only [Prod.ext_iff] at *; (repeat (cases ‹_ ∧ _›)); subst_vars; simp [*]; done) | dsimp only)
@[simp] theorem State.skimOuts_pending (s : State) (f : ReadFind) (ref : Nat) (r0 : List (Nat × Nat)) :
    (State.skimOuts s f ref r0).1.pending = s.pending := by
  induction r0 generalizing s <;> unfold State.skimOuts <;> (repeat' (first | (with_reducible rfl) | (simp [*]; done)
                                                                            | (refine (foldl_pending _ ?_ _ _).trans ?_)
                                                                            | (refine (foldl_fst_pending _ ?_ _ _).trans ?_)
                                                                            | (refine (andThen_pending _ _ ?_).trans ?_) | (intro _ _) | split
                                                                            | (simp only [Prod.ext_iff] at *; (repeat (cases ‹_ ∧ _›)); subst_vars; simp [*]; done) | dsimp only))
@[simp] theorem State.decideCmd_pending (s : State) (f : ReadFind) (c : Cmd) (r : RunRec) (hdrs : Bool) (cost : Option CostTable) :
    (State.decideCmd s f c r hdrs cost).pending = s.pending := by
  unfold State.decideCmd
  repeat' (first | (with_reducible rfl) | (simp [*]; done) | (refine (foldl_pending _ ?_ _ _).trans ?_)
                 | (refine (foldl_fst_pending _ ?_ _ _).trans ?_) | (refine (andThen_pending _ _ ?_).trans ?_) | (intro _ _) | split
                 | (simp only [Prod.ext_iff] at *; (repeat (cases ‹_ ∧ _›)); subst_vars; simp [*]; done) | dsimp only)
@[simp] theorem State.attach_pending (s : State) : (State.attach s).pending = s.pending := by
  unfold State.attach
  repeat' (first | (with_reducible rfl) | (simp [*]; done) | (refine (foldl_pending _ ?_ _ _).trans ?_)
                 | (refine (foldl_fst_pending _ ?_ _ _).trans ?_) | (refine (andThen_pending _ _ ?_).trans ?_) | (intro _ _) | split
                 | (simp only [Prod.ext_iff] at *; (repeat (cases ‹_ ∧ _›)); subst_vars; simp [*]; done) | dsimp only)
@[simp] theorem State.lastRecords_pending (s : State) (q : Nat) : (State.lastRecords s q).pending = s.pending := by
  unfold State.lastRecords
  repeat' (first | (with_reducible rfl) | (simp [*]; done) | (refine (foldl_pending _ ?_ _ _).trans ?_)
                 | (refine (foldl_fst_pending _ ?_ _ _).trans ?_) | (refine (andThen_pending _ _ ?_).trans ?_) | (intro _ _) | split
                 | (simp only [Prod.ext_iff] at *; (repeat (cases ‹_ ∧ _›)); subst_vars; simp [*]; done) | dsimp only)
@[simp] theorem State.answerAll_pending (s : State) (l : List Packet) : (s.answerAll l).pending = s.pending := by
  induction l generalizing s with
  | nil => rw [State.answerAll, List.foldl_nil]
  | cons k l ih =>
    rw [show s.answerAll (k :: l) = (s.answer k 0).answerAll l from List.foldl_cons .., ih, State.answer_pending]
theorem State.sendBlocks_pending (s : State) (dst key st frame off : Nat) (l : List Nat) :
    (l.foldl (fun y i => y.sendMigBlock dst key st frame (off + i)) s).pending = s.pending := by
  induction l generalizing s with
  | nil => rw [List.foldl_nil]
  | cons k l ih => rw [List.foldl_cons, ih, State.sendMigBlock_pending]
@[simp] theorem State.mirrorApply_pending (s : State) (key off : Nat) (bs : List Byte) (st frame : Nat) :
    (s.mirrorApply key off bs st frame).pending = s.pending := by
  unfold State.mirrorApply
  dsimp only
  repeat' split
  all_goals simp only [State.sendBlocks_pending, State.writeCopy_pending]
@[simp] theorem State.ackPartial_pending (s : State) (p : Partial) (home step : Nat) : (s.ackPartial p home step).pending = s.pending := by
  unfold State.ackPartial
  split
  · exact State.noteCombined_pending ..
  · rw [State.answerAll_pending, State.tellEntry_pending]
@[simp] theorem State.failPartial_pending (s : State) (p : Partial) (home : Nat) (f : XferFault) : (s.failPartial p home f).pending = s.pending := by
  unfold State.failPartial
  rw [State.answerAll_pending, State.failFeed_pending]
@[simp] theorem State.combine_pending (s : State) (home : Nat) (p : Partial) (next : Bool) : (s.combine home p next).pending = s.pending := by
  unfold State.combine
  dsimp only
  repeat' split
  all_goals simp
theorem State.failFeeds_pending (s : State) (st key : Nat) (f : XferFault) (l : List Feed) :
    (l.foldl (fun y g => y.failFeed g st key f) s).pending = s.pending := by
  induction l generalizing s with
  | nil => rw [List.foldl_nil]
  | cons k l ih => rw [List.foldl_cons, ih, State.failFeed_pending]
@[simp] theorem State.applyRow_pending (s : State) (st step : Nat) (rows : List (Nat × RowFinding)) (key : Nat) (e : Entry) :
    (s.applyRow st step rows key e).pending = s.pending := by
  have h := State.applyHome_pending s st (key / 2 ^ 32) (s.tdesc (key / 2 ^ 32)) (key % 2 ^ 32 / tdRps (s.tdesc (key / 2 ^ 32)))
  unfold State.applyRow
  dsimp only
  generalize s.applyHome st (key / 2 ^ 32) (s.tdesc (key / 2 ^ 32)) (key % 2 ^ 32 / tdRps (s.tdesc (key / 2 ^ 32))) = r at *
  obtain ⟨s1, r⟩ := r
  dsimp only at h ⊢
  rw [← h]
  cases findingOf rows key
  all_goals cases r
  all_goals dsimp only
  all_goals repeat' split
  all_goals first | rfl | contradiction | (simp [h]; done) | (refine (State.failFeeds_pending ..).trans ?_; simp [h]; done)
@[simp] theorem State.tryApply_pending (s : State) (rows : List (Nat × RowFinding)) (st : Nat) : (s.tryApply rows st).pending = s.pending := by
  have key : ∀ (n : Nat) (x : State), (State.tryApply.go rows st n x).pending = x.pending := by
    intro n
    induction n with
    | zero => intro x; rw [State.tryApply.go]
    | succ n ih =>
      intro x
      rw [State.tryApply.go]
      split
      · rfl
      · split
        · rfl
        · refine (ih _).trans ((State.modEmbUnit_pending ..).trans (foldl_pending _ ?_ _ _))
          intro a b
          exact State.applyRow_pending ..
  exact key _ _
@[simp] theorem State.dropShares_pending (s : State) (src st tag : Nat) : (s.dropShares src st tag).pending = s.pending := by
  unfold State.dropShares
  refine (foldl_pending _ ?_ _ _).trans (State.modEmb_pending ..)
  intro a b
  exact State.tryApply_pending ..
@[simp] theorem State.stepBoundary_pending (s : State) (rows : List (Nat × RowFinding)) : (s.stepBoundary rows).pending = s.pending := by
  unfold State.stepBoundary
  refine (foldl_pending _ ?_ _ _).trans (State.setObj_pending ..)
  intro a b
  refine (State.tryApply_pending ..).trans ((foldl_pending _ ?_ _ _).trans (State.modEmbUnit_pending ..))
  intro a b
  exact State.combine_pending ..
@[simp] theorem State.failLook_pending (s : State) (l : Look) (f : XferFault) : (State.failLook s l f).pending = s.pending := by
  unfold State.failLook
  repeat' (first | (with_reducible rfl) | (simp [*]; done) | (refine (foldl_pending _ ?_ _ _).trans ?_)
                 | (refine (foldl_fst_pending _ ?_ _ _).trans ?_) | (refine (andThen_pending _ _ ?_).trans ?_) | (intro _ _) | split
                 | (simp only [Prod.ext_iff] at *; (repeat (cases ‹_ ∧ _›)); subst_vars; simp [*]; done) | dsimp only)
@[simp] theorem State.failShare_pending (s : State) (h : Share) (f : XferFault) : (State.failShare s h f).pending = s.pending := by
  unfold State.failShare
  repeat' (first | (with_reducible rfl) | (simp [*]; done) | (refine (foldl_pending _ ?_ _ _).trans ?_)
                 | (refine (foldl_fst_pending _ ?_ _ _).trans ?_) | (refine (andThen_pending _ _ ?_).trans ?_) | (intro _ _) | split
                 | (simp only [Prod.ext_iff] at *; (repeat (cases ‹_ ∧ _›)); subst_vars; simp [*]; done) | dsimp only)
@[simp] theorem State.writeLook_pending (s : State) (l : Look) : (State.writeLook s l).pending = s.pending := by
  unfold State.writeLook
  repeat' (first | (with_reducible rfl) | (simp [*]; done) | (refine (foldl_pending _ ?_ _ _).trans ?_)
                 | (refine (foldl_fst_pending _ ?_ _ _).trans ?_) | (refine (andThen_pending _ _ ?_).trans ?_) | (intro _ _) | split
                 | (simp only [Prod.ext_iff] at *; (repeat (cases ‹_ ∧ _›)); subst_vars; simp [*]; done) | dsimp only)
@[simp] theorem State.judgeLook_pending (s : State) (tag : Nat) : (State.judgeLook s tag).pending = s.pending := by
  unfold State.judgeLook
  repeat' (first | (with_reducible rfl) | (simp [*]; done) | (refine (foldl_pending _ ?_ _ _).trans ?_)
                 | (refine (foldl_fst_pending _ ?_ _ _).trans ?_) | (refine (andThen_pending _ _ ?_).trans ?_) | (intro _ _) | split
                 | (simp only [Prod.ext_iff] at *; (repeat (cases ‹_ ∧ _›)); subst_vars; simp [*]; done) | dsimp only)
@[simp] theorem State.reportShare_pending (s : State) (h : Share) : (State.reportShare s h).pending = s.pending := by
  unfold State.reportShare
  repeat' (first | (with_reducible rfl) | (simp [*]; done) | (refine (foldl_pending _ ?_ _ _).trans ?_)
                 | (refine (foldl_fst_pending _ ?_ _ _).trans ?_) | (refine (andThen_pending _ _ ?_).trans ?_) | (intro _ _) | split
                 | (simp only [Prod.ext_iff] at *; (repeat (cases ‹_ ∧ _›)); subst_vars; simp [*]; done) | dsimp only)
@[simp] theorem State.beginLook_pending (s : State) (x : Nat) (l : Look) (shares : List Share) (routes : List Route) (entries : List (Nat × Nat)) :
    (State.beginLook s x l shares routes entries).pending = s.pending := by
  unfold State.beginLook
  repeat' (first | (with_reducible rfl) | (simp [*]; done) | (refine (foldl_pending _ ?_ _ _).trans ?_)
                 | (refine (foldl_fst_pending _ ?_ _ _).trans ?_) | (refine (andThen_pending _ _ ?_).trans ?_) | (intro _ _) | split
                 | (simp only [Prod.ext_iff] at *; (repeat (cases ‹_ ∧ _›)); subst_vars; simp [*]; done) | dsimp only)
@[simp] theorem State.poolRow_pending (s : State) (h : Share) (row : Nat) (bags : List (Nat × Nat)) (rest : List (Nat × List (Nat × Nat))) (hst dpa : Nat) (fnd : RowFinding) : (State.poolRow s h row bags rest hst dpa fnd).pending = s.pending := by
  unfold State.poolRow
  repeat' (first | (with_reducible rfl) | (simp [*]; done) | (refine (foldl_pending _ ?_ _ _).trans ?_)
                 | (refine (foldl_fst_pending _ ?_ _ _).trans ?_) | (refine (andThen_pending _ _ ?_).trans ?_) | (intro _ _) | split
                 | (simp only [Prod.ext_iff] at *; (repeat (cases ‹_ ∧ _›)); subst_vars; simp [*]; done) | dsimp only)
@[simp] theorem State.routePartial_pending (s : State) (u : Upd) (table gen : Nat) (routes : List Route) (bad next : Bool) (row : Nat) (vals : List Int) : (State.routePartial s u table gen routes bad next row vals).pending = s.pending := by
  unfold State.routePartial
  repeat' (first | (with_reducible rfl) | (simp [*]; done) | (refine (foldl_pending _ ?_ _ _).trans ?_)
                 | (refine (foldl_fst_pending _ ?_ _ _).trans ?_) | (refine (andThen_pending _ _ ?_).trans ?_) | (intro _ _) | split
                 | (simp only [Prod.ext_iff] at *; (repeat (cases ‹_ ∧ _›)); subst_vars; simp [*]; done) | dsimp only)
@[simp] theorem State.takePart_pending (s : State) (l : Look) (m : Nat) : (State.takePart s l m).pending = s.pending := by
  unfold State.takePart
  repeat' (first | (with_reducible rfl) | (simp [*]; done) | (refine (foldl_pending _ ?_ _ _).trans ?_)
                 | (refine (foldl_fst_pending _ ?_ _ _).trans ?_) | (refine (andThen_pending _ _ ?_).trans ?_) | (intro _ _) | split
                 | (simp only [Prod.ext_iff] at *; (repeat (cases ‹_ ∧ _›)); subst_vars; simp [*]; done) | dsimp only)
@[simp] theorem State.endShares_pending (s : State) (src st tag : Nat) : (State.endShares s src st tag).pending = s.pending := by
  unfold State.endShares
  repeat' (first | (with_reducible rfl) | (simp [*]; done) | (refine (foldl_pending _ ?_ _ _).trans ?_)
                 | (refine (foldl_fst_pending _ ?_ _ _).trans ?_) | (refine (andThen_pending _ _ ?_).trans ?_) | (intro _ _) | split
                 | (simp only [Prod.ext_iff] at *; (repeat (cases ‹_ ∧ _›)); subst_vars; simp [*]; done) | dsimp only)
@[simp] theorem State.failTag_pending (s : State) (tag : Nat) (c : Cause) : (State.failTag s tag c).pending = s.pending := by
  unfold State.failTag
  repeat' (first | (with_reducible rfl) | (simp [*]; done) | (refine (foldl_pending _ ?_ _ _).trans ?_)
                 | (refine (foldl_fst_pending _ ?_ _ _).trans ?_) | (refine (andThen_pending _ _ ?_).trans ?_) | (intro _ _) | split
                 | (simp only [Prod.ext_iff] at *; (repeat (cases ‹_ ∧ _›)); subst_vars; simp [*]; done) | dsimp only)
@[simp] theorem State.failHome_pending (s : State) (src st tag : Nat) (c : Cause) : (State.failHome s src st tag c).pending = s.pending := by
  unfold State.failHome
  repeat' (first | (with_reducible rfl) | (simp [*]; done) | (refine (foldl_pending _ ?_ _ _).trans ?_)
                 | (refine (foldl_fst_pending _ ?_ _ _).trans ?_) | (refine (andThen_pending _ _ ?_).trans ?_) | (intro _ _) | split
                 | (simp only [Prod.ext_iff] at *; (repeat (cases ‹_ ∧ _›)); subst_vars; simp [*]; done) | dsimp only)
@[simp] theorem State.stepEdge_pending (s : State) (rows : List (Nat × RowFinding)) : (State.stepEdge s rows).pending = s.pending := by
  unfold State.stepEdge
  repeat' (first | (with_reducible rfl) | (simp [*]; done) | (refine (foldl_pending _ ?_ _ _).trans ?_)
                 | (refine (foldl_fst_pending _ ?_ _ _).trans ?_) | (refine (andThen_pending _ _ ?_).trans ?_) | (intro _ _) | split
                 | (simp only [Prod.ext_iff] at *; (repeat (cases ‹_ ∧ _›)); subst_vars; simp [*]; done) | dsimp only)
@[simp] theorem State.failOwner_pending (s : State) (o : ReqOwner) (c : Cause) : (State.failOwner s o c).pending = s.pending := by
  unfold State.failOwner
  repeat' (first | (with_reducible rfl) | (simp [*]; done) | (refine (foldl_pending _ ?_ _ _).trans ?_)
                 | (refine (foldl_fst_pending _ ?_ _ _).trans ?_) | (refine (andThen_pending _ _ ?_).trans ?_) | (intro _ _) | split
                 | (simp only [Prod.ext_iff] at *; (repeat (cases ‹_ ∧ _›)); subst_vars; simp [*]; done) | dsimp only)
@[simp] theorem State.beginUpd_pending (s : State) (r : PortReq) (h : UpdHdr) (d gen : Nat) (routes : List Route) (rows : List Nat) (fnd : RowFinding) :
    (s.beginUpd r h d gen routes rows fnd).pending = s.pending := by
  unfold State.beginUpd
  extract_lets next u s1 s2
  have h1 : s1.pending = s.pending := by rw [State.modEmb_pending, State.dropPort_pending]
  have h2 : s2.pending = s.pending := by rw [← h1]; exact foldl_pending _ (fun _ _ => State.routePartial_pending ..) _ _
  clear_value s2
  split
  · rw [State.loseEntry_pending, h2]
  · exact h2
@[simp] theorem State.arriveUpdate_pending (s : State) (p : Partial) (step : Nat) (fnd : RowFinding) :
    (s.arriveUpdate p step fnd).pending = s.pending := by
  unfold State.arriveUpdate
  extract_lets table row d
  have hh := State.stripeHome_pending s p.feed.st table d (s.gen table) (row / tdRps d) none
  clear_value table row d
  split
  · exact State.failPartial_pending ..
  split
  · exact State.failPartial_pending ..
  generalize s.stripeHome p.feed.st table d (s.gen table) (row / tdRps d) none = w at hh
  obtain ⟨s1, hm⟩ := w
  cases hm
  · dsimp only at hh ⊢
    split
    · rw [State.failPartial_pending, hh]
    split
    · rw [State.loseEntry_pending, State.combine_pending, hh]
    · rw [State.combine_pending, hh]
  all_goals dsimp only at hh ⊢
  · rw [State.relayPartial_pending, hh]
  · rw [State.failPartial_pending, hh]
  · rw [State.failPartial_pending, hh]
@[simp] theorem State.takePiece_pending (s : State) (k : Packet) (fnd : RowFinding) : (s.takePiece k fnd).pending = s.pending := by
  unfold State.takePiece
  extract_lets row e0 d mine p0 p1 rest vals
  clear_value row e0 d mine p0 p1 rest vals
  split
  · rw [State.arriveUpdate_pending, State.modEmb_pending]
  · rw [State.modEmb_pending]
theorem State.ownHome_pending {s s1 : State} {table d stripe h f : Nat} (e : s.ownHome table d stripe = some (s1, h, f)) : s1.pending = s.pending := by
  obtain ⟨st, -, e⟩ := List.exists_of_findSome?_eq_some e
  have hh := State.stripeHome_pending s st table d (s.gen table) stripe none
  generalize s.stripeHome st table d (s.gen table) stripe none = w at hh e
  obtain ⟨s2, hm⟩ := w
  cases hm <;> simp only [reduceCtorEq] at e
  split at e
  · simp only [Option.some.injEq, Prod.mk.injEq] at e
    rw [← e.1]; exact hh
  · simp at e
@[simp] theorem State.startMig_pending (s : State) (table stripe dstMod asked : Nat) (auto : Bool) :
    (s.startMig table stripe dstMod asked auto).pending = s.pending := by
  unfold State.startMig
  extract_lets d key s0
  have h0 : s0.pending = s.pending := by unfold s0; split <;> simp
  clear_value d key s0
  split
  · exact h0
  split
  · rename_i s1 st frame e
    dsimp only
    rw [State.placeMig_pending, State.modEmb_pending, State.ownHome_pending e, h0]
  · exact h0
@[simp] theorem State.moveTable_pending (s : State) (st lo t : Nat) : (s.moveTable st lo t).pending = s.pending := by
  unfold State.moveTable
  dsimp only
  split
  · rfl
  · refine foldl_pending _ (fun z i => ?_) _ _
    repeat' split
    all_goals simp
@[simp] theorem State.moveDisplaced_pending (s : State) (st : Nat) : (s.moveDisplaced st).pending = s.pending := by
  unfold State.moveDisplaced
  exact foldl_pending _ (fun _ _ => State.moveTable_pending ..) _ _
@[simp] theorem State.applyMigreq_pending (s : State) (v : Nat) : (s.applyMigreq v).pending = s.pending := by
  rw [State.applyMigreq, State.startMig_pending, State.setObj_pending]
theorem State.fetchBuffer_pending (s : State) (f : ReadFind) (q : Nat) (b : Bool) (w0 w1 : Nat) :
    (s.fetchBuffer f q b w0 w1).state.pending = s.pending := by
  unfold State.fetchBuffer
  extract_lets b' qu a len kib
  clear_value b' qu a len kib
  have hr := State.cfeRead_pending (s.storeWaits q false) f a len
  rw [State.storeWaits_pending] at hr
  generalize (s.storeWaits q false).cfeRead f a len = r at hr ⊢
  obtain ⟨s1, v⟩ := r
  have hs : (Fetched.blocked (s.storeWaits q true) 2).state.pending = s.pending := State.storeWaits_pending ..
  repeat' split
  all_goals first | exact hr | exact hs | rfl | (simp_all [Fetched.state]; done)
theorem State.fetchOne_pending (s : State) (f : ReadFind) (q : Nat) : (s.fetchOne f q).state.pending = s.pending := by
  unfold State.fetchOne
  have hb (b : Bool) (w0 w1 : Nat) (z : State) (hz : z.pending = s.pending) : (z.fetchBuffer f q b w0 w1).state.pending = s.pending :=
    (State.fetchBuffer_pending z f q b w0 w1).trans hz
  dsimp only
  split
  · rename_i w0 w1 rest _
    have h := hb true w0 w1 s rfl
    generalize s.fetchBuffer f q true w0 w1 = r at h ⊢
    cases r <;> simpa [Fetched.state] using h
  · split
    · rfl
    · generalize s.cfe.queue q = qu
      have hr := State.cfeRead_pending s f (qu.base + 16 * (qu.fhead.toNat % ringSize qu.szlogm4)) 16
      generalize s.cfeRead f (qu.base + 16 * (qu.fhead.toNat % ringSize qu.szlogm4)) 16 = r at hr ⊢
      obtain ⟨s1, v⟩ := r
      cases v
      · rename_i bs
        have h := hb false (reqWord bs 0) (reqWord bs 1) s1 hr
        dsimp only
        generalize s1.fetchBuffer f q false (reqWord bs 0) (reqWord bs 1) = r at h ⊢
        cases r <;> simpa [Fetched.state] using h
      · exact hr
      · dsimp only
        split <;> simpa [Fetched.state] using hr
@[simp] theorem State.fetchAll_pending (s : State) (f : ReadFind) (q n : Nat) : (s.fetchAll f q n).pending = s.pending := by
  induction n generalizing s with
  | zero => rfl
  | succ n ih =>
    unfold State.fetchAll
    dsimp only
    have h := State.fetchOne_pending s f q
    generalize s.fetchOne f q = w at h
    repeat' split
    all_goals simp_all [Fetched.state]
@[simp] theorem State.applyValue_pending (s : State) (k : Nat) (v : List Byte) : (s.applyValue k v).pending = s.pending := by
  unfold State.applyValue
  extract_lets idx sub n x
  have hx : x.pending = s.pending := State.setObjAt_pending ..
  clear_value idx sub n x
  repeat' split
  all_goals simp [hx]
@[simp] theorem State.commitSet_pending (s : State) (j : Nat) : (s.commitSet j).pending = s.pending := by
  unfold State.commitSet
  extract_lets set put s1
  have hp : ∀ x a b, (put x a b).pending = x.pending := by
    intro x a b; unfold put; split
    · rfl
    · exact State.journalPut_pending ..
  clear_value put
  split
  · simp [hp, s1]
  · have h3 (z : State) (hz : z.pending = s.pending) : (set.foldl (fun x w => x.applyValue w.key w.value) z).pending = s.pending :=
      (foldl_pending _ (fun _ _ => State.applyValue_pending ..) _ _).trans hz
    rw [hp]
    rename_i s2 s3 s4 _ _
    unfold s4; split
    · rw [State.modFix_pending]; exact h3 _ rfl
    · exact h3 _ rfl
@[simp] theorem State.applyWrites_pending (s : State) : s.applyWrites.pending = s.pending := by
  unfold State.applyWrites
  extract_lets p l s1 put
  have hp : ∀ x ws, (put x ws).pending = x.pending := fun x ws => foldl_pending _ (fun _ _ => State.applyValue_pending ..) _ _
  have h1 : s1.pending = s.pending := State.dropLive_pending ..
  clear_value put
  repeat' split
  all_goals simp [hp, h1]
@[simp] theorem State.mapoutSwitch_pending (s : State) (st : Nat) : (s.mapoutSwitch st).pending = s.pending := by
  unfold State.mapoutSwitch
  extract_lets k
  clear_value k
  repeat' split
  all_goals simp
@[simp] theorem State.workEdge_pending (s : State) (rows : List (Nat × RowFinding)) : (s.workEdge rows).pending = s.pending := by
  unfold State.workEdge
  simp

end Sys2Proof.Machine
end

