-- ==== Sys2Proof/Laws/Cores.lean ====
section
/-!
SUPPORT. One lemma per shared operation: the operations that leave every core as it was.
-/
set_option linter.unusedSimpArgs false
set_option linter.unusedVariables false
namespace Sys2Proof.Machine

@[simp] theorem ite_cores (c : Prop) [Decidable c] (a b : State) : (if c then a else b).cores = if c then a.cores else b.cores := by split <;> rfl
@[simp] theorem ite_fst_cores {α : Type} (c : Prop) [Decidable c] (a b : State × α) : (if c then a else b).1.cores = if c then a.1.cores else b.1.cores := by split <;> rfl
@[simp] theorem foldl_cores {α : Type} (g : State → α → State) (h : ∀ s a, (g s a).cores = s.cores) (l : List α) (s : State) : (l.foldl g s).cores = s.cores := by
  induction l generalizing s with
  | nil => rfl
  | cons a l ih => simp [ih, h]
@[simp] theorem foldl_fst_cores {α β : Type} (g : State × β → α → State × β) (h : ∀ s a, (g s a).1.cores = s.1.cores) (l : List α) (s : State × β) : (l.foldl g s).1.cores = s.1.cores := by
  induction l generalizing s with
  | nil => rfl
  | cons a l ih => simp [ih, h]
@[simp] theorem andThen_cores {α β : Type} (r : State × Moved α) (g : State → α → State × Moved β) (h : ∀ s a, (g s a).1.cores = s.cores) :
    (andThen r g).1.cores = r.1.cores := by
  unfold andThen; split <;> simp [h]
@[simp] theorem State.emitAll_cores (s : State) (l : List Output) : (State.emitAll s l).cores = s.cores := by
  simp [State.emitAll]
@[simp] theorem State.setObj_cores (s : State) (idx sub v : Nat) : (State.setObj s idx sub v).cores = s.cores := by
  simp [State.setObj]
@[simp] theorem State.msix_cores (s : State) (vec : Nat) : (State.msix s vec).cores = s.cores := by
  simp [State.msix]
@[simp] theorem State.sendPending_cores (s : State) : (State.sendPending s).cores = s.cores := by
  unfold State.sendPending
  dsimp only
  repeat' (first | (simp; done) | split | (refine (foldl_cores _ ?_ _ _).trans ?_) | (intro _ _))
@[simp] theorem State.signalErr_cores (s : State) : (State.signalErr s).cores = s.cores := by
  unfold State.signalErr
  dsimp only
  repeat' (first | (simp; done) | split)
@[simp] theorem State.sendEvent_cores (s : State) (r : ErrRec) : (State.sendEvent s r).cores = s.cores := by
  simp [State.sendEvent]
@[simp] theorem State.postNew_cores (s : State) (a : ErrArgs) : (State.postNew s a).cores = s.cores := by
  simp [State.postNew]
@[simp] theorem State.postErr_cores (s : State) (a : ErrArgs) : (State.postErr s a).cores = s.cores := by
  unfold State.postErr
  dsimp only
  repeat' (first | (simp; done) | split)
@[simp] theorem State.clearSecrets_cores (s : State) : (State.clearSecrets s).cores = s.cores := by
  simp [State.clearSecrets]
@[simp] theorem State.fatalTrigger_cores (s : State) (cause : Nat) (uk : UKind) (unit i6 i7 : Nat) :
    (State.fatalTrigger s cause uk unit i6 i7).cores = s.cores := by
  simp [State.fatalTrigger]
@[simp] theorem State.setPstate_cores (s : State) (c : Nat) (p : PState) : (State.setPstate s c p).cores = s.cores := by
  simp [State.setPstate]
@[simp] theorem State.repairRec_cores (s : State) (sev : Sev) (cause c : Nat) : (State.repairRec s sev cause c).cores = s.cores := by
  simp [State.repairRec]
@[simp] theorem State.keepClear_cores (s : State) (c : Nat) : (State.keepClear s c).cores = s.cores := by
  simp [State.keepClear]
@[simp] theorem State.startBench_cores (s : State) (c : Nat) (sub : Option Nat) : (State.startBench s c sub).cores = s.cores := by
  simp [State.startBench]
@[simp] theorem State.requestBench_cores (s : State) (c : Nat) (sub : Option Nat) : (State.requestBench s c sub).1.cores = s.cores := by
  simp [State.requestBench]
@[simp] theorem State.followUp_cores (s : State) (cause : Cause) (core dpa : Nat) : (State.followUp s cause core dpa).cores = s.cores := by
  unfold State.followUp
  dsimp only
  repeat' (first | (simp; done) | split)
@[simp] theorem State.withdraw_cores (s : State) (c : Cmd) : (State.withdraw s c).cores = s.cores := by
  simp [State.withdraw]
@[simp] theorem State.markHeld_cores (s : State) (q : Nat) : (State.markHeld s q).cores = s.cores := by
  simp [State.markHeld]
@[simp] theorem State.haltQueue_cores (s : State) (c : Cmd) (haltedPos : List Nat) : (State.haltQueue s c haltedPos).cores = s.cores := by
  unfold State.haltQueue
  refine (State.markHeld_cores ..).trans ((foldl_cores _ ?_ _ _).trans ?_)
  · intro a b
    rw [ite_cores, State.withdraw_cores, ite_self]
  · exact (State.modFix_cores ..).trans (State.modCfe_cores ..)
@[simp] theorem State.captureCard_cores (s : State) (a : FaultArgs) (c : Cmd) (rseq : Nat) : (State.captureCard s a c rseq).1.cores = s.cores := by
  unfold State.captureCard
  dsimp only
  repeat' (first | (simp; done) | split)
@[simp] theorem State.addCause_cores (s : State) (a : FaultArgs) (c : Cmd) (k : Nat) : (State.addCause s a c k).cores = s.cores := by
  unfold State.addCause
  dsimp only
  repeat' (first | (simp; done) | split)
@[simp] theorem State.faultCommand_cores (s : State) (a : FaultArgs) : (State.faultCommand s a).cores = s.cores := by
  unfold State.faultCommand
  dsimp only
  repeat' (first | (simp; done) | split)
@[simp] theorem State.recordReason_cores (s : State) (ref code : Nat) : (State.recordReason s ref code).cores = s.cores := by
  simp [State.recordReason]
@[simp] theorem State.noteEcc_cores (s : State) (p : Nat) (e : Ecc) : (State.noteEcc s p e).cores = s.cores := by
  simp [State.noteEcc]
@[simp] theorem State.modStack_cores (s : State) (k : Nat) (f : Stack → Stack) : (State.modStack s k f).cores = s.cores := by
  simp [State.modStack]
@[simp] theorem State.modSlm_cores (s : State) (k : Nat) (f : Slm → Slm) : (State.modSlm s k f).cores = s.cores := by
  simp [State.modSlm]
@[simp] theorem State.addBad_cores (s : State) (st dpa : Nat) : (State.addBad s st dpa).cores = s.cores := by
  simp [State.addBad]
@[simp] theorem State.beginMapout_cores (s : State) (st ch : Nat) : (State.beginMapout s st ch).cores = s.cores := by
  simp [State.beginMapout]
@[simp] theorem State.refuseMapout_cores (s : State) (st ch : Nat) : (State.refuseMapout s st ch).cores = s.cores := by
  simp [State.refuseMapout]
@[simp] theorem State.startMapout_cores (s : State) (st ch : Nat) : (State.startMapout s st ch).cores = s.cores := by
  simp [State.startMapout]
@[simp] theorem State.waitMapout_cores (s : State) (st ch : Nat) : (State.waitMapout s st ch).cores = s.cores := by
  simp [State.waitMapout]
@[simp] theorem State.autoMapout_cores (s : State) (st ch : Nat) : (State.autoMapout s st ch).cores = s.cores := by
  simp [State.autoMapout]
@[simp] theorem State.hbmCorrected_cores (s : State) (st l dpa : Nat) : (State.hbmCorrected s st l dpa).cores = s.cores := by
  simp [State.hbmCorrected]
@[simp] theorem State.hbmUncorrectable_cores (s : State) (st l dpa : Nat) : (State.hbmUncorrectable s st l dpa).cores = s.cores := by
  simp [State.hbmUncorrectable]
@[simp] theorem State.noteRead_cores (s : State) (dpa : Nat) (e : Ecc) : (State.noteRead s dpa e).cores = s.cores := by
  unfold State.noteRead
  repeat' (first | (simp; done) | split)
@[simp] theorem State.cacheRead_cores (s : State) (dpa cls : Nat) : (State.cacheRead s dpa cls).cores = s.cores := by
  unfold State.cacheRead
  dsimp only
  repeat' (first | (simp; done) | split)
@[simp] theorem State.foundAt_cores (s : State) (dpa : Nat) (e : Ecc) : (State.foundAt s dpa e).1.cores = s.cores := by
  unfold State.foundAt
  dsimp only
  repeat' (first | (simp; done) | split)
@[simp] theorem State.cacheWrite_cores (s : State) (dpa : Nat) (atomic : Bool) : (State.cacheWrite s dpa atomic).cores = s.cores := by
  unfold State.cacheWrite
  dsimp only
  repeat' (first | (simp; done) | split)
@[simp] theorem State.cacheInstall_cores (s : State) (k blk : Nat) : (State.cacheInstall s k blk).cores = s.cores := by
  simp [State.cacheInstall]
@[simp] theorem State.writeDram_cores (s : State) (dpa : Nat) (bs : List Byte) : (State.writeDram s dpa bs).cores = s.cores := by
  unfold State.writeDram
  dsimp only
  repeat' (first | (simp; done) | split)
@[simp] theorem State.modXl_cores (s : State) (f : Xlate → Xlate) : (State.modXl s f).cores = s.cores := by
  simp [State.modXl]
@[simp] theorem State.pageWalk_cores (s : State) (d : Nat) (xus : List Nat) (stale : Bool) (dva : Nat) (ue : Option Nat) :
    (State.pageWalk s d xus stale dva ue).1.cores = s.cores := by
  unfold State.pageWalk
  dsimp only
  repeat' (first | (simp; done) | split | (refine (foldl_cores _ ?_ _ _).trans ?_) | (intro _ _))
@[simp] theorem State.xlFault_cores (s : State) : (State.xlFault s).cores = s.cores := by
  simp [State.xlFault]
@[simp] theorem State.tlbFind_cores (s : State) (xu dva : Nat) : (State.tlbFind s xu dva).1.cores = s.cores := by
  unfold State.tlbFind
  repeat' (first | (simp; done) | split)
@[simp] theorem State.translate_cores (s : State) (xu dva : Nat) (wr : Bool) (ue : Option Nat) :
    (State.translate s xu dva wr ue).1.cores = s.cores := by
  unfold State.translate
  dsimp only
  repeat' (first | (simp; done) | split | (refine (foldl_cores _ ?_ _ _).trans ?_) | (refine (foldl_fst_cores _ ?_ _ _).trans ?_) | (intro _ _)
                 | (simp only [Prod.ext_iff] at *; (repeat (cases ‹_ ∧ _›)); subst_vars; simp; done))
@[simp] theorem State.noteMiss_cores (s : State) (id xu dva cls : Nat) : (State.noteMiss s id xu dva cls).cores = s.cores := by
  simp [State.noteMiss]
@[simp] theorem State.endMiss_cores (s : State) (m : Miss) : (State.endMiss s m).cores = s.cores := by
  simp [State.endMiss]
@[simp] theorem State.applyInvalidations_cores (s : State) : (State.applyInvalidations s).cores = s.cores := by
  simp [State.applyInvalidations]
@[simp] theorem State.setRoot_cores (s : State) (root : Nat) : (State.setRoot s root).cores = s.cores := by
  simp [State.setRoot]
@[simp] theorem State.modPort_cores (s : State) (n : Nat) (f : Port → Port) : (State.modPort s n f).cores = s.cores := by
  simp [State.modPort]
@[simp] theorem State.txNow_cores (s : State) (n : Nat) (k : Packet) : (State.txNow s n k).cores = s.cores := by
  simp [State.txNow]
@[simp] theorem State.txOn_cores (s : State) (n : Nat) (k : Packet) : (State.txOn s n k).cores = s.cores := by
  simp [State.txOn]
@[simp] theorem State.flushPort_cores (s : State) (n : Nat) : (State.flushPort s n).cores = s.cores := by
  unfold State.flushPort
  dsimp only
  repeat' (first | (simp; done) | split | (refine (foldl_cores _ ?_ _ _).trans ?_) | (intro _ _))
@[simp] theorem State.send_cores (s : State) (k : Packet) : (State.send s k).cores = s.cores := by
  unfold State.send
  repeat' (first | (simp; done) | split)
@[simp] theorem State.sendRequest_cores (s : State) (a : PktArgs) (owner : ReqOwner) : (State.sendRequest s a owner).cores = s.cores := by
  unfold State.sendRequest
  split
  · exact State.modLinks_cores ..
  · exact (State.modLinks_cores ..).trans ((State.send_cores ..).trans (State.modLinks_cores ..))
@[simp] theorem State.flushBacklog_cores (s : State) (dst : Nat) : (State.flushBacklog s dst).cores = s.cores := by
  unfold State.flushBacklog
  dsimp only
  repeat' (first | (simp; done) | split)
@[simp] theorem State.dropReq_cores (s : State) (dst eseq : Nat) : (State.dropReq s dst eseq).cores = s.cores := by
  simp [State.dropReq]
@[simp] theorem State.eack_cores (s : State) (k : Packet) (case : Nat) : (State.eack s k case).cores = s.cores := by
  unfold State.eack
  exact State.send_cores ..
@[simp] theorem State.dropPkt_cores (s : State) (n : Nat) (nak : Bool) : (State.dropPkt s n nak).cores = s.cores := by
  simp [State.dropPkt]
@[simp] theorem State.seeEpoch_cores (s : State) (k : Packet) : (State.seeEpoch s k).cores = s.cores := by
  simp [State.seeEpoch]
@[simp] theorem State.answer_cores (s : State) (k : Packet) (case : Nat) : (State.answer s k case).cores = s.cores := by
  unfold State.answer
  refine (State.eack_cores ..).trans ?_
  split
  · exact State.modLinks_cores ..
  · rfl
@[simp] theorem State.storeHost_cores (s : State) (ref : Nat) (xfer : Option (Nat × Nat)) (ring : Option Nat) (addr : Nat) (bs : List Byte) :
    (State.storeHost s ref xfer ring addr bs).cores = s.cores := by
  simp [State.storeHost]
@[simp] theorem State.askBi_cores (s : State) (lines : List Nat) (wr : Bool) : (State.askBi s lines wr).cores = s.cores := by
  unfold State.askBi
  repeat' (first | (simp; done) | split | (refine (foldl_cores _ ?_ _ _).trans ?_) | (intro _ _))
@[simp] theorem State.endBi_cores (s : State) (dpa len : Nat) : (State.endBi s dpa len).cores = s.cores := by
  simp [State.endBi]
@[simp] theorem State.modXfer_cores (s : State) (id : Nat) (f : Xfer → Xfer) : (State.modXfer s id f).cores = s.cores := by
  simp [State.modXfer]
@[simp] theorem State.placeAt_cores (s : State) (xu cls a n : Nat) (tgt : Tgt) (addr : Nat) :
    (State.placeAt s xu cls a n tgt addr).1.cores = s.cores := by
  unfold State.placeAt
  dsimp only
  repeat' (first | (simp; done) | split)
@[simp] theorem State.resolve_cores (s : State) (xu a n : Nat) (wr : Bool) (ue : Option Nat) : (State.resolve s xu a n wr ue).1.cores = s.cores := by
  unfold State.resolve
  repeat' (first | (simp; done) | split | (refine (foldl_cores _ ?_ _ _).trans ?_) | (refine (foldl_fst_cores _ ?_ _ _).trans ?_) | (intro _ _)
                 | (simp only [Prod.ext_iff] at *; (repeat (cases ‹_ ∧ _›)); subst_vars; simp; done))
@[simp] theorem State.pageOf_cores (s : State) (x : Xfer) (a : Nat) : (State.pageOf s x a).1.cores = s.cores := by
  unfold State.pageOf
  dsimp only
  repeat' (first | (simp; done) | split | (refine (foldl_cores _ ?_ _ _).trans ?_) | (refine (foldl_fst_cores _ ?_ _ _).trans ?_) | (intro _ _)
                 | (simp only [Prod.ext_iff] at *; (repeat (cases ‹_ ∧ _›)); subst_vars; simp; done))
@[simp] theorem State.srcFinding_cores (s : State) (x : Xfer) (fnd : UnitFinding) (srcs : List SrcRun) :
    (State.srcFinding s x fnd srcs).1.cores = s.cores := by
  unfold State.srcFinding
  dsimp only
  repeat' (first | (simp; done) | split | (refine (foldl_cores _ ?_ _ _).trans ?_) | (refine (foldl_fst_cores _ ?_ _ _).trans ?_) | (intro _ _)
                 | (simp only [Prod.ext_iff] at *; (repeat (cases ‹_ ∧ _›)); subst_vars; simp; done))
@[simp] theorem State.portArrive_cores (s : State) (x : Xfer) (port : Nat) (bs : List Byte) : (State.portArrive s x port bs).cores = s.cores := by
  simp [State.portArrive]
@[simp] theorem State.placesWait_cores (s : State) (wr : Bool) (l : List (Place × Nat × Nat)) : (State.placesWait s wr l).1.cores = s.cores := by
  unfold State.placesWait
  dsimp only
  repeat' (first | (simp; done) | split | (refine (foldl_fst_cores _ ?_ _ _).trans ?_) | (intro _ _))
@[simp] theorem State.oldBytes_cores (s : State) (l : List (Place × Nat × List Byte)) (ue : Nat → Bool) :
    (State.oldBytes s l ue).1.cores = s.cores := by
  unfold State.oldBytes
  repeat' (first | (simp; done) | split | (refine (foldl_cores _ ?_ _ _).trans ?_) | (refine (foldl_fst_cores _ ?_ _ _).trans ?_) | (intro _ _)
                 | (simp only [Prod.ext_iff] at *; (repeat (cases ‹_ ∧ _›)); subst_vars; simp; done))
@[simp] theorem State.takePages_cores (s : State) (x : Xfer) (r0 : List Nat) : (State.takePages s x r0).cores = s.cores := by
  induction r0 generalizing s <;> (unfold State.takePages; repeat' (first | (simp [*]; done) | split
                                                                          | (simp only [Prod.ext_iff] at *; (repeat (cases ‹_ ∧ _›)); subst_vars; simp [*]; done)))
@[simp] theorem State.nextUnit_cores (s : State) (x : Xfer) (k : Nat) : (State.nextUnit s x k).cores = s.cores := by
  simp [State.nextUnit]
@[simp] theorem State.startXfer_cores (s : State) (x : Xfer) : (State.startXfer s x).cores = s.cores := by
  simp [State.startXfer]
@[simp] theorem State.dropPort_cores (s : State) (x : Nat) : (State.dropPort s x).cores = s.cores := by
  simp [State.dropPort]
@[simp] theorem State.taskEnded_cores (s : State) (p : Nat) : (State.taskEnded s p).cores = s.cores := by
  simp [State.taskEnded]
@[simp] theorem State.modEmbUnit_cores (s : State) (st : Nat) (f : EmbUnit → EmbUnit) : (State.modEmbUnit s st f).cores = s.cores := by
  simp [State.modEmbUnit]
@[simp] theorem State.embPlace_cores (s : State) (st dva n : Nat) (wr : Bool) (ue : Option Nat) :
    (State.embPlace s st dva n wr ue).1.cores = s.cores := by
  unfold State.embPlace
  repeat' (first | (simp; done) | split | (refine (foldl_cores _ ?_ _ _).trans ?_) | (refine (foldl_fst_cores _ ?_ _ _).trans ?_) | (intro _ _)
                 | (simp only [Prod.ext_iff] at *; (repeat (cases ‹_ ∧ _›)); subst_vars; simp; done))
@[simp] theorem State.readHome_cores (s : State) (st d par stripe : Nat) (ue : Option Nat) :
    (State.readHome s st d par stripe ue).1.cores = s.cores := by
  unfold State.readHome
  repeat' (first | (simp; done) | split | (refine (foldl_cores _ ?_ _ _).trans ?_) | (refine (foldl_fst_cores _ ?_ _ _).trans ?_) | (intro _ _)
                 | (simp only [Prod.ext_iff] at *; (repeat (cases ‹_ ∧ _›)); subst_vars; simp; done))
@[simp] theorem State.homeEntry_cores (s : State) (st table d gen stripe : Nat) (ue : Option Nat) :
    (State.homeEntry s st table d gen stripe ue).1.cores = s.cores := by
  unfold State.homeEntry
  dsimp only
  repeat' (first | (simp; done) | split | (refine (foldl_cores _ ?_ _ _).trans ?_) | (refine (foldl_fst_cores _ ?_ _ _).trans ?_) | (intro _ _)
                 | (simp only [Prod.ext_iff] at *; (repeat (cases ‹_ ∧ _›)); subst_vars; simp; done))
@[simp] theorem State.stripeHome_cores (s : State) (st table d gen stripe : Nat) (ue : Option Nat) :
    (State.stripeHome s st table d gen stripe ue).1.cores = s.cores := by
  simp [State.stripeHome]
@[simp] theorem State.failEmb_cores (s : State) (st ref : Nat) (f : XferFault) : (State.failEmb s st ref f).cores = s.cores := by
  simp [State.failEmb]
@[simp] theorem State.markLate_cores (s : State) (ref code : Nat) : (State.markLate s ref code).cores = s.cores := by
  simp [State.markLate]
@[simp] theorem State.embCtl_cores (s : State) (o : ReqOwner) (dst table st tag ref step gen round : Nat) (m : CtlMsg) :
    (State.embCtl s o dst table st tag ref step gen round m).cores = s.cores := by
  simp [State.embCtl]
@[simp] theorem State.tellEntry_cores (s : State) (f : Feed) (table step gen round : Nat) (m : CtlMsg) :
    (State.tellEntry s f table step gen round m).cores = s.cores := by
  simp [State.tellEntry]
@[simp] theorem State.loseStripe_cores (s : State) (key : Nat) : (State.loseStripe s key).cores = s.cores := by
  simp [State.loseStripe]
@[simp] theorem State.sendMigBlock_cores (s : State) (dst key st frame blk : Nat) : (State.sendMigBlock s dst key st frame blk).cores = s.cores := by
  simp [State.sendMigBlock]
@[simp] theorem State.ackHome_cores (s : State) (tag home n : Nat) : (State.ackHome s tag home n).cores = s.cores := by
  unfold State.ackHome
  dsimp only
  repeat' (first | (simp; done) | split)
@[simp] theorem State.noteCombined_cores (s : State) (tag home n step : Nat) (waited : Bool) :
    (State.noteCombined s tag home n step waited).cores = s.cores := by
  unfold State.noteCombined
  dsimp only
  repeat' (first | (simp; done) | split)
@[simp] theorem State.failFeed_cores (s : State) (f : Feed) (home key : Nat) (x : XferFault) : (State.failFeed s f home key x).cores = s.cores := by
  simp [State.failFeed]
@[simp] theorem State.deferPartial_cores (s : State) (home : Nat) (p : Partial) : (State.deferPartial s home p).cores = s.cores := by
  simp [State.deferPartial]
@[simp] theorem State.loseEntry_cores (s : State) (home key : Nat) (next : Bool) : (State.loseEntry s home key next).cores = s.cores := by
  unfold State.loseEntry
  dsimp only
  repeat' (first | (simp; done) | split | (refine (foldl_cores _ ?_ _ _).trans ?_) | (intro _ _))
@[simp] theorem State.addSats_cores (s : State) (t n : Nat) : (State.addSats s t n).cores = s.cores := by
  simp [State.addSats]
@[simp] theorem State.applyHome_cores (s : State) (st t d stripe : Nat) : (State.applyHome s st t d stripe).1.cores = s.cores := by
  unfold State.applyHome
  repeat' (first | (simp; done) | split)
@[simp] theorem State.routeRow_cores (s : State) (repl : Bool) (st table d gen : Nat) (ue : Option Nat) (row : Nat) :
    (State.routeRow s repl st table d gen ue row).1.cores = s.cores := by
  unfold State.routeRow
  repeat' (first | (simp; done) | split | (refine (foldl_cores _ ?_ _ _).trans ?_) | (refine (foldl_fst_cores _ ?_ _ _).trans ?_) | (intro _ _)
                 | (simp only [Prod.ext_iff] at *; (repeat (cases ‹_ ∧ _›)); subst_vars; simp; done))
@[simp] theorem State.addShares_cores (s : State) (l : List Share) : (State.addShares s l).cores = s.cores := by
  simp [State.addShares]
@[simp] theorem State.sendParts_cores (s : State) (h : Share) : (State.sendParts s h).cores = s.cores := by
  unfold State.sendParts
  dsimp only
  repeat' (first | (simp; done) | split | (refine (foldl_cores _ ?_ _ _).trans ?_) | (intro _ _))
@[simp] theorem State.noteServed_cores (s : State) (table d home row n : Nat) (maxRun : Nat) :
    (State.noteServed s table d home row n maxRun).cores = s.cores := by
  simp [State.noteServed]
@[simp] theorem State.cacheRow_cores (s : State) (home key b : Nat) : (State.cacheRow s home key b).cores = s.cores := by
  simp [State.cacheRow]
@[simp] theorem State.failEmbPort_cores (s : State) (r : PortReq) (st : Nat) (f : XferFault) : (State.failEmbPort s r st f).cores = s.cores := by
  simp [State.failEmbPort]
@[simp] theorem State.sendIndexes_cores (s : State) (l : Look) (m : Nat) (entries : List (Nat × Nat)) :
    (State.sendIndexes s l m entries).cores = s.cores := by
  unfold State.sendIndexes
  refine (State.embCtl_cores ..).trans (foldl_cores _ ?_ _ _)
  intro a b
  exact State.sendRequest_cores ..
@[simp] theorem State.rowFound_cores (s : State) (h : Share) (hst key dpa : Nat) (fnd : RowFinding) :
    (State.rowFound s h hst key dpa fnd).1.cores = s.cores := by
  unfold State.rowFound
  dsimp only
  repeat' (first | (simp; done) | split)
@[simp] theorem State.sendUpdate_cores (s : State) (m table st tag ref step gen row : Nat) (vals : List Int) :
    (State.sendUpdate s m table st tag ref step gen row vals).cores = s.cores := by
  unfold State.sendUpdate
  repeat' (first | (simp; done) | split | (refine (foldl_cores _ ?_ _ _).trans ?_) | (intro _ _))
@[simp] theorem State.placeRepair_cores (s : State) (k : RepairKind) (touch : List Nat) : (State.placeRepair s k touch).cores = s.cores := by
  simp [State.placeRepair]
@[simp] theorem State.slowed_cores (s : State) (use : Placement → Nat) (room : Nat) : (State.slowed s use room).cores = s.cores := by
  unfold State.slowed
  dsimp only
  repeat' (first | (simp; done) | split | (refine (foldl_cores _ ?_ _ _).trans ?_) | (intro _ _))
@[simp] theorem State.slowedPort_cores (s : State) (n charged : Nat) : (State.slowedPort s n charged).cores = s.cores := by
  simp [State.slowedPort]
@[simp] theorem State.setLook_cores (s : State) (l : Look) : (State.setLook s l).cores = s.cores := by
  simp [State.setLook]
@[simp] theorem State.endRelay_cores (s : State) (r : Relay) : (State.endRelay s r).cores = s.cores := by
  simp [State.endRelay]
@[simp] theorem State.relayPartial_cores (s : State) (m home step : Nat) (p : Partial) : (State.relayPartial s m home step p).cores = s.cores := by
  simp [State.relayPartial]
@[simp] theorem State.setMig_cores (s : State) (m : Mig) : (State.setMig s m).cores = s.cores := by
  simp [State.setMig]
@[simp] theorem State.endMig_cores (s : State) (key : Nat) (st : MigSt) : (State.endMig s key st).cores = s.cores := by
  simp [State.endMig]
@[simp] theorem State.placeMig_cores (s : State) (m : Mig) : (State.placeMig s m).cores = s.cores := by
  unfold State.placeMig
  dsimp only
  repeat' (first | (simp; done) | split)
@[simp] theorem State.migAcked_cores (s : State) (key : Nat) : (State.migAcked s key).cores = s.cores := by
  unfold State.migAcked
  repeat' (first | (simp; done) | split)
@[simp] theorem State.loseBad_cores (s : State) (st : Nat) : (State.loseBad s st).cores = s.cores := by
  unfold State.loseBad
  dsimp only
  repeat' (first | (simp; done) | split | (refine (foldl_cores _ ?_ _ _).trans ?_) | (intro _ _))
@[simp] theorem State.dropHmap_cores (s : State) (p : Nat → Bool) : (State.dropHmap s p).cores = s.cores := by
  unfold State.dropHmap
  repeat' (first | (simp; done) | split | (refine (foldl_cores _ ?_ _ _).trans ?_) | (intro _ _))
@[simp] theorem State.moveEntries_cores (s : State) (d key a b : Nat) : (State.moveEntries s d key a b).cores = s.cores := by
  simp [State.moveEntries]
@[simp] theorem State.setTbldesc_cores (s : State) (t v : Nat) : (State.setTbldesc s t v).cores = s.cores := by
  simp [State.setTbldesc]
@[simp] theorem State.armHmap_cores (s : State) (t v : Nat) : (State.armHmap s t v).cores = s.cores := by
  simp [State.armHmap]
@[simp] theorem State.applyMigrelease_cores (s : State) (v : Nat) : (State.applyMigrelease s v).cores = s.cores := by
  simp [State.applyMigrelease]
@[simp] theorem State.handOver_cores (s : State) (m : Mig) : (State.handOver s m).cores = s.cores := by
  unfold State.handOver
  dsimp only
  repeat' (first | (simp; done) | split | (refine (foldl_cores _ ?_ _ _).trans ?_) | (intro _ _))
@[simp] theorem State.eachEmb_cores (s : State) (f : State → Nat → State) (h_f : ∀ z y0, (f z y0).cores = z.cores) :
    (State.eachEmb s f).cores = s.cores := by
  unfold State.eachEmb
  repeat' (first | (simp [*]; done) | split | (refine (foldl_cores _ ?_ _ _).trans ?_) | (intro _ _))
@[simp] theorem State.replEdge_cores (s : State) : (State.replEdge s).cores = s.cores := by
  unfold State.replEdge
  dsimp only
  repeat' (first | (simp; done) | split | (refine (foldl_cores _ ?_ _ _).trans ?_) | (intro _ _))
@[simp] theorem State.modRally_cores (s : State) (e : Nat) (f : Rally → Rally) : (State.modRally s e f).cores = s.cores := by
  simp [State.modRally]
@[simp] theorem State.endRally_cores (s : State) (e : Nat) : (State.endRally s e).cores = s.cores := by
  simp [State.endRally]
@[simp] theorem State.sendTile_cores (s : State) (e : Nat) : (State.sendTile s e).cores = s.cores := by
  unfold State.sendTile
  dsimp only
  repeat' (first | (simp; done) | split | (refine (foldl_cores _ ?_ _ _).trans ?_) | (intro _ _))
@[simp] theorem State.sendVerdict_cores (s : State) (e verdict : Nat) (anchor : Int) (sums : Bool) :
    (State.sendVerdict s e verdict anchor sums).cores = s.cores := by
  unfold State.sendVerdict
  refine foldl_cores _ ?_ _ _
  intro a b
  dsimp only
  split
  · refine foldl_cores _ ?_ _ _
    intro x i
    exact State.sendRequest_cores ..
  · exact State.sendRequest_cores ..
@[simp] theorem State.rallyRefused_cores (s : State) (k : Packet) (case : Nat) : (State.rallyRefused s k case).1.cores = s.cores := by
  simp [State.rallyRefused]
@[simp] theorem State.forwardVerdict_cores (s : State) (e : Nat) (k : Packet) : (State.forwardVerdict s e k).cores = s.cores := by
  unfold State.forwardVerdict
  dsimp only
  repeat' (first | (simp; done) | split | (refine (foldl_cores _ ?_ _ _).trans ?_) | (intro _ _))
@[simp] theorem State.judgeWindow_cores (s : State) (n : Nat) (k : Packet) (len : Nat) (wr : Bool) (ue : Option Nat) :
    (State.judgeWindow s n k len wr ue).1.cores = s.cores := by
  unfold State.judgeWindow
  dsimp only
  repeat' (first | (simp; done) | split | (refine (foldl_cores _ ?_ _ _).trans ?_) | (refine (foldl_fst_cores _ ?_ _ _).trans ?_) | (intro _ _)
                 | (simp only [Prod.ext_iff] at *; (repeat (cases ‹_ ∧ _›)); subst_vars; simp; done))
@[simp] theorem State.windowRefused_cores (s : State) (k : Packet) (case : Nat) : (State.windowRefused s k case).cores = s.cores := by
  simp [State.windowRefused]
@[simp] theorem State.windowRead_cores (s : State) (cls : Nat) (e : Ecc) (runs : List (Place × Nat × Nat)) :
    (State.windowRead s cls e runs).1.cores = s.cores := by
  unfold State.windowRead
  dsimp only
  repeat' (first | (simp; done) | split | (refine (foldl_fst_cores _ ?_ _ _).trans ?_) | (intro _ _))
@[simp] theorem State.noteRetry_cores (s : State) (r : E2e) : (State.noteRetry s r).cores = s.cores := by
  unfold State.noteRetry
  repeat' (first | (simp; done) | split)
@[simp] theorem State.resend_cores (s : State) (r : E2e) (f : E2e → E2e) : (State.resend s r f).cores = s.cores := by
  unfold State.resend
  dsimp only
  repeat' (first | (simp; done) | split)
@[simp] theorem State.linkErr_cores (s : State) (n cause : Nat) (sev : Sev) (l : Option Nat) : (State.linkErr s n cause sev l).cores = s.cores := by
  simp [State.linkErr]
@[simp] theorem State.portDown_cores (s : State) (n : Nat) : (State.portDown s n).cores = s.cores := by
  simp [State.portDown]
@[simp] theorem State.settlePort_cores (s : State) (n : Nat) : (State.settlePort s n).cores = s.cores := by
  simp [State.settlePort]
@[simp] theorem State.linkEdge_cores (s : State) : (State.linkEdge s).cores = s.cores := by
  unfold State.linkEdge
  dsimp only
  repeat' (first | (simp; done) | split | (refine (foldl_cores _ ?_ _ _).trans ?_) | (intro _ _))
@[simp] theorem State.sendControl_cores (s : State) (n : Nat) : (State.sendControl s n).cores = s.cores := by
  simp [State.sendControl]
@[simp] theorem State.resendHeld_cores (s : State) (n : Nat) : (State.resendHeld s n).cores = s.cores := by
  unfold State.resendHeld
  dsimp only
  repeat' (first | (simp; done) | split | (refine (foldl_cores _ ?_ _ _).trans ?_) | (intro _ _))
@[simp] theorem State.retry_cores (s : State) (n : Nat) : (State.retry s n).cores = s.cores := by
  unfold State.retry
  dsimp only
  repeat' (first | (simp; done) | split | (refine (foldl_cores _ ?_ _ _).trans ?_) | (intro _ _))
@[simp] theorem State.ackHeld_cores (s : State) (n ack : Nat) : (State.ackHeld s n ack).cores = s.cores := by
  simp [State.ackHeld]
@[simp] theorem State.beginReplace_cores (s : State) (n l pos : Nat) (reactive : Bool) : (State.beginReplace s n l pos reactive).cores = s.cores := by
  unfold State.beginReplace
  repeat' (first | (simp; done) | split)
@[simp] theorem State.takeTrigger_cores (s : State) (n : Nat) (k : Trigger) : (State.takeTrigger s n k).cores = s.cores := by
  unfold State.takeTrigger
  dsimp only
  repeat' (first | (simp; done) | split)
@[simp] theorem State.nextTrigger_cores (s : State) (n : Nat) : (State.nextTrigger s n).cores = s.cores := by
  unfold State.nextTrigger
  repeat' (first | (simp; done) | split | (refine (foldl_cores _ ?_ _ _).trans ?_) | (intro _ _))
@[simp] theorem State.applyRetrain_cores (s : State) (n l v : Nat) : (State.applyRetrain s n l v).cores = s.cores := by
  simp [State.applyRetrain]
@[simp] theorem State.applyPin_cores (s : State) (n l : Nat) : (State.applyPin s n l).cores = s.cores := by
  simp [State.applyPin]
@[simp] theorem State.applyModid_cores (s : State) (v : Nat) : (State.applyModid s v).cores = s.cores := by
  simp [State.applyModid]
@[simp] theorem State.charge_cores (s : State) (ref : Nat) (l : List Placement) : (State.charge s ref l).cores = s.cores := by
  simp [State.charge]
@[simp] theorem State.setCad_cores (s : State) (c : CadState) : (State.setCad s c).cores = s.cores := by
  unfold State.setCad
  dsimp only
  repeat' (first | (simp; done) | split)
@[simp] theorem State.announce_cores (s : State) (e : Nat) (c : CadState) (hold : Nat) : (State.announce s e c hold).cores = s.cores := by
  simp [State.announce]
@[simp] theorem State.stray_cores (s : State) : (State.stray s).cores = s.cores := by
  simp [State.stray]
@[simp] theorem State.relockPulse_cores (s : State) : (State.relockPulse s).cores = s.cores := by
  unfold State.relockPulse
  dsimp only
  repeat' (first | (simp; done) | split)
@[simp] theorem State.applyCadsrc_cores (s : State) (v : Nat) : (State.applyCadsrc s v).cores = s.cores := by
  unfold State.applyCadsrc
  dsimp only
  repeat' (first | (simp; done) | split)
@[simp] theorem State.cadsrcFree_cores (s : State) : (State.cadsrcFree s).cores = s.cores := by
  unfold State.cadsrcFree
  dsimp only
  repeat' (first | (simp; done) | split)
@[simp] theorem State.applyFixcommit_cores (s : State) (v : Nat) : (State.applyFixcommit s v).cores = s.cores := by
  simp [State.applyFixcommit]
@[simp] theorem State.tableEdge_cores (s : State) : (State.tableEdge s).cores = s.cores := by
  unfold State.tableEdge
  split
  · rfl
  · split
    · rfl
    · refine (State.modFix_cores ..).trans ((foldl_cores _ ?_ _ _).trans (foldl_cores _ ?_ _ _))
      · intro a b
        split
        · rfl
        · exact State.setObj_cores ..
      · intro a b
        exact State.setObj_cores ..
@[simp] theorem State.winRead_cores (s : State) (a n w off : Nat) : (State.winRead s a n w off).1.cores = s.cores := by
  unfold State.winRead
  dsimp only
  repeat' (first | (simp; done) | split)
@[simp] theorem State.settle_cores (s : State) (q : Nat) : (State.settle s q).cores = s.cores := by
  simp [State.settle]
@[simp] theorem State.takeBuffer_cores (s : State) (b : Buffer) : (State.takeBuffer s b).cores = s.cores := by
  unfold State.takeBuffer
  dsimp only
  repeat' (first | (simp; done) | split)
@[simp] theorem State.signalRing_cores (s : State) (r : Nat) : (State.signalRing s r).cores = s.cores := by
  unfold State.signalRing
  dsimp only
  repeat' (first | (simp; done) | split)
@[simp] theorem State.ringLost_cores (s : State) (r : Nat) : (State.ringLost s r).cores = s.cores := by
  simp [State.ringLost]
@[simp] theorem State.storeWaits_cores (s : State) (q : Nat) (on : Bool) : (State.storeWaits s q on).cores = s.cores := by
  simp [State.storeWaits]
@[simp] theorem State.cfeFault_cores (s : State) (eng : Engine) (ref : Nat) (x : XferFault) : (State.cfeFault s eng ref x).cores = s.cores := by
  simp [State.cfeFault]
@[simp] theorem State.refuse_cores (s : State) (c : Cmd) (cls : Option Class) (st : Status) (reason : Nat) :
    (State.refuse s c cls st reason).cores = s.cores := by
  unfold State.refuse
  dsimp only
  repeat' (first | (simp; done) | split)
@[simp] theorem State.postRequests_cores (s : State) (c : Cmd) (l : List (Nat × Nat)) : (State.postRequests s c l).cores = s.cores := by
  unfold State.postRequests
  dsimp only
  repeat' (first | (simp; done) | split | (refine (foldl_cores _ ?_ _ _).trans ?_) | (intro _ _))
@[simp] theorem State.endDestroy_cores (s : State) (q : Nat) : (State.endDestroy s q).cores = s.cores := by
  unfold State.endDestroy
  dsimp only
  repeat' (first | (simp; done) | split)
@[simp] theorem State.posted_cores (s : State) (c : Cmd) (st : Status) : (State.posted s c st).cores = s.cores := by
  unfold State.posted
  dsimp only
  repeat' (first | (simp; done) | split)
@[simp] theorem State.finish_cores (s : State) (q : Nat) : (State.finish s q).cores = s.cores := by
  simp [State.finish]
@[simp] theorem State.adminDone_cores (s : State) (c : Cmd) (st : Status) (err : Nat) (inl : List Byte) :
    (State.adminDone s c st err inl).cores = s.cores := by
  simp [State.adminDone]
@[simp] theorem State.adminErr_cores (s : State) (c : Cmd) (err : Nat) : (State.adminErr s c err).cores = s.cores := by
  simp [State.adminErr]
@[simp] theorem State.dropUntaken_cores (s : State) (q : Nat) : (State.dropUntaken s q).cores = s.cores := by
  simp [State.dropUntaken]
@[simp] theorem State.cancelAll_cores (s : State) (q : Nat) (p : Cmd → Bool) : (State.cancelAll s q p).cores = s.cores := by
  unfold State.cancelAll
  dsimp only
  repeat' (first | (simp; done) | split | (refine (foldl_cores _ ?_ _ _).trans ?_) | (intro _ _))
@[simp] theorem State.endFaulted_cores (s : State) (q : Nat) : (State.endFaulted s q).cores = s.cores := by
  simp [State.endFaulted]
@[simp] theorem State.applyQuotas_cores (s : State) : (State.applyQuotas s).cores = s.cores := by
  simp [State.applyQuotas]
@[simp] theorem State.setAtt_cores (s : State) (a : AttState) : (State.setAtt s a).cores = s.cores := by
  simp [State.setAtt]
@[simp] theorem State.attachEdge_cores (s : State) : (State.attachEdge s).cores = s.cores := by
  simp [State.attachEdge]
@[simp] theorem State.otpBlow_cores (s : State) (mask : Nat) : (State.otpBlow s mask).cores = s.cores := by
  simp [State.otpBlow]
@[simp] theorem State.random_cores (s : State) (n : Nat) : (State.random s n).1.cores = s.cores := by
  simp [State.random]
@[simp] theorem State.securityRec_cores (s : State) (sev : Sev) (cause id : Nat) : (State.securityRec s sev cause id).cores = s.cores := by
  simp [State.securityRec]
@[simp] theorem State.freePlace_cores (s : State) (pos : Nat) : (State.freePlace s pos).cores = s.cores := by
  simp [State.freePlace]
@[simp] theorem State.endBench_cores (s : State) : (State.endBench s).cores = s.cores := by
  unfold State.endBench
  dsimp only
  repeat' (first | (simp; done) | split)
@[simp] theorem State.cancelBench_cores (s : State) (c : Nat) : (State.cancelBench s c).cores = s.cores := by
  unfold State.cancelBench
  repeat' (first | (simp; done) | split)
@[simp] theorem State.returnBench_cores (s : State) (p : Nat) : (State.returnBench s p).cores = s.cores := by
  unfold State.returnBench
  repeat' (first | (simp; done) | split)
@[simp] theorem State.applyBenchreq_cores (s : State) (p v : Nat) : (State.applyBenchreq s p v).cores = s.cores := by
  simp [State.applyBenchreq]
@[simp] theorem State.replace_cores (s : State) (c : Cmd) (ords : List Nat) : (State.replace s c ords).cores = s.cores := by
  unfold State.replace
  dsimp only
  repeat' (first | (simp; done) | split)
@[simp] theorem State.setBist_cores (s : State) (c : Nat) (pend mb lb : Bool) : (State.setBist s c pend mb lb).cores = s.cores := by
  unfold State.setBist
  exact State.modRepair_cores ..
@[simp] theorem State.closePos_cores (s : State) (p : Nat) : (State.closePos s p).cores = s.cores := by
  simp [State.closePos]
@[simp] theorem State.toSpare_cores (s : State) (c : Nat) : (State.toSpare s c).cores = s.cores := by
  simp [State.toSpare]
@[simp] theorem State.slotBist_cores (s : State) (c : Nat) (pass : Bool) : (State.slotBist s c pass).cores = s.cores := by
  simp [State.slotBist]
@[simp] theorem State.applyBistrun_cores (s : State) (c : Nat) : (State.applyBistrun s c).cores = s.cores := by
  simp [State.applyBistrun]
@[simp] theorem State.applyFuserepair_cores (s : State) (v : Nat) : (State.applyFuserepair s v).cores = s.cores := by
  simp [State.applyFuserepair]
@[simp] theorem State.applyToken_cores (s : State) : (State.applyToken s).cores = s.cores := by
  simp [State.applyToken]
@[simp] theorem State.blowAll_cores (s : State) (errs : List Nat) (r0 : Nat) : (State.blowAll s errs r0).cores = s.cores := by
  induction r0 generalizing s with
  | zero => rfl
  | succ n ih =>
    rw [State.blowAll]
    split
    · rfl
    · split
      · exact State.postErr_cores ..
      · dsimp only
        split
        · rw [ih, State.postErr_cores, State.modRepair_cores]
        · rw [ih, State.modRepair_cores, State.modRepair_cores]
@[simp] theorem State.setErqhead_cores (s : State) (mgmt : Bool) (v : Nat) : (State.setErqhead s mgmt v).cores = s.cores := by
  simp [State.setErqhead]
@[simp] theorem State.freeCard_cores (s : State) (k : Nat) : (State.freeCard s k).cores = s.cores := by
  simp [State.freeCard]
@[simp] theorem State.trigger_cores (s : State) (r0 : FatalTrigger) : (State.trigger s r0).cores = s.cores := by
  induction r0 generalizing s <;> simp [State.trigger, *]
@[simp] theorem State.xcDrawn_cores (s : State) : (State.xcDrawn s).cores = s.cores := by
  simp [State.xcDrawn]
@[simp] theorem State.xcPass_cores (s : State) (l : List Nat) : (State.xcPass s l).cores = s.cores := by
  simp [State.xcPass]
@[simp] theorem State.xcEdge_cores (s : State) : (State.xcEdge s).cores = s.cores := by
  simp [State.xcEdge]
@[simp] theorem State.xcCount_cores (s : State) (touch : List Nat) (fails : Nat) : (State.xcCount s touch fails).cores = s.cores := by
  simp [State.xcCount]
@[simp] theorem State.xcVerdict_cores (s : State) (r : XcRun) (third : Nat) : (State.xcVerdict s r third).cores = s.cores := by
  simp [State.xcVerdict]
@[simp] theorem State.xcRec_cores (s : State) (sev : Sev) (cause c other third off : Nat) :
    (State.xcRec s sev cause c other third off).cores = s.cores := by
  simp [State.xcRec]
@[simp] theorem State.hostEdge_cores (s : State) : (State.hostEdge s).cores = s.cores := by
  unfold State.hostEdge
  repeat' (first | (simp; done) | split)
@[simp] theorem State.snoopAdd_cores (s : State) (line : Nat) : (State.snoopAdd s line).cores = s.cores := by
  unfold State.snoopAdd
  dsimp only
  repeat' (first | (simp; done) | split)
@[simp] theorem State.primaryMailbox_cores (s : State) (opcode : Nat) : (State.primaryMailbox s opcode).cores = s.cores := by
  simp [State.primaryMailbox]
@[simp] theorem State.powerRec_cores (s : State) (sev : Sev) (cause num : Nat) (reading : Int) :
    (State.powerRec s sev cause num reading).cores = s.cores := by
  simp [State.powerRec]
@[simp] theorem State.modRail_cores (s : State) (d : Nat) (f : Rail → Rail) : (State.modRail s d f).cores = s.cores := by
  simp [State.modRail]
@[simp] theorem State.avsRail_cores (s : State) (d margin mv da : Nat) (fail : Bool) : (State.avsRail s d margin mv da fail).cores = s.cores := by
  simp [State.avsRail]
@[simp] theorem State.sample_cores (s : State) (n : Nat) (v med : Int) : (State.sample s n v med).cores = s.cores := by
  simp [State.sample]
@[simp] theorem State.noteDead_cores (s : State) (x : Nat × Nat) : (State.noteDead s x).cores = s.cores := by
  simp [State.noteDead]
@[simp] theorem State.powerEdge_cores (s : State) (watts : Nat) : (State.powerEdge s watts).cores = s.cores := by
  simp [State.powerEdge]
@[simp] theorem State.applyMapout_cores (s : State) (st ch : Nat) : (State.applyMapout s st ch).cores = s.cores := by
  simp [State.applyMapout]
@[simp] theorem State.applyUnitmode_cores (s : State) (k u v : Nat) : (State.applyUnitmode s k u v).cores = s.cores := by
  simp [State.applyUnitmode]
@[simp] theorem State.applyRegulator_cores (s : State) (k n : Nat) : (State.applyRegulator s k n).cores = s.cores := by
  simp [State.applyRegulator]
@[simp] theorem State.entry_cores (s : State) (kind route eid key keyid : Nat) (old new : List Byte) :
    (State.entry s kind route eid key keyid old new).cores = s.cores := by
  simp [State.entry]
@[simp] theorem State.signedEntry_cores (s : State) (kind key : Nat) (nonce : List Byte) : (State.signedEntry s kind key nonce).cores = s.cores := by
  simp [State.signedEntry]
@[simp] theorem State.autoCheckpoint_cores (s : State) : (State.autoCheckpoint s).cores = s.cores := by
  simp [State.autoCheckpoint]
@[simp] theorem State.journalPut_cores (s : State) (kind route eid key keyid : Nat) (old new : List Byte) :
    (State.journalPut s kind route eid key keyid old new).1.cores = s.cores := by
  simp [State.journalPut]
@[simp] theorem State.genesis_cores (s : State) (nonce : List Byte) : (State.genesis s nonce).cores = s.cores := by
  simp [State.genesis]
@[simp] theorem State.checkpoint_cores (s : State) (nonce : List Byte) : (State.checkpoint s nonce).cores = s.cores := by
  simp [State.checkpoint]
@[simp] theorem State.flashPut_cores (s : State) (a : Nat) (bs : List Byte) : (State.flashPut s a bs).cores = s.cores := by
  simp [State.flashPut]
@[simp] theorem State.flashErase_cores (s : State) (a n : Nat) : (State.flashErase s a n).cores = s.cores := by
  simp [State.flashErase]
@[simp] theorem State.flashAnd_cores (s : State) (a v : Nat) : (State.flashAnd s a v).cores = s.cores := by
  simp [State.flashAnd]
@[simp] theorem State.setFw_cores (s : State) (f : FwState) (e : Nat) : (State.setFw s f e).cores = s.cores := by
  simp [State.setFw]
@[simp] theorem State.applyFwaction_cores (s : State) (v : Nat) : (State.applyFwaction s v).cores = s.cores := by
  simp [State.applyFwaction]
@[simp] theorem State.selectBank_cores (s : State) (notes : List Nat) (r0 : List Nat) : (State.selectBank s notes r0).1.cores = s.cores := by
  induction r0 generalizing s notes with
  | nil => rfl
  | cons b l ih =>
    have h : ∀ (c : Prop) [Decidable c] (m : Table Byte), (if c then { s with flash := m } else s).cores = s.cores := by
      intro c _ m
      split <;> rfl
    rw [State.selectBank]
    split
    · exact ih ..
    · extract_lets n s1 p
      have h1 : s1.cores = s.cores := h ..
      split
      · exact (ih ..).trans h1
      · split
        · exact (ih ..).trans h1
        · exact h1
@[simp] theorem State.startImage_cores (s : State) (b bs : Nat) : (State.startImage s b bs).cores = s.cores := by
  simp [State.startImage]
@[simp] theorem State.startCount_cores (s : State) (fails : Bool) : (State.startCount s fails).cores = s.cores := by
  simp [State.startCount]
@[simp] theorem State.softRows_cores (s : State) (l : List (Nat × Nat × Nat × Nat)) : (State.softRows s l).cores = s.cores := by
  unfold State.softRows
  repeat' (first | (simp; done) | split | (refine (foldl_cores _ ?_ _ _).trans ?_) | (intro _ _))
@[simp] theorem State.withFree_cores (s : State) (n : Nat) : (State.withFree s n).cores = s.cores := by
  simp [State.withFree]
@[simp] theorem State.startFirmware_cores (s : State) (f : BootFinds) (notes : List Nat) : (State.startFirmware s f notes).cores = s.cores := by
  have h : ∀ (b : Bool) (x : State), (if b then (x.modSec (fun y => { y with certBad := true })).securityRec .degraded 0x09 0 else x).cores = x.cores := by
    intro b x
    rw [ite_cores, State.securityRec_cores, State.modSec_cores, ite_self]
  unfold State.startFirmware
  refine (State.startCount_cores ..).trans ((State.softRows_cores ..).trans ((State.withFree_cores ..).trans ((State.genesis_cores ..).trans
    ((State.modSec_cores ..).trans ((h ..).trans ?_)))))
  refine foldl_cores _ ?_ _ _
  intro a b
  exact State.securityRec_cores ..
@[simp] theorem State.bootFrom_cores (s : State) (since strap : Nat) (f : BootFinds) : (State.bootFrom s since strap f).cores = s.cores := by
  unfold State.bootFrom
  dsimp only
  repeat' (first | (simp; done) | split | (refine (foldl_cores _ ?_ _ _).trans ?_) | (refine (foldl_fst_cores _ ?_ _ _).trans ?_) | (intro _ _)
                 | (simp only [Prod.ext_iff] at *; (repeat (cases ‹_ ∧ _›)); subst_vars; simp; done))
@[simp] theorem State.given_cores (s : State) (b : Board) : (State.given s b).cores = s.cores := by
  unfold State.given
  dsimp only
  repeat' (first | (simp; done) | split | (refine (foldl_cores _ ?_ _ _).trans ?_) | (intro _ _))
@[simp] theorem State.mapUntrained_cores (s : State) (st ch : Nat) : (State.mapUntrained s st ch).cores = s.cores := by
  simp [State.mapUntrained]
@[simp] theorem State.startCore_cores (s : State) (finds : List BistFind) (c : Nat) : (State.startCore s finds c).cores = s.cores := by
  unfold State.startCore
  dsimp only
  split
  · exact State.setPstate_cores ..
  · split
    · exact State.setPstate_cores ..
    · split
      · exact (State.repairRec_cores ..).trans ((State.setPstate_cores ..).trans (State.setBist_cores ..))
      · split
        · exact (State.repairRec_cores ..).trans ((State.setPstate_cores ..).trans (State.setBist_cores ..))
        · split
          · exact (State.repairRec_cores ..).trans ((State.setPstate_cores ..).trans ((State.repairRec_cores ..).trans ((State.modRepair_cores ..).trans (State.setBist_cores ..))))
          · exact (State.repairRec_cores ..).trans ((State.setPstate_cores ..).trans ((State.modRepair_cores ..).trans (State.setBist_cores ..)))
@[simp] theorem State.assign_cores (s : State) (p : Nat) : (State.assign s p).cores = s.cores := by
  unfold State.assign
  dsimp only
  repeat' (first | (simp; done) | split)
@[simp] theorem State.respond_cores (s : State) (o : Origin) (op key : Nat) (pend : Bool) (r : Resp) :
    (State.respond s o op key pend r).cores = s.cores := by
  simp [State.respond]
@[simp] theorem State.take_cores (s : State) (o : Origin) : (State.take s o).cores = s.cores := by
  simp [State.take]
@[simp] theorem State.armCommit_cores (s : State) (jseq v : Nat) : (State.armCommit s jseq v).1.cores = s.cores := by
  simp [State.armCommit]
@[simp] theorem State.discard_cores (s : State) : (State.discard s).cores = s.cores := by
  simp [State.discard]
@[simp] theorem State.stage_cores (s : State) (w : Waiting) : (State.stage s w).cores = s.cores := by
  simp [State.stage]
@[simp] theorem State.noteRefusal_cores (s : State) (o : Origin) (key n : Nat) (r : Resp) : (State.noteRefusal s o key n r).cores = s.cores := by
  simp [State.noteRefusal]
@[simp] theorem State.request_cores (s : State) (op : Nat) (r : Req) (f : State → Origin → State) (h_f : ∀ z y0, (f z y0).cores = z.cores) :
    (State.request s op r f).cores = s.cores := by
  unfold State.request
  dsimp only
  repeat' (first | (simp [*]; done) | split)
@[simp] theorem State.drawn_cores (s : State) : (State.drawn s).cores = s.cores := by
  simp [State.drawn]
@[simp] theorem State.spdmAnswer_cores (s : State) (transport eid session : Nat) (name : SpdmRsp) (vals : List Nat) (data : List Byte) :
    (State.spdmAnswer s transport eid session name vals data).cores = s.cores := by
  simp [State.spdmAnswer]
@[simp] theorem State.spdmRsp_cores (s : State) (o : Origin) (name : SpdmRsp) (vals : List Nat) (data : List Byte) :
    (State.spdmRsp s o name vals data).cores = s.cores := by
  simp [State.spdmRsp]
@[simp] theorem State.spdmErr_cores (s : State) (o : Origin) (e : SpdmErr) : (State.spdmErr s o e).cores = s.cores := by
  simp [State.spdmErr]
@[simp] theorem State.notReady_cores (s : State) (w : SigWait) : (State.notReady s w).cores = s.cores := by
  simp [State.notReady]
@[simp] theorem State.deferSigs_cores (s : State) : (State.deferSigs s).cores = s.cores := by
  unfold State.deferSigs
  dsimp only
  repeat' (first | (simp; done) | split | (refine (foldl_cores _ ?_ _ _).trans ?_) | (intro _ _))
@[simp] theorem State.withCert_cores (s : State) (o : Origin) (slot : Nat) (f : State → State) (h_f : ∀ z, (f z).cores = z.cores) :
    (State.withCert s o slot f).cores = s.cores := by
  simp [State.withCert, *]
@[simp] theorem State.signed_cores (s : State) (o : Origin) (session code arg : Nat) (body : List Byte) :
    (State.signed s o session code arg body).cores = s.cores := by
  unfold State.signed
  dsimp only
  repeat' (first | (simp; done) | split | (refine (foldl_cores _ ?_ _ _).trans ?_) | (refine (foldl_fst_cores _ ?_ _ _).trans ?_) | (intro _ _)
                 | (simp only [Prod.ext_iff] at *; (repeat (cases ‹_ ∧ _›)); subst_vars; simp; done))
@[simp] theorem State.setChunking_cores (s : State) (c : Chunking) : (State.setChunking s c).cores = s.cores := by
  simp [State.setChunking]
@[simp] theorem State.sendSigned_cores (s : State) (w : SigWait) : (State.sendSigned s w).cores = s.cores := by
  unfold State.sendSigned
  dsimp only
  repeat' (first | (simp; done) | split)
@[simp] theorem State.endSession_cores (s : State) (id : Nat) : (State.endSession s id).cores = s.cores := by
  simp [State.endSession]
@[simp] theorem State.inSession_cores (s : State) (o : Origin) (hand : Bool) (f : State → Session → State) (h_f : ∀ z y0, (f z y0).cores = z.cores) :
    (State.inSession s o hand f).cores = s.cores := by
  unfold State.inSession
  repeat' (first | (simp [*]; done) | split)
@[simp] theorem State.modSession_cores (s : State) (id : Nat) (f : Session → Session) : (State.modSession s id f).cores = s.cores := by
  simp [State.modSession]
@[simp] theorem State.beginEdge_cores (s : State) (e : Nat) : (State.beginEdge s e).cores = s.cores := by
  unfold State.beginEdge
  dsimp only
  repeat' (first | (simp; done) | split)
@[simp] theorem State.dropLive_cores (s : State) (p : Nat → Bool) : (State.dropLive s p).cores = s.cores := by
  simp [State.dropLive]
@[simp] theorem State.fixEdge_cores (s : State) : (State.fixEdge s).cores = s.cores := by
  unfold State.fixEdge
  refine (State.tableEdge_cores ..).trans ((foldl_cores _ ?_ _ _).trans (State.dropLive_cores ..))
  intro a b
  exact State.applyFixcommit_cores ..
@[simp] theorem State.regulatorEdge_cores (s : State) : (State.regulatorEdge s).cores = s.cores := by
  unfold State.regulatorEdge
  repeat' (first | (simp; done) | split | (refine (foldl_cores _ ?_ _ _).trans ?_) | (intro _ _))
@[simp] theorem State.checkpointEdge_cores (s : State) : (State.checkpointEdge s).cores = s.cores := by
  unfold State.checkpointEdge
  dsimp only
  repeat' (first | (simp; done) | split | (refine (foldl_cores _ ?_ _ _).trans ?_) | (intro _ _))
@[simp] theorem State.mapoutRec_cores (s : State) (st : Nat) : (State.mapoutRec s st).cores = s.cores := by
  simp [State.mapoutRec]
@[simp] theorem State.slowedStack_cores (s : State) (st : Nat) : (State.slowedStack s st).cores = s.cores := by
  unfold State.slowedStack
  repeat' (first | (simp; done) | split | (refine (foldl_cores _ ?_ _ _).trans ?_) | (intro _ _))
@[simp] theorem State.mapoutCopy_cores (s : State) (st : Nat) : (State.mapoutCopy s st).cores = s.cores := by
  simp [State.mapoutCopy]
@[simp] theorem State.eachStack_cores (s : State) (f : State → Nat → State) (h_f : ∀ z y0, (f z y0).cores = z.cores) :
    (State.eachStack s f).cores = s.cores := by
  unfold State.eachStack
  repeat' (first | (simp [*]; done) | split | (refine (foldl_cores _ ?_ _ _).trans ?_) | (intro _ _))
@[simp] theorem State.ledgerEdge_cores (s : State) : (State.ledgerEdge s).cores = s.cores := by
  simp [State.ledgerEdge]

end Sys2Proof.Machine
end

