-- ==== Sys2Proof/Laws/Flash.lean ====
section
/-!
SUPPORT. What writing flash does: the bytes written read back, every other byte reads as before.
-/
namespace Sys2Proof.Machine

/-- A run of bytes put at `a`, from the `k`-th on. -/
theorem Table.get_putRun (f : Table Byte) (a k : Nat) (bs : List Byte) (j : Nat) :
    Table.get 0xFF ((bs.zipIdx k).foldl (fun f b => Table.set 0xFF f (a + b.2) b.1) f) j =
      if a + k ≤ j ∧ j < a + k + bs.length then bs.getD (j - a - k) 0 else Table.get 0xFF f j := by
  induction bs generalizing f k with
  | nil =>
    rw [if_neg (fun h => absurd h.2 (by rw [List.length_nil]; omega))]
    rfl
  | cons b bs ih =>
    simp only [List.zipIdx_cons, List.foldl_cons, List.length_cons]
    rw [ih, Table.get_set]
    by_cases h : j = a + k
    · subst h
      rw [if_neg (by omega), if_pos rfl, if_pos (by omega), show a + k - a - k = 0 by omega]
      rfl
    · rw [if_neg h]
      by_cases h2 : a + (k + 1) ≤ j ∧ j < a + (k + 1) + bs.length
      · rw [if_pos h2, if_pos (by omega), show j - a - k = (j - a - (k + 1)) + 1 by omega]
        simp
      · rw [if_neg h2, if_neg (by omega)]

/-- A byte of flash after a run of bytes is put at `a`. -/
theorem State.flash_flashPut (s : State) (a : Nat) (bs : List Byte) (j : Nat) :
    Table.get 0xFF (s.flashPut a bs).flash j = if a ≤ j ∧ j < a + bs.length then bs.getD (j - a) 0 else Table.get 0xFF s.flash j :=
  Table.get_putRun s.flash a 0 bs j

/-- The run reads back. -/
@[simp] theorem State.flashBytes_flashPut (s : State) (a : Nat) (bs : List Byte) : (s.flashPut a bs).flashBytes a bs.length = bs := by
  apply List.ext_getElem
  · simp [State.flashBytes]
  · intro n h1 h2
    simp only [State.flashBytes, List.getElem_map, List.getElem_range, State.flash_flashPut]
    rw [if_pos (by omega), show a + n - a = n by omega]
    simp [h2]

/-- A run that does not meet it reads as before. -/
theorem State.flashBytes_flashPut_ne (s : State) {a b n : Nat} (bs : List Byte) (h : b + n ≤ a ∨ a + bs.length ≤ b) :
    (s.flashPut a bs).flashBytes b n = s.flashBytes b n := by
  apply List.map_congr_left
  intro i hi
  have := List.mem_range.mp hi
  rw [State.flash_flashPut, if_neg (by omega)]

end Sys2Proof.Machine
end

