-- ==== Sys2Proof/Laws/Issue.lean ====
section
/-!
SUPPORT. Everything an issue can do (05_core_programs.md R138, R149, R153): the step does not take place, or the instruction faults with nothing
written, or it has its effect.
-/
namespace Sys2Proof.Machine

variable {c : Core} {q : QueueId} {i : CoreInstr} {w t : Nat}

/-- A head that may issue is what `Core.atHead` says it is. -/
theorem Core.queue_of_atHead (h : c.atHead q i w t = true) : ∃ d rest, c.queue q = .instr i w d :: rest ∧ d < t := by
  unfold Core.atHead at h
  split at h
  · rename_i j v d rest hq
    simp only [Bool.and_eq_true, decide_eq_true_eq, beq_iff_eq] at h
    obtain ⟨⟨rfl, rfl⟩, hd⟩ := h
    exact ⟨d, rest, hq, hd⟩
  · cases h

/-- A core that runs issues the head of its queue once the port is free. -/
theorem Core.ready_of_issues {free : Nat} (h : c.issues q i w t) (hf : free ≤ t) : c.ready q i free t = some w := by
  obtain ⟨h1, h2, h3, h4, h5, h6, h7⟩ := h
  obtain ⟨d, rest, hq, hd⟩ := Core.queue_of_atHead h7
  have hm : c.mayIssue q = true := by simp [Core.mayIssue, h1, h2, h3]
  simp [Core.ready, hm, h4, h5, h6, hf, hq, hd]

variable {s : State} {p free : Nat} {frees : Core → Nat} {checks : Core → List (Bool × Cause)} {accesses : Core → Nat → List Access}
  {effect : State → Nat → State} {about : Core → List Nat × Nat} {l : List (Bool × Cause)} {acc : List Access}

/-- Where `State.issues` holds, an instruction whose reads are clean has its effect on the core with its due acts made and its accesses noted. -/
theorem State.issue_completes (h : s.issues t p q i w free l acc) (hf : frees (s.coreAt t p) = free) (hl : checks (s.coreAt t p) = l)
    (ha : accesses (s.coreAt t p) w = acc) :
    s.issue t p q i frees checks accesses .ok effect about =
      .next (effect (((s.atC t).setCore p (s.coreAt t p)).modCore p (fun x => x.addAccesses t (accesses x w))) w) := by
  obtain ⟨hs, hi, hp, hc, hm⟩ := h
  subst hf hl ha
  have hr := Core.ready_of_issues hi hp
  have hm' : ((s.core p).landed t).meetings (accesses ((s.core p).landed t) w) = [] := hm
  simp [State.issue, State.unlessStopped, show (s.atC t).coresStopped = false from hs, show (s.atC t).core p = s.core p from rfl, hr, hc,
    hm', State.noteEcc]

/-- An instruction at its head that fails a check faults with the check's cause, with nothing written. -/
theorem State.issue_faults {cause : Cause} {e : Ecc} (hs : s.coresStopped = false) (hi : (s.coreAt t p).issues q i w t)
    (hf : frees (s.coreAt t p) ≤ t) (hc : firstFault (checks (s.coreAt t p)) = some cause) :
    s.issue t p q i frees checks accesses e effect about = .next (((s.atC t).setCore p (s.coreAt t p)).coreFault p cause (queueEngine q) w
      (about (s.coreAt t p)).1 (about (s.coreAt t p)).2) := by
  have hr := Core.ready_of_issues hi hf
  simp [State.issue, State.unlessStopped, show (s.atC t).coresStopped = false from hs, show (s.atC t).core p = s.core p from rfl, hr, hc]

/-- An instruction that may not issue leaves everything but the clock. -/
theorem State.issue_waits {e : Ecc} (h : (s.coreAt t p).ready q i (frees (s.coreAt t p)) t = none) :
    s.issue t p q i frees checks accesses e effect about = .next (s.atC t) := by
  have h' : ((s.core p).landed t).ready q i (frees ((s.core p).landed t)) t = none := h
  simp [State.issue, h', State.unlessStopped]

/-- A change of one core alone. -/
theorem State.onlyCore_modCore (g : Core → Core) : s.onlyCore ((s.atC t).modCore p g) t p :=
  ⟨fun _ hk => (State.core_modCore_ne _ g hk).trans rfl, rfl⟩

/-- A change of one core, then another of the same core, changes that core alone. -/
theorem State.onlyCore_modCore_modCore (g h : Core → Core) : s.onlyCore (((s.atC t).modCore p g).modCore p h) t p :=
  ⟨fun _ hk => (State.core_modCore_ne _ h hk).trans ((State.core_modCore_ne _ g hk).trans rfl), rfl⟩

end Sys2Proof.Machine
end

