-- ==== Sys2Proof/Laws/MemFrames.lean ====
section
/-!
SUPPORT. One lemma per shared operation: the operations that leave the memory side (bytes, Seals, translation, transfers) as it was.
-/
set_option linter.unusedSimpArgs false
set_option linter.unusedVariables false
namespace Sys2Proof.Machine

@[simp] theorem ite_mem (c : Prop) [Decidable c] (a b : State) : (if c then a else b).mem = if c then a.mem else b.mem := by split <;> rfl
@[simp] theorem ite_fst_mem {α : Type} (c : Prop) [Decidable c] (a b : State × α) : (if c then a else b).1.mem = if c then a.1.mem else b.1.mem := by split <;> rfl
@[simp] theorem foldl_mem {α : Type} (g : State → α → State) (h : ∀ s a, (g s a).mem = s.mem) (l : List α) (s : State) : (l.foldl g s).mem = s.mem := by
  induction l generalizing s with
  | nil => rfl
  | cons a l ih => simp [ih, h]
@[simp] theorem foldl_fst_mem {α β : Type} (g : State × β → α → State × β) (h : ∀ s a, (g s a).1.mem = s.1.mem) (l : List α) (s : State × β) : (l.foldl g s).1.mem = s.1.mem := by
  induction l generalizing s with
  | nil => rfl
  | cons a l ih => simp [ih, h]
@[simp] theorem andThen_mem {α β : Type} (r : State × Moved α) (g : State → α → State × Moved β) (h : ∀ s a, (g s a).1.mem = s.mem) :
    (andThen r g).1.mem = r.1.mem := by
  unfold andThen; split <;> simp [h]
@[simp] theorem State.emitAll_mem (s : State) (l : List Output) : (State.emitAll s l).mem = s.mem := by
  simp [State.emitAll]
@[simp] theorem State.setObj_mem (s : State) (idx sub v : Nat) : (State.setObj s idx sub v).mem = s.mem := by
  simp [State.setObj]
@[simp] theorem State.msix_mem (s : State) (vec : Nat) : (State.msix s vec).mem = s.mem := by
  simp [State.msix]
@[simp] theorem State.sendPending_mem (s : State) : (State.sendPending s).mem = s.mem := by
  unfold State.sendPending
  dsimp only
  repeat' (first | (simp; done) | split | (refine (foldl_mem _ ?_ _ _).trans ?_) | (intro _ _))
@[simp] theorem State.signalErr_mem (s : State) : (State.signalErr s).mem = s.mem := by
  unfold State.signalErr
  dsimp only
  repeat' (first | (simp; done) | split)
@[simp] theorem State.sendEvent_mem (s : State) (r : ErrRec) : (State.sendEvent s r).mem = s.mem := by
  simp [State.sendEvent]
@[simp] theorem State.postNew_mem (s : State) (a : ErrArgs) : (State.postNew s a).mem = s.mem := by
  simp [State.postNew]
@[simp] theorem State.postErr_mem (s : State) (a : ErrArgs) : (State.postErr s a).mem = s.mem := by
  unfold State.postErr
  dsimp only
  repeat' (first | (simp; done) | split)
@[simp] theorem State.clearSecrets_mem (s : State) : (State.clearSecrets s).mem = s.mem := by
  simp [State.clearSecrets]
@[simp] theorem State.fatalTrigger_mem (s : State) (cause : Nat) (uk : UKind) (unit i6 i7 : Nat) :
    (State.fatalTrigger s cause uk unit i6 i7).mem = s.mem := by
  simp [State.fatalTrigger]
@[simp] theorem State.setPstate_mem (s : State) (c : Nat) (p : PState) : (State.setPstate s c p).mem = s.mem := by
  simp [State.setPstate]
@[simp] theorem State.repairRec_mem (s : State) (sev : Sev) (cause c : Nat) : (State.repairRec s sev cause c).mem = s.mem := by
  simp [State.repairRec]
@[simp] theorem State.keepClear_mem (s : State) (c : Nat) : (State.keepClear s c).mem = s.mem := by
  simp [State.keepClear]
@[simp] theorem State.startBench_mem (s : State) (c : Nat) (sub : Option Nat) : (State.startBench s c sub).mem = s.mem := by
  simp [State.startBench]
@[simp] theorem State.requestBench_mem (s : State) (c : Nat) (sub : Option Nat) : (State.requestBench s c sub).1.mem = s.mem := by
  simp [State.requestBench]
@[simp] theorem State.followUp_mem (s : State) (cause : Cause) (core dpa : Nat) : (State.followUp s cause core dpa).mem = s.mem := by
  unfold State.followUp
  dsimp only
  repeat' (first | (simp; done) | split)
@[simp] theorem State.withdraw_mem (s : State) (c : Cmd) : (State.withdraw s c).mem = s.mem := by
  simp [State.withdraw]
@[simp] theorem State.markHeld_mem (s : State) (q : Nat) : (State.markHeld s q).mem = s.mem := by
  simp [State.markHeld]
@[simp] theorem State.haltQueue_mem (s : State) (c : Cmd) (haltedPos : List Nat) : (State.haltQueue s c haltedPos).mem = s.mem := by
  unfold State.haltQueue
  refine (State.markHeld_mem ..).trans ((foldl_mem _ ?_ _ _).trans ?_)
  · intro a b
    rw [ite_mem, State.withdraw_mem, ite_self]
  · exact (State.modFix_mem ..).trans (State.modCfe_mem ..)
@[simp] theorem State.captureCard_mem (s : State) (a : FaultArgs) (c : Cmd) (rseq : Nat) : (State.captureCard s a c rseq).1.mem = s.mem := by
  unfold State.captureCard
  dsimp only
  repeat' (first | (simp; done) | split)
@[simp] theorem State.addCause_mem (s : State) (a : FaultArgs) (c : Cmd) (k : Nat) : (State.addCause s a c k).mem = s.mem := by
  unfold State.addCause
  dsimp only
  repeat' (first | (simp; done) | split)
@[simp] theorem State.faultCommand_mem (s : State) (a : FaultArgs) : (State.faultCommand s a).mem = s.mem := by
  unfold State.faultCommand
  dsimp only
  repeat' (first | (simp; done) | split)
@[simp] theorem State.recordReason_mem (s : State) (ref code : Nat) : (State.recordReason s ref code).mem = s.mem := by
  simp [State.recordReason]
@[simp] theorem State.coreFault_mem (s : State) (p : Nat) (cause : Cause) (eng : Engine) (instr : Nat) (detail : List Nat) (passidx : Nat) (dva :
    Nat) (dpa : Nat) : (State.coreFault s p cause eng instr detail passidx dva dpa).mem = s.mem := by
  simp [State.coreFault]
@[simp] theorem State.bgWrite_mem (s : State) (p off : Nat) (bs : List Byte) : (State.bgWrite s p off bs).mem = s.mem := by
  simp [State.bgWrite]
@[simp] theorem State.noteEcc_mem (s : State) (p : Nat) (e : Ecc) : (State.noteEcc s p e).mem = s.mem := by
  simp [State.noteEcc]
@[simp] theorem State.loseAccess_mem (s : State) (p t : Nat) (x y : Access) : (State.loseAccess s p t x y).mem = s.mem := by
  simp [State.loseAccess]
@[simp] theorem State.modPort_mem (s : State) (n : Nat) (f : Port → Port) : (State.modPort s n f).mem = s.mem := by
  simp [State.modPort]
@[simp] theorem State.txNow_mem (s : State) (n : Nat) (k : Packet) : (State.txNow s n k).mem = s.mem := by
  simp [State.txNow]
@[simp] theorem State.txOn_mem (s : State) (n : Nat) (k : Packet) : (State.txOn s n k).mem = s.mem := by
  simp [State.txOn]
@[simp] theorem State.flushPort_mem (s : State) (n : Nat) : (State.flushPort s n).mem = s.mem := by
  unfold State.flushPort
  dsimp only
  repeat' (first | (simp; done) | split | (refine (foldl_mem _ ?_ _ _).trans ?_) | (intro _ _))
@[simp] theorem State.send_mem (s : State) (k : Packet) : (State.send s k).mem = s.mem := by
  unfold State.send
  repeat' (first | (simp; done) | split)
@[simp] theorem State.sendRequest_mem (s : State) (a : PktArgs) (owner : ReqOwner) : (State.sendRequest s a owner).mem = s.mem := by
  unfold State.sendRequest
  split
  · exact State.modLinks_mem ..
  · exact (State.modLinks_mem ..).trans ((State.send_mem ..).trans (State.modLinks_mem ..))
@[simp] theorem State.flushBacklog_mem (s : State) (dst : Nat) : (State.flushBacklog s dst).mem = s.mem := by
  unfold State.flushBacklog
  dsimp only
  repeat' (first | (simp; done) | split)
@[simp] theorem State.dropReq_mem (s : State) (dst eseq : Nat) : (State.dropReq s dst eseq).mem = s.mem := by
  simp [State.dropReq]
@[simp] theorem State.eack_mem (s : State) (k : Packet) (case : Nat) : (State.eack s k case).mem = s.mem := by
  unfold State.eack
  exact State.send_mem ..
@[simp] theorem State.dropPkt_mem (s : State) (n : Nat) (nak : Bool) : (State.dropPkt s n nak).mem = s.mem := by
  simp [State.dropPkt]
@[simp] theorem State.seeEpoch_mem (s : State) (k : Packet) : (State.seeEpoch s k).mem = s.mem := by
  simp [State.seeEpoch]
@[simp] theorem State.answer_mem (s : State) (k : Packet) (case : Nat) : (State.answer s k case).mem = s.mem := by
  unfold State.answer
  refine (State.eack_mem ..).trans ?_
  split
  · exact State.modLinks_mem ..
  · rfl
@[simp] theorem State.storeHost_mem (s : State) (ref : Nat) (xfer : Option (Nat × Nat)) (ring : Option Nat) (addr : Nat) (bs : List Byte) :
    (State.storeHost s ref xfer ring addr bs).mem = s.mem := by
  simp [State.storeHost]
@[simp] theorem State.askBi_mem (s : State) (lines : List Nat) (wr : Bool) : (State.askBi s lines wr).mem = s.mem := by
  unfold State.askBi
  repeat' (first | (simp; done) | split | (refine (foldl_mem _ ?_ _ _).trans ?_) | (intro _ _))
@[simp] theorem State.endBi_mem (s : State) (dpa len : Nat) : (State.endBi s dpa len).mem = s.mem := by
  simp [State.endBi]
@[simp] theorem State.cacheFill_mem (s : State) (p line : Nat) (bs : List Byte) : (State.cacheFill s p line bs).mem = s.mem := by
  simp [State.cacheFill]
@[simp] theorem State.cachedRead_mem (s : State) (p dva dpa n : Nat) : (State.cachedRead s p dva dpa n).1.mem = s.mem := by
  unfold State.cachedRead
  dsimp only
  repeat' (first | (simp; done) | split | (refine (foldl_fst_mem _ ?_ _ _).trans ?_) | (intro _ _))
@[simp] theorem State.cacheThrough_mem (s : State) (p dva : Nat) (bs : List Byte) : (State.cacheThrough s p dva bs).mem = s.mem := by
  unfold State.cacheThrough
  dsimp only
  repeat' (first | (simp; done) | split | (refine (foldl_mem _ ?_ _ _).trans ?_) | (intro _ _))
@[simp] theorem State.countArrival_mem (s : State) (tc core cnt : Nat) : (State.countArrival s tc core cnt).mem = s.mem := by
  simp [State.countArrival]
@[simp] theorem State.placesWait_mem (s : State) (wr : Bool) (l : List (Place × Nat × Nat)) : (State.placesWait s wr l).1.mem = s.mem := by
  unfold State.placesWait
  dsimp only
  repeat' (first | (simp; done) | split | (refine (foldl_fst_mem _ ?_ _ _).trans ?_) | (intro _ _))
@[simp] theorem State.deliverSpm_mem (s : State) (tc core off : Nat) (cnt : Option Nat) (bs : List Byte) :
    (State.deliverSpm s tc core off cnt bs).mem = s.mem := by
  unfold State.deliverSpm
  dsimp only
  repeat' (first | (simp; done) | split | (refine (foldl_mem _ ?_ _ _).trans ?_) | (intro _ _))
@[simp] theorem State.opFault_mem (s : State) (p : Nat) (e : MatEngine) (o : MatOp) (cause : Cause) : (State.opFault s p e o cause).mem = s.mem := by
  simp [State.opFault]
@[simp] theorem State.replayOrFault_mem (s : State) (t p : Nat) (e : MatEngine) (o : MatOp) : (State.replayOrFault s t p e o).mem = s.mem := by
  unfold State.replayOrFault
  dsimp only
  repeat' (first | (simp; done) | split)
@[simp] theorem State.completeOp_mem (s : State) (t p : Nat) (e : MatEngine) (o : MatOp) : (State.completeOp s t p e o).mem = s.mem := by
  simp [State.completeOp]
@[simp] theorem State.taskEnded_mem (s : State) (p : Nat) : (State.taskEnded s p).mem = s.mem := by
  simp [State.taskEnded]
@[simp] theorem State.takeRecord_mem (s : State) (t p : Nat) (k : TaskRec) : (State.takeRecord s t p k).mem = s.mem := by
  unfold State.takeRecord
  dsimp only
  repeat' (first | (simp; done) | split)
@[simp] theorem State.modEmbUnit_mem (s : State) (st : Nat) (f : EmbUnit → EmbUnit) : (State.modEmbUnit s st f).mem = s.mem := by
  simp [State.modEmbUnit]
@[simp] theorem State.failEmb_mem (s : State) (st ref : Nat) (f : XferFault) : (State.failEmb s st ref f).mem = s.mem := by
  simp [State.failEmb]
@[simp] theorem State.markLate_mem (s : State) (ref code : Nat) : (State.markLate s ref code).mem = s.mem := by
  simp [State.markLate]
@[simp] theorem State.embCtl_mem (s : State) (o : ReqOwner) (dst table st tag ref step gen round : Nat) (m : CtlMsg) :
    (State.embCtl s o dst table st tag ref step gen round m).mem = s.mem := by
  simp [State.embCtl]
@[simp] theorem State.tellEntry_mem (s : State) (f : Feed) (table step gen round : Nat) (m : CtlMsg) :
    (State.tellEntry s f table step gen round m).mem = s.mem := by
  simp [State.tellEntry]
@[simp] theorem State.loseStripe_mem (s : State) (key : Nat) : (State.loseStripe s key).mem = s.mem := by
  simp [State.loseStripe]
@[simp] theorem State.sendMigBlock_mem (s : State) (dst key st frame blk : Nat) : (State.sendMigBlock s dst key st frame blk).mem = s.mem := by
  simp [State.sendMigBlock]
@[simp] theorem State.ackHome_mem (s : State) (tag home n : Nat) : (State.ackHome s tag home n).mem = s.mem := by
  unfold State.ackHome
  dsimp only
  repeat' (first | (simp; done) | split)
@[simp] theorem State.noteCombined_mem (s : State) (tag home n step : Nat) (waited : Bool) :
    (State.noteCombined s tag home n step waited).mem = s.mem := by
  unfold State.noteCombined
  dsimp only
  repeat' (first | (simp; done) | split)
@[simp] theorem State.failFeed_mem (s : State) (f : Feed) (home key : Nat) (x : XferFault) : (State.failFeed s f home key x).mem = s.mem := by
  simp [State.failFeed]
@[simp] theorem State.deferPartial_mem (s : State) (home : Nat) (p : Partial) : (State.deferPartial s home p).mem = s.mem := by
  simp [State.deferPartial]
@[simp] theorem State.loseEntry_mem (s : State) (home key : Nat) (next : Bool) : (State.loseEntry s home key next).mem = s.mem := by
  unfold State.loseEntry
  dsimp only
  repeat' (first | (simp; done) | split | (refine (foldl_mem _ ?_ _ _).trans ?_) | (intro _ _))
@[simp] theorem State.addSats_mem (s : State) (t n : Nat) : (State.addSats s t n).mem = s.mem := by
  simp [State.addSats]
@[simp] theorem State.addShares_mem (s : State) (l : List Share) : (State.addShares s l).mem = s.mem := by
  simp [State.addShares]
@[simp] theorem State.sendParts_mem (s : State) (h : Share) : (State.sendParts s h).mem = s.mem := by
  unfold State.sendParts
  dsimp only
  repeat' (first | (simp; done) | split | (refine (foldl_mem _ ?_ _ _).trans ?_) | (intro _ _))
@[simp] theorem State.noteServed_mem (s : State) (table d home row n : Nat) (maxRun : Nat) :
    (State.noteServed s table d home row n maxRun).mem = s.mem := by
  simp [State.noteServed]
@[simp] theorem State.cacheRow_mem (s : State) (home key b : Nat) : (State.cacheRow s home key b).mem = s.mem := by
  simp [State.cacheRow]
@[simp] theorem State.sendIndexes_mem (s : State) (l : Look) (m : Nat) (entries : List (Nat × Nat)) :
    (State.sendIndexes s l m entries).mem = s.mem := by
  unfold State.sendIndexes
  refine (State.embCtl_mem ..).trans (foldl_mem _ ?_ _ _)
  intro a b
  exact State.sendRequest_mem ..
@[simp] theorem State.sendUpdate_mem (s : State) (m table st tag ref step gen row : Nat) (vals : List Int) :
    (State.sendUpdate s m table st tag ref step gen row vals).mem = s.mem := by
  unfold State.sendUpdate
  repeat' (first | (simp; done) | split | (refine (foldl_mem _ ?_ _ _).trans ?_) | (intro _ _))
@[simp] theorem State.placeRepair_mem (s : State) (k : RepairKind) (touch : List Nat) : (State.placeRepair s k touch).mem = s.mem := by
  simp [State.placeRepair]
@[simp] theorem State.slowed_mem (s : State) (use : Placement → Nat) (room : Nat) : (State.slowed s use room).mem = s.mem := by
  unfold State.slowed
  dsimp only
  repeat' (first | (simp; done) | split | (refine (foldl_mem _ ?_ _ _).trans ?_) | (intro _ _))
@[simp] theorem State.slowedPort_mem (s : State) (n charged : Nat) : (State.slowedPort s n charged).mem = s.mem := by
  simp [State.slowedPort]
@[simp] theorem State.setLook_mem (s : State) (l : Look) : (State.setLook s l).mem = s.mem := by
  simp [State.setLook]
@[simp] theorem State.endRelay_mem (s : State) (r : Relay) : (State.endRelay s r).mem = s.mem := by
  simp [State.endRelay]
@[simp] theorem State.relayPartial_mem (s : State) (m home step : Nat) (p : Partial) : (State.relayPartial s m home step p).mem = s.mem := by
  simp [State.relayPartial]
@[simp] theorem State.setMig_mem (s : State) (m : Mig) : (State.setMig s m).mem = s.mem := by
  simp [State.setMig]
@[simp] theorem State.endMig_mem (s : State) (key : Nat) (st : MigSt) : (State.endMig s key st).mem = s.mem := by
  simp [State.endMig]
@[simp] theorem State.placeMig_mem (s : State) (m : Mig) : (State.placeMig s m).mem = s.mem := by
  unfold State.placeMig
  dsimp only
  repeat' (first | (simp; done) | split)
@[simp] theorem State.migAcked_mem (s : State) (key : Nat) : (State.migAcked s key).mem = s.mem := by
  unfold State.migAcked
  repeat' (first | (simp; done) | split)
@[simp] theorem State.loseBad_mem (s : State) (st : Nat) : (State.loseBad s st).mem = s.mem := by
  unfold State.loseBad
  dsimp only
  repeat' (first | (simp; done) | split | (refine (foldl_mem _ ?_ _ _).trans ?_) | (intro _ _))
@[simp] theorem State.dropHmap_mem (s : State) (p : Nat → Bool) : (State.dropHmap s p).mem = s.mem := by
  unfold State.dropHmap
  repeat' (first | (simp; done) | split | (refine (foldl_mem _ ?_ _ _).trans ?_) | (intro _ _))
@[simp] theorem State.moveEntries_mem (s : State) (d key a b : Nat) : (State.moveEntries s d key a b).mem = s.mem := by
  simp [State.moveEntries]
@[simp] theorem State.setTbldesc_mem (s : State) (t v : Nat) : (State.setTbldesc s t v).mem = s.mem := by
  simp [State.setTbldesc]
@[simp] theorem State.armHmap_mem (s : State) (t v : Nat) : (State.armHmap s t v).mem = s.mem := by
  simp [State.armHmap]
@[simp] theorem State.applyMigrelease_mem (s : State) (v : Nat) : (State.applyMigrelease s v).mem = s.mem := by
  simp [State.applyMigrelease]
@[simp] theorem State.handOver_mem (s : State) (m : Mig) : (State.handOver s m).mem = s.mem := by
  unfold State.handOver
  dsimp only
  repeat' (first | (simp; done) | split | (refine (foldl_mem _ ?_ _ _).trans ?_) | (intro _ _))
@[simp] theorem State.eachEmb_mem (s : State) (f : State → Nat → State) (h_f : ∀ z y0, (f z y0).mem = z.mem) : (State.eachEmb s f).mem = s.mem := by
  unfold State.eachEmb
  repeat' (first | (simp [*]; done) | split | (refine (foldl_mem _ ?_ _ _).trans ?_) | (intro _ _))
@[simp] theorem State.replEdge_mem (s : State) : (State.replEdge s).mem = s.mem := by
  unfold State.replEdge
  dsimp only
  repeat' (first | (simp; done) | split | (refine (foldl_mem _ ?_ _ _).trans ?_) | (intro _ _))
@[simp] theorem State.modRally_mem (s : State) (e : Nat) (f : Rally → Rally) : (State.modRally s e f).mem = s.mem := by
  simp [State.modRally]
@[simp] theorem State.endRally_mem (s : State) (e : Nat) : (State.endRally s e).mem = s.mem := by
  simp [State.endRally]
@[simp] theorem State.sendTile_mem (s : State) (e : Nat) : (State.sendTile s e).mem = s.mem := by
  unfold State.sendTile
  dsimp only
  repeat' (first | (simp; done) | split | (refine (foldl_mem _ ?_ _ _).trans ?_) | (intro _ _))
@[simp] theorem State.sendVerdict_mem (s : State) (e verdict : Nat) (anchor : Int) (sums : Bool) :
    (State.sendVerdict s e verdict anchor sums).mem = s.mem := by
  unfold State.sendVerdict
  refine foldl_mem _ ?_ _ _
  intro a b
  dsimp only
  split
  · refine foldl_mem _ ?_ _ _
    intro x i
    exact State.sendRequest_mem ..
  · exact State.sendRequest_mem ..
@[simp] theorem State.failRally_mem (s : State) (e : Nat) (c : Cause) : (State.failRally s e c).mem = s.mem := by
  unfold State.failRally
  dsimp only
  repeat' (first | (simp; done) | split)
@[simp] theorem State.addTile_mem (s : State) (e : Nat) (l : List (Nat × Int)) : (State.addTile s e l).mem = s.mem := by
  simp [State.addTile]
@[simp] theorem State.replayRally_mem (s : State) (t e : Nat) (anchor : Int) : (State.replayRally s t e anchor).mem = s.mem := by
  unfold State.replayRally
  dsimp only
  repeat' (first | (simp; done) | split)
@[simp] theorem State.judgeRoot_mem (s : State) (t e : Nat) : (State.judgeRoot s t e).mem = s.mem := by
  unfold State.judgeRoot
  dsimp only
  repeat' (first | (simp; done) | split)
@[simp] theorem State.rallyCheck_mem (s : State) (t e : Nat) : (State.rallyCheck s t e).mem = s.mem := by
  simp [State.rallyCheck]
@[simp] theorem State.rallyOwn_mem (s : State) (t e : Nat) (o : MatOp) : (State.rallyOwn s t e o).mem = s.mem := by
  simp [State.rallyOwn]
@[simp] theorem State.rallyRefused_mem (s : State) (k : Packet) (case : Nat) : (State.rallyRefused s k case).1.mem = s.mem := by
  simp [State.rallyRefused]
@[simp] theorem State.forwardVerdict_mem (s : State) (e : Nat) (k : Packet) : (State.forwardVerdict s e k).mem = s.mem := by
  unfold State.forwardVerdict
  dsimp only
  repeat' (first | (simp; done) | split | (refine (foldl_mem _ ?_ _ _).trans ?_) | (intro _ _))
@[simp] theorem State.windowRefused_mem (s : State) (k : Packet) (case : Nat) : (State.windowRefused s k case).mem = s.mem := by
  simp [State.windowRefused]
@[simp] theorem State.noteRetry_mem (s : State) (r : E2e) : (State.noteRetry s r).mem = s.mem := by
  unfold State.noteRetry
  repeat' (first | (simp; done) | split)
@[simp] theorem State.resend_mem (s : State) (r : E2e) (f : E2e → E2e) : (State.resend s r f).mem = s.mem := by
  unfold State.resend
  dsimp only
  repeat' (first | (simp; done) | split)
@[simp] theorem State.linkErr_mem (s : State) (n cause : Nat) (sev : Sev) (l : Option Nat) : (State.linkErr s n cause sev l).mem = s.mem := by
  simp [State.linkErr]
@[simp] theorem State.portDown_mem (s : State) (n : Nat) : (State.portDown s n).mem = s.mem := by
  simp [State.portDown]
@[simp] theorem State.settlePort_mem (s : State) (n : Nat) : (State.settlePort s n).mem = s.mem := by
  simp [State.settlePort]
@[simp] theorem State.linkEdge_mem (s : State) : (State.linkEdge s).mem = s.mem := by
  unfold State.linkEdge
  dsimp only
  repeat' (first | (simp; done) | split | (refine (foldl_mem _ ?_ _ _).trans ?_) | (intro _ _))
@[simp] theorem State.sendControl_mem (s : State) (n : Nat) : (State.sendControl s n).mem = s.mem := by
  simp [State.sendControl]
@[simp] theorem State.resendHeld_mem (s : State) (n : Nat) : (State.resendHeld s n).mem = s.mem := by
  unfold State.resendHeld
  dsimp only
  repeat' (first | (simp; done) | split | (refine (foldl_mem _ ?_ _ _).trans ?_) | (intro _ _))
@[simp] theorem State.retry_mem (s : State) (n : Nat) : (State.retry s n).mem = s.mem := by
  unfold State.retry
  dsimp only
  repeat' (first | (simp; done) | split | (refine (foldl_mem _ ?_ _ _).trans ?_) | (intro _ _))
@[simp] theorem State.ackHeld_mem (s : State) (n ack : Nat) : (State.ackHeld s n ack).mem = s.mem := by
  simp [State.ackHeld]
@[simp] theorem State.beginReplace_mem (s : State) (n l pos : Nat) (reactive : Bool) : (State.beginReplace s n l pos reactive).mem = s.mem := by
  unfold State.beginReplace
  repeat' (first | (simp; done) | split)
@[simp] theorem State.takeTrigger_mem (s : State) (n : Nat) (k : Trigger) : (State.takeTrigger s n k).mem = s.mem := by
  unfold State.takeTrigger
  dsimp only
  repeat' (first | (simp; done) | split)
@[simp] theorem State.nextTrigger_mem (s : State) (n : Nat) : (State.nextTrigger s n).mem = s.mem := by
  unfold State.nextTrigger
  repeat' (first | (simp; done) | split | (refine (foldl_mem _ ?_ _ _).trans ?_) | (intro _ _))
@[simp] theorem State.applyRetrain_mem (s : State) (n l v : Nat) : (State.applyRetrain s n l v).mem = s.mem := by
  simp [State.applyRetrain]
@[simp] theorem State.applyPin_mem (s : State) (n l : Nat) : (State.applyPin s n l).mem = s.mem := by
  simp [State.applyPin]
@[simp] theorem State.applyModid_mem (s : State) (v : Nat) : (State.applyModid s v).mem = s.mem := by
  simp [State.applyModid]
@[simp] theorem State.charge_mem (s : State) (ref : Nat) (l : List Placement) : (State.charge s ref l).mem = s.mem := by
  simp [State.charge]
@[simp] theorem State.setCad_mem (s : State) (c : CadState) : (State.setCad s c).mem = s.mem := by
  unfold State.setCad
  dsimp only
  repeat' (first | (simp; done) | split)
@[simp] theorem State.announce_mem (s : State) (e : Nat) (c : CadState) (hold : Nat) : (State.announce s e c hold).mem = s.mem := by
  simp [State.announce]
@[simp] theorem State.stray_mem (s : State) : (State.stray s).mem = s.mem := by
  simp [State.stray]
@[simp] theorem State.relockPulse_mem (s : State) : (State.relockPulse s).mem = s.mem := by
  unfold State.relockPulse
  dsimp only
  repeat' (first | (simp; done) | split)
@[simp] theorem State.applyCadsrc_mem (s : State) (v : Nat) : (State.applyCadsrc s v).mem = s.mem := by
  unfold State.applyCadsrc
  dsimp only
  repeat' (first | (simp; done) | split)
@[simp] theorem State.cadsrcFree_mem (s : State) : (State.cadsrcFree s).mem = s.mem := by
  unfold State.cadsrcFree
  dsimp only
  repeat' (first | (simp; done) | split)
@[simp] theorem State.applyFixcommit_mem (s : State) (v : Nat) : (State.applyFixcommit s v).mem = s.mem := by
  simp [State.applyFixcommit]
@[simp] theorem State.tableEdge_mem (s : State) : (State.tableEdge s).mem = s.mem := by
  unfold State.tableEdge
  split
  · rfl
  · split
    · rfl
    · refine (State.modFix_mem ..).trans ((foldl_mem _ ?_ _ _).trans (foldl_mem _ ?_ _ _))
      · intro a b
        split
        · rfl
        · exact State.setObj_mem ..
      · intro a b
        exact State.setObj_mem ..
@[simp] theorem State.winRead_mem (s : State) (a n w off : Nat) : (State.winRead s a n w off).1.mem = s.mem := by
  unfold State.winRead
  dsimp only
  repeat' (first | (simp; done) | split)
@[simp] theorem State.settle_mem (s : State) (q : Nat) : (State.settle s q).mem = s.mem := by
  simp [State.settle]
@[simp] theorem State.takeBuffer_mem (s : State) (b : Buffer) : (State.takeBuffer s b).mem = s.mem := by
  unfold State.takeBuffer
  dsimp only
  repeat' (first | (simp; done) | split)
@[simp] theorem State.signalRing_mem (s : State) (r : Nat) : (State.signalRing s r).mem = s.mem := by
  unfold State.signalRing
  dsimp only
  repeat' (first | (simp; done) | split)
@[simp] theorem State.ringLost_mem (s : State) (r : Nat) : (State.ringLost s r).mem = s.mem := by
  simp [State.ringLost]
@[simp] theorem State.storeWaits_mem (s : State) (q : Nat) (on : Bool) : (State.storeWaits s q on).mem = s.mem := by
  simp [State.storeWaits]
@[simp] theorem State.cfeFault_mem (s : State) (eng : Engine) (ref : Nat) (x : XferFault) : (State.cfeFault s eng ref x).mem = s.mem := by
  simp [State.cfeFault]
@[simp] theorem State.refuse_mem (s : State) (c : Cmd) (cls : Option Class) (st : Status) (reason : Nat) :
    (State.refuse s c cls st reason).mem = s.mem := by
  unfold State.refuse
  dsimp only
  repeat' (first | (simp; done) | split)
@[simp] theorem State.endDestroy_mem (s : State) (q : Nat) : (State.endDestroy s q).mem = s.mem := by
  unfold State.endDestroy
  dsimp only
  repeat' (first | (simp; done) | split)
@[simp] theorem State.posted_mem (s : State) (c : Cmd) (st : Status) : (State.posted s c st).mem = s.mem := by
  unfold State.posted
  dsimp only
  repeat' (first | (simp; done) | split)
@[simp] theorem State.finish_mem (s : State) (q : Nat) : (State.finish s q).mem = s.mem := by
  simp [State.finish]
@[simp] theorem State.adminDone_mem (s : State) (c : Cmd) (st : Status) (err : Nat) (inl : List Byte) :
    (State.adminDone s c st err inl).mem = s.mem := by
  simp [State.adminDone]
@[simp] theorem State.adminErr_mem (s : State) (c : Cmd) (err : Nat) : (State.adminErr s c err).mem = s.mem := by
  simp [State.adminErr]
@[simp] theorem State.dropUntaken_mem (s : State) (q : Nat) : (State.dropUntaken s q).mem = s.mem := by
  simp [State.dropUntaken]
@[simp] theorem State.cancelAll_mem (s : State) (q : Nat) (p : Cmd → Bool) : (State.cancelAll s q p).mem = s.mem := by
  unfold State.cancelAll
  dsimp only
  repeat' (first | (simp; done) | split | (refine (foldl_mem _ ?_ _ _).trans ?_) | (intro _ _))
@[simp] theorem State.endFaulted_mem (s : State) (q : Nat) : (State.endFaulted s q).mem = s.mem := by
  simp [State.endFaulted]
@[simp] theorem State.applyQuotas_mem (s : State) : (State.applyQuotas s).mem = s.mem := by
  simp [State.applyQuotas]
@[simp] theorem State.setAtt_mem (s : State) (a : AttState) : (State.setAtt s a).mem = s.mem := by
  simp [State.setAtt]
@[simp] theorem State.attachEdge_mem (s : State) : (State.attachEdge s).mem = s.mem := by
  simp [State.attachEdge]
@[simp] theorem State.otpBlow_mem (s : State) (mask : Nat) : (State.otpBlow s mask).mem = s.mem := by
  simp [State.otpBlow]
@[simp] theorem State.random_mem (s : State) (n : Nat) : (State.random s n).1.mem = s.mem := by
  simp [State.random]
@[simp] theorem State.securityRec_mem (s : State) (sev : Sev) (cause id : Nat) : (State.securityRec s sev cause id).mem = s.mem := by
  simp [State.securityRec]
@[simp] theorem State.freePlace_mem (s : State) (pos : Nat) : (State.freePlace s pos).mem = s.mem := by
  simp [State.freePlace]
@[simp] theorem State.endBench_mem (s : State) : (State.endBench s).mem = s.mem := by
  unfold State.endBench
  dsimp only
  repeat' (first | (simp; done) | split)
@[simp] theorem State.cancelBench_mem (s : State) (c : Nat) : (State.cancelBench s c).mem = s.mem := by
  unfold State.cancelBench
  repeat' (first | (simp; done) | split)
@[simp] theorem State.returnBench_mem (s : State) (p : Nat) : (State.returnBench s p).mem = s.mem := by
  unfold State.returnBench
  repeat' (first | (simp; done) | split)
@[simp] theorem State.applyBenchreq_mem (s : State) (p v : Nat) : (State.applyBenchreq s p v).mem = s.mem := by
  simp [State.applyBenchreq]
@[simp] theorem State.takeOver_mem (s : State) (pos old new : Nat) (c : Core) : (State.takeOver s pos old new c).mem = s.mem := by
  simp [State.takeOver]
@[simp] theorem State.benchStep_mem (s : State) : (State.benchStep s).mem = s.mem := by
  unfold State.benchStep
  dsimp only
  repeat' (first | (simp; done) | split)
@[simp] theorem State.replace_mem (s : State) (c : Cmd) (ords : List Nat) : (State.replace s c ords).mem = s.mem := by
  unfold State.replace
  dsimp only
  repeat' (first | (simp; done) | split)
@[simp] theorem State.loseCore_mem (s : State) (c : Nat) : (State.loseCore s c).mem = s.mem := by
  unfold State.loseCore
  dsimp only
  repeat' (first | (simp; done) | split | (refine (foldl_mem _ ?_ _ _).trans ?_) | (intro _ _))
@[simp] theorem State.benchEdge_mem (s : State) : (State.benchEdge s).mem = s.mem := by
  unfold State.benchEdge
  refine (State.benchStep_mem ..).trans ((foldl_mem _ ?_ _ _).trans ((foldl_mem _ ?_ _ _).trans ((State.modRepair_mem ..).trans (foldl_mem _ ?_ _ _))))
  · intro a b
    split
    · exact State.replace_mem ..
    · exact State.modRepair_mem ..
  · intro a b
    exact State.loseCore_mem ..
  · intro a b
    rw [ite_mem, State.setPstate_mem, ite_self]
@[simp] theorem State.setBist_mem (s : State) (c : Nat) (pend mb lb : Bool) : (State.setBist s c pend mb lb).mem = s.mem := by
  unfold State.setBist
  exact State.modRepair_mem ..
@[simp] theorem State.closePos_mem (s : State) (p : Nat) : (State.closePos s p).mem = s.mem := by
  simp [State.closePos]
@[simp] theorem State.toSpare_mem (s : State) (c : Nat) : (State.toSpare s c).mem = s.mem := by
  simp [State.toSpare]
@[simp] theorem State.slotBist_mem (s : State) (c : Nat) (pass : Bool) : (State.slotBist s c pass).mem = s.mem := by
  simp [State.slotBist]
@[simp] theorem State.applyBistrun_mem (s : State) (c : Nat) : (State.applyBistrun s c).mem = s.mem := by
  simp [State.applyBistrun]
@[simp] theorem State.applyFuserepair_mem (s : State) (v : Nat) : (State.applyFuserepair s v).mem = s.mem := by
  simp [State.applyFuserepair]
@[simp] theorem State.applyScanreq_mem (s : State) (c : Nat) : (State.applyScanreq s c).mem = s.mem := by
  simp [State.applyScanreq]
@[simp] theorem State.applyToken_mem (s : State) : (State.applyToken s).mem = s.mem := by
  simp [State.applyToken]
@[simp] theorem State.blowAll_mem (s : State) (errs : List Nat) (r0 : Nat) : (State.blowAll s errs r0).mem = s.mem := by
  induction r0 generalizing s with
  | zero => rfl
  | succ n ih =>
    rw [State.blowAll]
    split
    · rfl
    · split
      · exact State.postErr_mem ..
      · dsimp only
        split
        · rw [ih, State.postErr_mem, State.modRepair_mem]
        · rw [ih, State.modRepair_mem, State.modRepair_mem]
@[simp] theorem State.setErqhead_mem (s : State) (mgmt : Bool) (v : Nat) : (State.setErqhead s mgmt v).mem = s.mem := by
  simp [State.setErqhead]
@[simp] theorem State.freeCard_mem (s : State) (k : Nat) : (State.freeCard s k).mem = s.mem := by
  simp [State.freeCard]
@[simp] theorem State.trigger_mem (s : State) (r0 : FatalTrigger) : (State.trigger s r0).mem = s.mem := by
  induction r0 generalizing s <;> simp [State.trigger, *]
@[simp] theorem State.haltCores_mem (s : State) : (State.haltCores s).mem = s.mem := by
  simp [State.haltCores]
@[simp] theorem State.xcDrawn_mem (s : State) : (State.xcDrawn s).mem = s.mem := by
  simp [State.xcDrawn]
@[simp] theorem State.xcPass_mem (s : State) (l : List Nat) : (State.xcPass s l).mem = s.mem := by
  simp [State.xcPass]
@[simp] theorem State.xcEdge_mem (s : State) : (State.xcEdge s).mem = s.mem := by
  simp [State.xcEdge]
@[simp] theorem State.xcCount_mem (s : State) (touch : List Nat) (fails : Nat) : (State.xcCount s touch fails).mem = s.mem := by
  simp [State.xcCount]
@[simp] theorem State.xcVerdict_mem (s : State) (r : XcRun) (third : Nat) : (State.xcVerdict s r third).mem = s.mem := by
  simp [State.xcVerdict]
@[simp] theorem State.xcRec_mem (s : State) (sev : Sev) (cause c other third off : Nat) :
    (State.xcRec s sev cause c other third off).mem = s.mem := by
  simp [State.xcRec]
@[simp] theorem State.hostEdge_mem (s : State) : (State.hostEdge s).mem = s.mem := by
  unfold State.hostEdge
  repeat' (first | (simp; done) | split)
@[simp] theorem State.snoopAdd_mem (s : State) (line : Nat) : (State.snoopAdd s line).mem = s.mem := by
  unfold State.snoopAdd
  dsimp only
  repeat' (first | (simp; done) | split)
@[simp] theorem State.primaryMailbox_mem (s : State) (opcode : Nat) : (State.primaryMailbox s opcode).mem = s.mem := by
  simp [State.primaryMailbox]
@[simp] theorem State.powerRec_mem (s : State) (sev : Sev) (cause num : Nat) (reading : Int) :
    (State.powerRec s sev cause num reading).mem = s.mem := by
  simp [State.powerRec]
@[simp] theorem State.modRail_mem (s : State) (d : Nat) (f : Rail → Rail) : (State.modRail s d f).mem = s.mem := by
  simp [State.modRail]
@[simp] theorem State.avsRail_mem (s : State) (d margin mv da : Nat) (fail : Bool) : (State.avsRail s d margin mv da fail).mem = s.mem := by
  simp [State.avsRail]
@[simp] theorem State.sample_mem (s : State) (n : Nat) (v med : Int) : (State.sample s n v med).mem = s.mem := by
  simp [State.sample]
@[simp] theorem State.noteDead_mem (s : State) (x : Nat × Nat) : (State.noteDead s x).mem = s.mem := by
  simp [State.noteDead]
@[simp] theorem State.powerEdge_mem (s : State) (watts : Nat) : (State.powerEdge s watts).mem = s.mem := by
  simp [State.powerEdge]
@[simp] theorem State.applyRegulator_mem (s : State) (k n : Nat) : (State.applyRegulator s k n).mem = s.mem := by
  simp [State.applyRegulator]
@[simp] theorem State.entry_mem (s : State) (kind route eid key keyid : Nat) (old new : List Byte) :
    (State.entry s kind route eid key keyid old new).mem = s.mem := by
  simp [State.entry]
@[simp] theorem State.signedEntry_mem (s : State) (kind key : Nat) (nonce : List Byte) : (State.signedEntry s kind key nonce).mem = s.mem := by
  simp [State.signedEntry]
@[simp] theorem State.autoCheckpoint_mem (s : State) : (State.autoCheckpoint s).mem = s.mem := by
  simp [State.autoCheckpoint]
@[simp] theorem State.journalPut_mem (s : State) (kind route eid key keyid : Nat) (old new : List Byte) :
    (State.journalPut s kind route eid key keyid old new).1.mem = s.mem := by
  simp [State.journalPut]
@[simp] theorem State.genesis_mem (s : State) (nonce : List Byte) : (State.genesis s nonce).mem = s.mem := by
  simp [State.genesis]
@[simp] theorem State.checkpoint_mem (s : State) (nonce : List Byte) : (State.checkpoint s nonce).mem = s.mem := by
  simp [State.checkpoint]
@[simp] theorem State.flashPut_mem (s : State) (a : Nat) (bs : List Byte) : (State.flashPut s a bs).mem = s.mem := by
  simp [State.flashPut]
@[simp] theorem State.flashErase_mem (s : State) (a n : Nat) : (State.flashErase s a n).mem = s.mem := by
  simp [State.flashErase]
@[simp] theorem State.flashAnd_mem (s : State) (a v : Nat) : (State.flashAnd s a v).mem = s.mem := by
  simp [State.flashAnd]
@[simp] theorem State.setFw_mem (s : State) (f : FwState) (e : Nat) : (State.setFw s f e).mem = s.mem := by
  simp [State.setFw]
@[simp] theorem State.applyFwaction_mem (s : State) (v : Nat) : (State.applyFwaction s v).mem = s.mem := by
  simp [State.applyFwaction]
@[simp] theorem State.selectBank_mem (s : State) (notes : List Nat) (r0 : List Nat) : (State.selectBank s notes r0).1.mem = s.mem := by
  induction r0 generalizing s notes with
  | nil => rfl
  | cons b l ih =>
    have h : ∀ (c : Prop) [Decidable c] (m : Table Byte), (if c then { s with flash := m } else s).mem = s.mem := by
      intro c _ m
      split <;> rfl
    rw [State.selectBank]
    split
    · exact ih ..
    · extract_lets n s1 p
      have h1 : s1.mem = s.mem := h ..
      split
      · exact (ih ..).trans h1
      · split
        · exact (ih ..).trans h1
        · exact h1
@[simp] theorem State.startImage_mem (s : State) (b bs : Nat) : (State.startImage s b bs).mem = s.mem := by
  simp [State.startImage]
@[simp] theorem State.startCount_mem (s : State) (fails : Bool) : (State.startCount s fails).mem = s.mem := by
  simp [State.startCount]
@[simp] theorem State.softRows_mem (s : State) (l : List (Nat × Nat × Nat × Nat)) : (State.softRows s l).mem = s.mem := by
  unfold State.softRows
  repeat' (first | (simp; done) | split | (refine (foldl_mem _ ?_ _ _).trans ?_) | (intro _ _))
@[simp] theorem State.withFree_mem (s : State) (n : Nat) : (State.withFree s n).mem = s.mem := by
  simp [State.withFree]
@[simp] theorem State.startFirmware_mem (s : State) (f : BootFinds) (notes : List Nat) : (State.startFirmware s f notes).mem = s.mem := by
  have h : ∀ (b : Bool) (x : State), (if b then (x.modSec (fun y => { y with certBad := true })).securityRec .degraded 0x09 0 else x).mem = x.mem := by
    intro b x
    rw [ite_mem, State.securityRec_mem, State.modSec_mem, ite_self]
  unfold State.startFirmware
  refine (State.startCount_mem ..).trans ((State.softRows_mem ..).trans ((State.withFree_mem ..).trans ((State.genesis_mem ..).trans
    ((State.modSec_mem ..).trans ((h ..).trans ?_)))))
  refine foldl_mem _ ?_ _ _
  intro a b
  exact State.securityRec_mem ..
@[simp] theorem State.bootFrom_mem (s : State) (since strap : Nat) (f : BootFinds) : (State.bootFrom s since strap f).mem = s.mem := by
  unfold State.bootFrom
  dsimp only
  repeat' (first | (simp; done) | split | (refine (foldl_mem _ ?_ _ _).trans ?_) | (refine (foldl_fst_mem _ ?_ _ _).trans ?_) | (intro _ _)
                 | (simp only [Prod.ext_iff] at *; (repeat (cases ‹_ ∧ _›)); subst_vars; simp; done))
@[simp] theorem State.given_mem (s : State) (b : Board) : (State.given s b).mem = s.mem := by
  unfold State.given
  dsimp only
  repeat' (first | (simp; done) | split | (refine (foldl_mem _ ?_ _ _).trans ?_) | (intro _ _))
@[simp] theorem State.startCore_mem (s : State) (finds : List BistFind) (c : Nat) : (State.startCore s finds c).mem = s.mem := by
  unfold State.startCore
  dsimp only
  split
  · exact State.setPstate_mem ..
  · split
    · exact State.setPstate_mem ..
    · split
      · exact (State.repairRec_mem ..).trans ((State.setPstate_mem ..).trans (State.setBist_mem ..))
      · split
        · exact (State.repairRec_mem ..).trans ((State.setPstate_mem ..).trans (State.setBist_mem ..))
        · split
          · exact (State.repairRec_mem ..).trans ((State.setPstate_mem ..).trans ((State.repairRec_mem ..).trans ((State.modRepair_mem ..).trans (State.setBist_mem ..))))
          · exact (State.repairRec_mem ..).trans ((State.setPstate_mem ..).trans ((State.modRepair_mem ..).trans (State.setBist_mem ..)))
@[simp] theorem State.assign_mem (s : State) (p : Nat) : (State.assign s p).mem = s.mem := by
  unfold State.assign
  dsimp only
  repeat' (first | (simp; done) | split)
@[simp] theorem State.respond_mem (s : State) (o : Origin) (op key : Nat) (pend : Bool) (r : Resp) :
    (State.respond s o op key pend r).mem = s.mem := by
  simp [State.respond]
@[simp] theorem State.take_mem (s : State) (o : Origin) : (State.take s o).mem = s.mem := by
  simp [State.take]
@[simp] theorem State.armCommit_mem (s : State) (jseq v : Nat) : (State.armCommit s jseq v).1.mem = s.mem := by
  simp [State.armCommit]
@[simp] theorem State.discard_mem (s : State) : (State.discard s).mem = s.mem := by
  simp [State.discard]
@[simp] theorem State.stage_mem (s : State) (w : Waiting) : (State.stage s w).mem = s.mem := by
  simp [State.stage]

end Sys2Proof.Machine
end

