-- ==== Sys2Proof/Laws/Objects.lean ====
section
/-!
SUPPORT. One lemma per shared operation: the operations that leave the values of the dictionary's objects as they were.
-/
set_option linter.unusedSimpArgs false
set_option linter.unusedVariables false
namespace Sys2Proof.Machine

@[simp] theorem ite_objVals (c : Prop) [Decidable c] (a b : State) : (if c then a else b).objVals = if c then a.objVals else b.objVals := by split <;> rfl
@[simp] theorem ite_fst_objVals {α : Type} (c : Prop) [Decidable c] (a b : State × α) : (if c then a else b).1.objVals = if c then a.1.objVals else b.1.objVals := by split <;> rfl
@[simp] theorem foldl_objVals {α : Type} (g : State → α → State) (h : ∀ s a, (g s a).objVals = s.objVals) (l : List α) (s : State) : (l.foldl g s).objVals = s.objVals := by
  induction l generalizing s with
  | nil => rfl
  | cons a l ih => simp [ih, h]
@[simp] theorem foldl_fst_objVals {α β : Type} (g : State × β → α → State × β) (h : ∀ s a, (g s a).1.objVals = s.1.objVals) (l : List α) (s : State × β) : (l.foldl g s).1.objVals = s.1.objVals := by
  induction l generalizing s with
  | nil => rfl
  | cons a l ih => simp [ih, h]
@[simp] theorem andThen_objVals {α β : Type} (r : State × Moved α) (g : State → α → State × Moved β) (h : ∀ s a, (g s a).1.objVals = s.objVals) :
    (andThen r g).1.objVals = r.1.objVals := by
  unfold andThen; split <;> simp [h]
@[simp] theorem State.emitAll_objVals (s : State) (l : List Output) : (State.emitAll s l).objVals = s.objVals := by
  simp [State.emitAll]
@[simp] theorem State.msix_objVals (s : State) (vec : Nat) : (State.msix s vec).objVals = s.objVals := by
  simp [State.msix]
@[simp] theorem State.sendPending_objVals (s : State) : (State.sendPending s).objVals = s.objVals := by
  unfold State.sendPending
  dsimp only
  repeat' (first | (simp; done) | split | (refine (foldl_objVals _ ?_ _ _).trans ?_) | (intro _ _))
@[simp] theorem State.signalErr_objVals (s : State) : (State.signalErr s).objVals = s.objVals := by
  unfold State.signalErr
  dsimp only
  repeat' (first | (simp; done) | split)
@[simp] theorem State.sendEvent_objVals (s : State) (r : ErrRec) : (State.sendEvent s r).objVals = s.objVals := by
  simp [State.sendEvent]
@[simp] theorem State.postNew_objVals (s : State) (a : ErrArgs) : (State.postNew s a).objVals = s.objVals := by
  simp [State.postNew]
@[simp] theorem State.postErr_objVals (s : State) (a : ErrArgs) : (State.postErr s a).objVals = s.objVals := by
  unfold State.postErr
  dsimp only
  repeat' (first | (simp; done) | split)
@[simp] theorem State.clearSecrets_objVals (s : State) : (State.clearSecrets s).objVals = s.objVals := by
  simp [State.clearSecrets]
@[simp] theorem State.fatalTrigger_objVals (s : State) (cause : Nat) (uk : UKind) (unit i6 i7 : Nat) :
    (State.fatalTrigger s cause uk unit i6 i7).objVals = s.objVals := by
  simp [State.fatalTrigger]
@[simp] theorem State.setPstate_objVals (s : State) (c : Nat) (p : PState) : (State.setPstate s c p).objVals = s.objVals := by
  simp [State.setPstate]
@[simp] theorem State.repairRec_objVals (s : State) (sev : Sev) (cause c : Nat) : (State.repairRec s sev cause c).objVals = s.objVals := by
  simp [State.repairRec]
@[simp] theorem State.keepClear_objVals (s : State) (c : Nat) : (State.keepClear s c).objVals = s.objVals := by
  simp [State.keepClear]
@[simp] theorem State.startBench_objVals (s : State) (c : Nat) (sub : Option Nat) : (State.startBench s c sub).objVals = s.objVals := by
  simp [State.startBench]
@[simp] theorem State.requestBench_objVals (s : State) (c : Nat) (sub : Option Nat) : (State.requestBench s c sub).1.objVals = s.objVals := by
  simp [State.requestBench]
@[simp] theorem State.followUp_objVals (s : State) (cause : Cause) (core dpa : Nat) : (State.followUp s cause core dpa).objVals = s.objVals := by
  unfold State.followUp
  dsimp only
  repeat' (first | (simp; done) | split)
@[simp] theorem State.withdraw_objVals (s : State) (c : Cmd) : (State.withdraw s c).objVals = s.objVals := by
  simp [State.withdraw]
@[simp] theorem State.markHeld_objVals (s : State) (q : Nat) : (State.markHeld s q).objVals = s.objVals := by
  simp [State.markHeld]
@[simp] theorem State.haltQueue_objVals (s : State) (c : Cmd) (haltedPos : List Nat) : (State.haltQueue s c haltedPos).objVals = s.objVals := by
  unfold State.haltQueue
  refine (State.markHeld_objVals ..).trans ((foldl_objVals _ ?_ _ _).trans ?_)
  · intro a b
    rw [ite_objVals, State.withdraw_objVals, ite_self]
  · exact (State.modFix_objVals ..).trans (State.modCfe_objVals ..)
@[simp] theorem State.captureCard_objVals (s : State) (a : FaultArgs) (c : Cmd) (rseq : Nat) :
    (State.captureCard s a c rseq).1.objVals = s.objVals := by
  unfold State.captureCard
  dsimp only
  repeat' (first | (simp; done) | split)
@[simp] theorem State.addCause_objVals (s : State) (a : FaultArgs) (c : Cmd) (k : Nat) : (State.addCause s a c k).objVals = s.objVals := by
  unfold State.addCause
  dsimp only
  repeat' (first | (simp; done) | split)
@[simp] theorem State.faultCommand_objVals (s : State) (a : FaultArgs) : (State.faultCommand s a).objVals = s.objVals := by
  unfold State.faultCommand
  dsimp only
  repeat' (first | (simp; done) | split)
@[simp] theorem State.recordReason_objVals (s : State) (ref code : Nat) : (State.recordReason s ref code).objVals = s.objVals := by
  simp [State.recordReason]
@[simp] theorem State.coreFault_objVals (s : State) (p : Nat) (cause : Cause) (eng : Engine) (instr : Nat) (detail : List Nat) (passidx : Nat) (dva :
    Nat) (dpa : Nat) : (State.coreFault s p cause eng instr detail passidx dva dpa).objVals = s.objVals := by
  simp [State.coreFault]
@[simp] theorem State.bgWrite_objVals (s : State) (p off : Nat) (bs : List Byte) : (State.bgWrite s p off bs).objVals = s.objVals := by
  simp [State.bgWrite]
@[simp] theorem State.noteEcc_objVals (s : State) (p : Nat) (e : Ecc) : (State.noteEcc s p e).objVals = s.objVals := by
  simp [State.noteEcc]
@[simp] theorem State.loseAccess_objVals (s : State) (p t : Nat) (x y : Access) : (State.loseAccess s p t x y).objVals = s.objVals := by
  simp [State.loseAccess]
@[simp] theorem State.modStack_objVals (s : State) (k : Nat) (f : Stack → Stack) : (State.modStack s k f).objVals = s.objVals := by
  simp [State.modStack]
@[simp] theorem State.modSlm_objVals (s : State) (k : Nat) (f : Slm → Slm) : (State.modSlm s k f).objVals = s.objVals := by
  simp [State.modSlm]
@[simp] theorem State.addBad_objVals (s : State) (st dpa : Nat) : (State.addBad s st dpa).objVals = s.objVals := by
  simp [State.addBad]
@[simp] theorem State.beginMapout_objVals (s : State) (st ch : Nat) : (State.beginMapout s st ch).objVals = s.objVals := by
  simp [State.beginMapout]
@[simp] theorem State.refuseMapout_objVals (s : State) (st ch : Nat) : (State.refuseMapout s st ch).objVals = s.objVals := by
  simp [State.refuseMapout]
@[simp] theorem State.startMapout_objVals (s : State) (st ch : Nat) : (State.startMapout s st ch).objVals = s.objVals := by
  simp [State.startMapout]
@[simp] theorem State.waitMapout_objVals (s : State) (st ch : Nat) : (State.waitMapout s st ch).objVals = s.objVals := by
  simp [State.waitMapout]
@[simp] theorem State.autoMapout_objVals (s : State) (st ch : Nat) : (State.autoMapout s st ch).objVals = s.objVals := by
  simp [State.autoMapout]
@[simp] theorem State.hbmCorrected_objVals (s : State) (st l dpa : Nat) : (State.hbmCorrected s st l dpa).objVals = s.objVals := by
  simp [State.hbmCorrected]
@[simp] theorem State.hbmUncorrectable_objVals (s : State) (st l dpa : Nat) : (State.hbmUncorrectable s st l dpa).objVals = s.objVals := by
  simp [State.hbmUncorrectable]
@[simp] theorem State.noteRead_objVals (s : State) (dpa : Nat) (e : Ecc) : (State.noteRead s dpa e).objVals = s.objVals := by
  unfold State.noteRead
  repeat' (first | (simp; done) | split)
@[simp] theorem State.cacheRead_objVals (s : State) (dpa cls : Nat) : (State.cacheRead s dpa cls).objVals = s.objVals := by
  unfold State.cacheRead
  dsimp only
  repeat' (first | (simp; done) | split)
@[simp] theorem State.foundAt_objVals (s : State) (dpa : Nat) (e : Ecc) : (State.foundAt s dpa e).1.objVals = s.objVals := by
  unfold State.foundAt
  dsimp only
  repeat' (first | (simp; done) | split)
@[simp] theorem State.cacheWrite_objVals (s : State) (dpa : Nat) (atomic : Bool) : (State.cacheWrite s dpa atomic).objVals = s.objVals := by
  unfold State.cacheWrite
  dsimp only
  repeat' (first | (simp; done) | split)
@[simp] theorem State.cacheInstall_objVals (s : State) (k blk : Nat) : (State.cacheInstall s k blk).objVals = s.objVals := by
  simp [State.cacheInstall]
@[simp] theorem State.writeDram_objVals (s : State) (dpa : Nat) (bs : List Byte) : (State.writeDram s dpa bs).objVals = s.objVals := by
  unfold State.writeDram
  dsimp only
  repeat' (first | (simp; done) | split)
@[simp] theorem State.writeDpa_objVals (s : State) (dpa : Nat) (bs : List Byte) : (State.writeDpa s dpa bs).objVals = s.objVals := by
  unfold State.writeDpa
  repeat' (first | (simp; done) | split | (refine (foldl_objVals _ ?_ _ _).trans ?_) | (intro _ _))
@[simp] theorem State.modXl_objVals (s : State) (f : Xlate → Xlate) : (State.modXl s f).objVals = s.objVals := by
  simp [State.modXl]
@[simp] theorem State.pageWalk_objVals (s : State) (d : Nat) (xus : List Nat) (stale : Bool) (dva : Nat) (ue : Option Nat) :
    (State.pageWalk s d xus stale dva ue).1.objVals = s.objVals := by
  unfold State.pageWalk
  dsimp only
  repeat' (first | (simp; done) | split | (refine (foldl_objVals _ ?_ _ _).trans ?_) | (intro _ _))
@[simp] theorem State.xlFault_objVals (s : State) : (State.xlFault s).objVals = s.objVals := by
  simp [State.xlFault]
@[simp] theorem State.tlbFind_objVals (s : State) (xu dva : Nat) : (State.tlbFind s xu dva).1.objVals = s.objVals := by
  unfold State.tlbFind
  repeat' (first | (simp; done) | split)
@[simp] theorem State.translate_objVals (s : State) (xu dva : Nat) (wr : Bool) (ue : Option Nat) :
    (State.translate s xu dva wr ue).1.objVals = s.objVals := by
  unfold State.translate
  dsimp only
  repeat' (first | (simp; done) | split | (refine (foldl_objVals _ ?_ _ _).trans ?_) | (refine (foldl_fst_objVals _ ?_ _ _).trans ?_) | (intro _ _)
                 | (simp only [Prod.ext_iff] at *; (repeat (cases ‹_ ∧ _›)); subst_vars; simp; done))
@[simp] theorem State.noteMiss_objVals (s : State) (id xu dva cls : Nat) : (State.noteMiss s id xu dva cls).objVals = s.objVals := by
  simp [State.noteMiss]
@[simp] theorem State.endMiss_objVals (s : State) (m : Miss) : (State.endMiss s m).objVals = s.objVals := by
  simp [State.endMiss]
@[simp] theorem State.applyInvalidations_objVals (s : State) : (State.applyInvalidations s).objVals = s.objVals := by
  simp [State.applyInvalidations]
@[simp] theorem State.modPort_objVals (s : State) (n : Nat) (f : Port → Port) : (State.modPort s n f).objVals = s.objVals := by
  simp [State.modPort]
@[simp] theorem State.txNow_objVals (s : State) (n : Nat) (k : Packet) : (State.txNow s n k).objVals = s.objVals := by
  simp [State.txNow]
@[simp] theorem State.txOn_objVals (s : State) (n : Nat) (k : Packet) : (State.txOn s n k).objVals = s.objVals := by
  simp [State.txOn]
@[simp] theorem State.flushPort_objVals (s : State) (n : Nat) : (State.flushPort s n).objVals = s.objVals := by
  unfold State.flushPort
  dsimp only
  repeat' (first | (simp; done) | split | (refine (foldl_objVals _ ?_ _ _).trans ?_) | (intro _ _))
@[simp] theorem State.send_objVals (s : State) (k : Packet) : (State.send s k).objVals = s.objVals := by
  unfold State.send
  repeat' (first | (simp; done) | split)
@[simp] theorem State.sendRequest_objVals (s : State) (a : PktArgs) (owner : ReqOwner) : (State.sendRequest s a owner).objVals = s.objVals := by
  unfold State.sendRequest
  split
  · exact State.modLinks_objVals ..
  · exact (State.modLinks_objVals ..).trans ((State.send_objVals ..).trans (State.modLinks_objVals ..))
@[simp] theorem State.flushBacklog_objVals (s : State) (dst : Nat) : (State.flushBacklog s dst).objVals = s.objVals := by
  unfold State.flushBacklog
  dsimp only
  repeat' (first | (simp; done) | split)
@[simp] theorem State.dropReq_objVals (s : State) (dst eseq : Nat) : (State.dropReq s dst eseq).objVals = s.objVals := by
  simp [State.dropReq]
@[simp] theorem State.eack_objVals (s : State) (k : Packet) (case : Nat) : (State.eack s k case).objVals = s.objVals := by
  unfold State.eack
  exact State.send_objVals ..
@[simp] theorem State.dropPkt_objVals (s : State) (n : Nat) (nak : Bool) : (State.dropPkt s n nak).objVals = s.objVals := by
  simp [State.dropPkt]
@[simp] theorem State.seeEpoch_objVals (s : State) (k : Packet) : (State.seeEpoch s k).objVals = s.objVals := by
  simp [State.seeEpoch]
@[simp] theorem State.answer_objVals (s : State) (k : Packet) (case : Nat) : (State.answer s k case).objVals = s.objVals := by
  unfold State.answer
  refine (State.eack_objVals ..).trans ?_
  split
  · exact State.modLinks_objVals ..
  · rfl
@[simp] theorem State.storeHost_objVals (s : State) (ref : Nat) (xfer : Option (Nat × Nat)) (ring : Option Nat) (addr : Nat) (bs : List Byte) :
    (State.storeHost s ref xfer ring addr bs).objVals = s.objVals := by
  simp [State.storeHost]
@[simp] theorem State.askBi_objVals (s : State) (lines : List Nat) (wr : Bool) : (State.askBi s lines wr).objVals = s.objVals := by
  unfold State.askBi
  repeat' (first | (simp; done) | split | (refine (foldl_objVals _ ?_ _ _).trans ?_) | (intro _ _))
@[simp] theorem State.endBi_objVals (s : State) (dpa len : Nat) : (State.endBi s dpa len).objVals = s.objVals := by
  simp [State.endBi]
@[simp] theorem State.modXfer_objVals (s : State) (id : Nat) (f : Xfer → Xfer) : (State.modXfer s id f).objVals = s.objVals := by
  simp [State.modXfer]
@[simp] theorem State.placeAt_objVals (s : State) (xu cls a n : Nat) (tgt : Tgt) (addr : Nat) :
    (State.placeAt s xu cls a n tgt addr).1.objVals = s.objVals := by
  unfold State.placeAt
  dsimp only
  repeat' (first | (simp; done) | split)
@[simp] theorem State.resolve_objVals (s : State) (xu a n : Nat) (wr : Bool) (ue : Option Nat) :
    (State.resolve s xu a n wr ue).1.objVals = s.objVals := by
  unfold State.resolve
  repeat' (first | (simp; done) | split | (refine (foldl_objVals _ ?_ _ _).trans ?_) | (refine (foldl_fst_objVals _ ?_ _ _).trans ?_) | (intro _ _)
                 | (simp only [Prod.ext_iff] at *; (repeat (cases ‹_ ∧ _›)); subst_vars; simp; done))
@[simp] theorem State.pageOf_objVals (s : State) (x : Xfer) (a : Nat) : (State.pageOf s x a).1.objVals = s.objVals := by
  unfold State.pageOf
  dsimp only
  repeat' (first | (simp; done) | split | (refine (foldl_objVals _ ?_ _ _).trans ?_) | (refine (foldl_fst_objVals _ ?_ _ _).trans ?_) | (intro _ _)
                 | (simp only [Prod.ext_iff] at *; (repeat (cases ‹_ ∧ _›)); subst_vars; simp; done))
@[simp] theorem State.cacheFill_objVals (s : State) (p line : Nat) (bs : List Byte) : (State.cacheFill s p line bs).objVals = s.objVals := by
  simp [State.cacheFill]
@[simp] theorem State.cachedRead_objVals (s : State) (p dva dpa n : Nat) : (State.cachedRead s p dva dpa n).1.objVals = s.objVals := by
  unfold State.cachedRead
  dsimp only
  repeat' (first | (simp; done) | split | (refine (foldl_fst_objVals _ ?_ _ _).trans ?_) | (intro _ _))
@[simp] theorem State.fetchRun_objVals (s : State) (x : Xfer) (a n : Nat) (pl : Place) : (State.fetchRun s x a n pl).1.objVals = s.objVals := by
  unfold State.fetchRun
  dsimp only
  repeat' (first | (simp; done) | split)
@[simp] theorem State.srcFinding_objVals (s : State) (x : Xfer) (fnd : UnitFinding) (srcs : List SrcRun) :
    (State.srcFinding s x fnd srcs).1.objVals = s.objVals := by
  unfold State.srcFinding
  dsimp only
  repeat' (first | (simp; done) | split | (refine (foldl_objVals _ ?_ _ _).trans ?_) | (refine (foldl_fst_objVals _ ?_ _ _).trans ?_) | (intro _ _)
                 | (simp only [Prod.ext_iff] at *; (repeat (cases ‹_ ∧ _›)); subst_vars; simp; done))
@[simp] theorem State.cacheThrough_objVals (s : State) (p dva : Nat) (bs : List Byte) : (State.cacheThrough s p dva bs).objVals = s.objVals := by
  unfold State.cacheThrough
  dsimp only
  repeat' (first | (simp; done) | split | (refine (foldl_objVals _ ?_ _ _).trans ?_) | (intro _ _))
@[simp] theorem State.portArrive_objVals (s : State) (x : Xfer) (port : Nat) (bs : List Byte) :
    (State.portArrive s x port bs).objVals = s.objVals := by
  simp [State.portArrive]
@[simp] theorem State.deliverRun_objVals (s : State) (x : Xfer) (k : Nat) (last : Bool) (pl : Place) (a : Nat) (bs : List Byte) :
    (State.deliverRun s x k last pl a bs).objVals = s.objVals := by
  unfold State.deliverRun
  dsimp only
  repeat' (first | (simp; done) | split | (refine (foldl_objVals _ ?_ _ _).trans ?_) | (intro _ _))
@[simp] theorem State.deliverRuns_objVals (s : State) (x : Xfer) (k : Nat) (r0 : List (Place × Nat × List Byte)) :
    (State.deliverRuns s x k r0).objVals = s.objVals := by
  induction r0 generalizing s <;> simp [State.deliverRuns, *]
@[simp] theorem State.countArrival_objVals (s : State) (tc core cnt : Nat) : (State.countArrival s tc core cnt).objVals = s.objVals := by
  simp [State.countArrival]
@[simp] theorem State.placesWait_objVals (s : State) (wr : Bool) (l : List (Place × Nat × Nat)) :
    (State.placesWait s wr l).1.objVals = s.objVals := by
  unfold State.placesWait
  dsimp only
  repeat' (first | (simp; done) | split | (refine (foldl_fst_objVals _ ?_ _ _).trans ?_) | (intro _ _))
@[simp] theorem State.oldBytes_objVals (s : State) (l : List (Place × Nat × List Byte)) (ue : Nat → Bool) :
    (State.oldBytes s l ue).1.objVals = s.objVals := by
  unfold State.oldBytes
  repeat' (first | (simp; done) | split | (refine (foldl_objVals _ ?_ _ _).trans ?_) | (refine (foldl_fst_objVals _ ?_ _ _).trans ?_) | (intro _ _)
                 | (simp only [Prod.ext_iff] at *; (repeat (cases ‹_ ∧ _›)); subst_vars; simp; done))
@[simp] theorem State.failXfer_objVals (s : State) (x : Xfer) (f : XferFault) : (State.failXfer s x f).objVals = s.objVals := by
  simp [State.failXfer]
@[simp] theorem State.unitAcked_objVals (s : State) (tc : Nat) (x : Xfer) (k : Nat) (own : Bool) :
    (State.unitAcked s tc x k own).objVals = s.objVals := by
  simp [State.unitAcked]
@[simp] theorem State.takePages_objVals (s : State) (x : Xfer) (r0 : List Nat) : (State.takePages s x r0).objVals = s.objVals := by
  induction r0 generalizing s <;> (unfold State.takePages; repeat' (first | (simp [*]; done) | split
                                                                          | (simp only [Prod.ext_iff] at *; (repeat (cases ‹_ ∧ _›)); subst_vars; simp [*]; done)))
@[simp] theorem State.nextUnit_objVals (s : State) (x : Xfer) (k : Nat) : (State.nextUnit s x k).objVals = s.objVals := by
  simp [State.nextUnit]
@[simp] theorem State.landUnit_objVals (s : State) (tc : Nat) (x : Xfer) (k : Nat) (runs : List (Place × Nat × List Byte)) :
    (State.landUnit s tc x k runs).objVals = s.objVals := by
  unfold State.landUnit
  dsimp only
  repeat' (first | (simp; done) | split)
@[simp] theorem State.startXfer_objVals (s : State) (x : Xfer) : (State.startXfer s x).objVals = s.objVals := by
  simp [State.startXfer]
@[simp] theorem State.walkReaches_objVals (s : State) (m : Miss) (r : WalkOut) (w : Nat × Nat × Nat) :
    (State.walkReaches s m r w).objVals = s.objVals := by
  unfold State.walkReaches
  repeat' (first | (simp; done) | split)
@[simp] theorem State.deliverSpm_objVals (s : State) (tc core off : Nat) (cnt : Option Nat) (bs : List Byte) :
    (State.deliverSpm s tc core off cnt bs).objVals = s.objVals := by
  unfold State.deliverSpm
  dsimp only
  repeat' (first | (simp; done) | split | (refine (foldl_objVals _ ?_ _ _).trans ?_) | (intro _ _))
@[simp] theorem State.dropPort_objVals (s : State) (x : Nat) : (State.dropPort s x).objVals = s.objVals := by
  simp [State.dropPort]
@[simp] theorem State.failPort_objVals (s : State) (r : PortReq) (c : Cause) (dpa : Nat) (detail : List Nat) :
    (State.failPort s r c dpa detail).objVals = s.objVals := by
  simp [State.failPort]
@[simp] theorem State.checkAtomic_objVals (s : State) (x : Nat) : (State.checkAtomic s x).objVals = s.objVals := by
  unfold State.checkAtomic
  dsimp only
  repeat' (first | (simp; done) | split)
@[simp] theorem State.opFault_objVals (s : State) (p : Nat) (e : MatEngine) (o : MatOp) (cause : Cause) :
    (State.opFault s p e o cause).objVals = s.objVals := by
  simp [State.opFault]
@[simp] theorem State.replayOrFault_objVals (s : State) (t p : Nat) (e : MatEngine) (o : MatOp) :
    (State.replayOrFault s t p e o).objVals = s.objVals := by
  unfold State.replayOrFault
  dsimp only
  repeat' (first | (simp; done) | split)
@[simp] theorem State.completeOp_objVals (s : State) (t p : Nat) (e : MatEngine) (o : MatOp) : (State.completeOp s t p e o).objVals = s.objVals := by
  simp [State.completeOp]
@[simp] theorem State.taskEnded_objVals (s : State) (p : Nat) : (State.taskEnded s p).objVals = s.objVals := by
  simp [State.taskEnded]
@[simp] theorem State.takeRecord_objVals (s : State) (t p : Nat) (k : TaskRec) : (State.takeRecord s t p k).objVals = s.objVals := by
  unfold State.takeRecord
  dsimp only
  repeat' (first | (simp; done) | split)
@[simp] theorem State.modEmbUnit_objVals (s : State) (st : Nat) (f : EmbUnit → EmbUnit) : (State.modEmbUnit s st f).objVals = s.objVals := by
  simp [State.modEmbUnit]
@[simp] theorem State.embPlace_objVals (s : State) (st dva n : Nat) (wr : Bool) (ue : Option Nat) :
    (State.embPlace s st dva n wr ue).1.objVals = s.objVals := by
  unfold State.embPlace
  repeat' (first | (simp; done) | split | (refine (foldl_objVals _ ?_ _ _).trans ?_) | (refine (foldl_fst_objVals _ ?_ _ _).trans ?_) | (intro _ _)
                 | (simp only [Prod.ext_iff] at *; (repeat (cases ‹_ ∧ _›)); subst_vars; simp; done))
@[simp] theorem State.readHome_objVals (s : State) (st d par stripe : Nat) (ue : Option Nat) :
    (State.readHome s st d par stripe ue).1.objVals = s.objVals := by
  unfold State.readHome
  repeat' (first | (simp; done) | split | (refine (foldl_objVals _ ?_ _ _).trans ?_) | (refine (foldl_fst_objVals _ ?_ _ _).trans ?_) | (intro _ _)
                 | (simp only [Prod.ext_iff] at *; (repeat (cases ‹_ ∧ _›)); subst_vars; simp; done))
@[simp] theorem State.homeEntry_objVals (s : State) (st table d gen stripe : Nat) (ue : Option Nat) :
    (State.homeEntry s st table d gen stripe ue).1.objVals = s.objVals := by
  unfold State.homeEntry
  dsimp only
  repeat' (first | (simp; done) | split | (refine (foldl_objVals _ ?_ _ _).trans ?_) | (refine (foldl_fst_objVals _ ?_ _ _).trans ?_) | (intro _ _)
                 | (simp only [Prod.ext_iff] at *; (repeat (cases ‹_ ∧ _›)); subst_vars; simp; done))
@[simp] theorem State.stripeHome_objVals (s : State) (st table d gen stripe : Nat) (ue : Option Nat) :
    (State.stripeHome s st table d gen stripe ue).1.objVals = s.objVals := by
  simp [State.stripeHome]
@[simp] theorem State.failEmb_objVals (s : State) (st ref : Nat) (f : XferFault) : (State.failEmb s st ref f).objVals = s.objVals := by
  simp [State.failEmb]
@[simp] theorem State.markLate_objVals (s : State) (ref code : Nat) : (State.markLate s ref code).objVals = s.objVals := by
  simp [State.markLate]
@[simp] theorem State.embCtl_objVals (s : State) (o : ReqOwner) (dst table st tag ref step gen round : Nat) (m : CtlMsg) :
    (State.embCtl s o dst table st tag ref step gen round m).objVals = s.objVals := by
  simp [State.embCtl]
@[simp] theorem State.tellEntry_objVals (s : State) (f : Feed) (table step gen round : Nat) (m : CtlMsg) :
    (State.tellEntry s f table step gen round m).objVals = s.objVals := by
  simp [State.tellEntry]
@[simp] theorem State.loseStripe_objVals (s : State) (key : Nat) : (State.loseStripe s key).objVals = s.objVals := by
  simp [State.loseStripe]
@[simp] theorem State.sendMigBlock_objVals (s : State) (dst key st frame blk : Nat) :
    (State.sendMigBlock s dst key st frame blk).objVals = s.objVals := by
  simp [State.sendMigBlock]
@[simp] theorem State.writeCopy_objVals (s : State) (key st frame off : Nat) (bs : List Byte) :
    (State.writeCopy s key st frame off bs).objVals = s.objVals := by
  simp [State.writeCopy]
@[simp] theorem State.ackHome_objVals (s : State) (tag home n : Nat) : (State.ackHome s tag home n).objVals = s.objVals := by
  unfold State.ackHome
  dsimp only
  repeat' (first | (simp; done) | split)
@[simp] theorem State.noteCombined_objVals (s : State) (tag home n step : Nat) (waited : Bool) :
    (State.noteCombined s tag home n step waited).objVals = s.objVals := by
  unfold State.noteCombined
  dsimp only
  repeat' (first | (simp; done) | split)
@[simp] theorem State.failFeed_objVals (s : State) (f : Feed) (home key : Nat) (x : XferFault) :
    (State.failFeed s f home key x).objVals = s.objVals := by
  simp [State.failFeed]
@[simp] theorem State.deferPartial_objVals (s : State) (home : Nat) (p : Partial) : (State.deferPartial s home p).objVals = s.objVals := by
  simp [State.deferPartial]
@[simp] theorem State.loseEntry_objVals (s : State) (home key : Nat) (next : Bool) : (State.loseEntry s home key next).objVals = s.objVals := by
  unfold State.loseEntry
  dsimp only
  repeat' (first | (simp; done) | split | (refine (foldl_objVals _ ?_ _ _).trans ?_) | (intro _ _))
@[simp] theorem State.addSats_objVals (s : State) (t n : Nat) : (State.addSats s t n).objVals = s.objVals := by
  simp [State.addSats]
@[simp] theorem State.applyHome_objVals (s : State) (st t d stripe : Nat) : (State.applyHome s st t d stripe).1.objVals = s.objVals := by
  unfold State.applyHome
  repeat' (first | (simp; done) | split)
@[simp] theorem State.routeRow_objVals (s : State) (repl : Bool) (st table d gen : Nat) (ue : Option Nat) (row : Nat) :
    (State.routeRow s repl st table d gen ue row).1.objVals = s.objVals := by
  unfold State.routeRow
  repeat' (first | (simp; done) | split | (refine (foldl_objVals _ ?_ _ _).trans ?_) | (refine (foldl_fst_objVals _ ?_ _ _).trans ?_) | (intro _ _)
                 | (simp only [Prod.ext_iff] at *; (repeat (cases ‹_ ∧ _›)); subst_vars; simp; done))
@[simp] theorem State.addShares_objVals (s : State) (l : List Share) : (State.addShares s l).objVals = s.objVals := by
  simp [State.addShares]
@[simp] theorem State.sendParts_objVals (s : State) (h : Share) : (State.sendParts s h).objVals = s.objVals := by
  unfold State.sendParts
  dsimp only
  repeat' (first | (simp; done) | split | (refine (foldl_objVals _ ?_ _ _).trans ?_) | (intro _ _))
@[simp] theorem State.noteServed_objVals (s : State) (table d home row n : Nat) (maxRun : Nat) :
    (State.noteServed s table d home row n maxRun).objVals = s.objVals := by
  simp [State.noteServed]
@[simp] theorem State.cacheRow_objVals (s : State) (home key b : Nat) : (State.cacheRow s home key b).objVals = s.objVals := by
  simp [State.cacheRow]
@[simp] theorem State.failEmbPort_objVals (s : State) (r : PortReq) (st : Nat) (f : XferFault) :
    (State.failEmbPort s r st f).objVals = s.objVals := by
  simp [State.failEmbPort]
@[simp] theorem State.sendIndexes_objVals (s : State) (l : Look) (m : Nat) (entries : List (Nat × Nat)) :
    (State.sendIndexes s l m entries).objVals = s.objVals := by
  unfold State.sendIndexes
  refine (State.embCtl_objVals ..).trans (foldl_objVals _ ?_ _ _)
  intro a b
  exact State.sendRequest_objVals ..
@[simp] theorem State.rowFound_objVals (s : State) (h : Share) (hst key dpa : Nat) (fnd : RowFinding) :
    (State.rowFound s h hst key dpa fnd).1.objVals = s.objVals := by
  unfold State.rowFound
  dsimp only
  repeat' (first | (simp; done) | split)
@[simp] theorem State.sendUpdate_objVals (s : State) (m table st tag ref step gen row : Nat) (vals : List Int) :
    (State.sendUpdate s m table st tag ref step gen row vals).objVals = s.objVals := by
  unfold State.sendUpdate
  repeat' (first | (simp; done) | split | (refine (foldl_objVals _ ?_ _ _).trans ?_) | (intro _ _))
@[simp] theorem State.placeRepair_objVals (s : State) (k : RepairKind) (touch : List Nat) : (State.placeRepair s k touch).objVals = s.objVals := by
  simp [State.placeRepair]
@[simp] theorem State.slowed_objVals (s : State) (use : Placement → Nat) (room : Nat) : (State.slowed s use room).objVals = s.objVals := by
  unfold State.slowed
  dsimp only
  repeat' (first | (simp; done) | split | (refine (foldl_objVals _ ?_ _ _).trans ?_) | (intro _ _))
@[simp] theorem State.slowedPort_objVals (s : State) (n charged : Nat) : (State.slowedPort s n charged).objVals = s.objVals := by
  simp [State.slowedPort]
@[simp] theorem State.setLook_objVals (s : State) (l : Look) : (State.setLook s l).objVals = s.objVals := by
  simp [State.setLook]
@[simp] theorem State.endRelay_objVals (s : State) (r : Relay) : (State.endRelay s r).objVals = s.objVals := by
  simp [State.endRelay]
@[simp] theorem State.relayPartial_objVals (s : State) (m home step : Nat) (p : Partial) :
    (State.relayPartial s m home step p).objVals = s.objVals := by
  simp [State.relayPartial]
@[simp] theorem State.setMig_objVals (s : State) (m : Mig) : (State.setMig s m).objVals = s.objVals := by
  simp [State.setMig]
@[simp] theorem State.endMig_objVals (s : State) (key : Nat) (st : MigSt) : (State.endMig s key st).objVals = s.objVals := by
  simp [State.endMig]
@[simp] theorem State.placeMig_objVals (s : State) (m : Mig) : (State.placeMig s m).objVals = s.objVals := by
  unfold State.placeMig
  dsimp only
  repeat' (first | (simp; done) | split)
@[simp] theorem State.migAcked_objVals (s : State) (key : Nat) : (State.migAcked s key).objVals = s.objVals := by
  unfold State.migAcked
  repeat' (first | (simp; done) | split)
@[simp] theorem State.loseBad_objVals (s : State) (st : Nat) : (State.loseBad s st).objVals = s.objVals := by
  unfold State.loseBad
  dsimp only
  repeat' (first | (simp; done) | split | (refine (foldl_objVals _ ?_ _ _).trans ?_) | (intro _ _))
@[simp] theorem State.embWrite_objVals (s : State) (st dva : Nat) (bs : List Byte) : (State.embWrite s st dva bs).objVals = s.objVals := by
  unfold State.embWrite
  repeat' (first | (simp; done) | split | (refine (foldl_objVals _ ?_ _ _).trans ?_) | (refine (foldl_fst_objVals _ ?_ _ _).trans ?_) | (intro _ _)
                 | (simp only [Prod.ext_iff] at *; (repeat (cases ‹_ ∧ _›)); subst_vars; simp; done))
@[simp] theorem State.writeHome_objVals (s : State) (st d par stripe e : Nat) : (State.writeHome s st d par stripe e).objVals = s.objVals := by
  simp [State.writeHome]
@[simp] theorem State.dropHmap_objVals (s : State) (p : Nat → Bool) : (State.dropHmap s p).objVals = s.objVals := by
  unfold State.dropHmap
  repeat' (first | (simp; done) | split | (refine (foldl_objVals _ ?_ _ _).trans ?_) | (intro _ _))
@[simp] theorem State.moveEntries_objVals (s : State) (d key a b : Nat) : (State.moveEntries s d key a b).objVals = s.objVals := by
  simp [State.moveEntries]
@[simp] theorem State.switchMig_objVals (s : State) (m : Mig) : (State.switchMig s m).objVals = s.objVals := by
  simp [State.switchMig]
@[simp] theorem State.migEdge_objVals (s : State) : (State.migEdge s).objVals = s.objVals := by
  unfold State.migEdge
  repeat' (first | (simp; done) | split | (refine (foldl_objVals _ ?_ _ _).trans ?_) | (intro _ _))
@[simp] theorem State.handOver_objVals (s : State) (m : Mig) : (State.handOver s m).objVals = s.objVals := by
  unfold State.handOver
  dsimp only
  repeat' (first | (simp; done) | split | (refine (foldl_objVals _ ?_ _ _).trans ?_) | (intro _ _))
@[simp] theorem State.switchGen_objVals (s : State) (t : Nat) : (State.switchGen s t).objVals = s.objVals := by
  unfold State.switchGen
  dsimp only
  repeat' (first | (simp; done) | split | (refine (foldl_objVals _ ?_ _ _).trans ?_) | (intro _ _))
@[simp] theorem State.switchGens_objVals (s : State) : (State.switchGens s).objVals = s.objVals := by
  unfold State.switchGens
  repeat' (first | (simp; done) | split | (refine (foldl_objVals _ ?_ _ _).trans ?_) | (intro _ _))
@[simp] theorem State.writeTableHeat_objVals (s : State) (t st : Nat) : (State.writeTableHeat s t st).objVals = s.objVals := by
  unfold State.writeTableHeat
  dsimp only
  repeat' (first | (simp; done) | split | (refine (foldl_objVals _ ?_ _ _).trans ?_) | (intro _ _))
@[simp] theorem State.eachEmb_objVals (s : State) (f : State → Nat → State) (h_f : ∀ z y0, (f z y0).objVals = z.objVals) :
    (State.eachEmb s f).objVals = s.objVals := by
  unfold State.eachEmb
  repeat' (first | (simp [*]; done) | split | (refine (foldl_objVals _ ?_ _ _).trans ?_) | (intro _ _))
@[simp] theorem State.heatEdge_objVals (s : State) : (State.heatEdge s).objVals = s.objVals := by
  unfold State.heatEdge
  dsimp only
  repeat' (first | (simp; done) | split | (refine (foldl_objVals _ ?_ _ _).trans ?_) | (intro _ _))
@[simp] theorem State.replEdge_objVals (s : State) : (State.replEdge s).objVals = s.objVals := by
  unfold State.replEdge
  dsimp only
  repeat' (first | (simp; done) | split | (refine (foldl_objVals _ ?_ _ _).trans ?_) | (intro _ _))
@[simp] theorem State.modRally_objVals (s : State) (e : Nat) (f : Rally → Rally) : (State.modRally s e f).objVals = s.objVals := by
  simp [State.modRally]
@[simp] theorem State.endRally_objVals (s : State) (e : Nat) : (State.endRally s e).objVals = s.objVals := by
  simp [State.endRally]
@[simp] theorem State.sendTile_objVals (s : State) (e : Nat) : (State.sendTile s e).objVals = s.objVals := by
  unfold State.sendTile
  dsimp only
  repeat' (first | (simp; done) | split | (refine (foldl_objVals _ ?_ _ _).trans ?_) | (intro _ _))
@[simp] theorem State.sendVerdict_objVals (s : State) (e verdict : Nat) (anchor : Int) (sums : Bool) :
    (State.sendVerdict s e verdict anchor sums).objVals = s.objVals := by
  unfold State.sendVerdict
  refine foldl_objVals _ ?_ _ _
  intro a b
  dsimp only
  split
  · refine foldl_objVals _ ?_ _ _
    intro x i
    exact State.sendRequest_objVals ..
  · exact State.sendRequest_objVals ..
@[simp] theorem State.failRally_objVals (s : State) (e : Nat) (c : Cause) : (State.failRally s e c).objVals = s.objVals := by
  unfold State.failRally
  dsimp only
  repeat' (first | (simp; done) | split)
@[simp] theorem State.addTile_objVals (s : State) (e : Nat) (l : List (Nat × Int)) : (State.addTile s e l).objVals = s.objVals := by
  simp [State.addTile]
@[simp] theorem State.replayRally_objVals (s : State) (t e : Nat) (anchor : Int) : (State.replayRally s t e anchor).objVals = s.objVals := by
  unfold State.replayRally
  dsimp only
  repeat' (first | (simp; done) | split)
@[simp] theorem State.judgeRoot_objVals (s : State) (t e : Nat) : (State.judgeRoot s t e).objVals = s.objVals := by
  unfold State.judgeRoot
  dsimp only
  repeat' (first | (simp; done) | split)
@[simp] theorem State.rallyCheck_objVals (s : State) (t e : Nat) : (State.rallyCheck s t e).objVals = s.objVals := by
  simp [State.rallyCheck]
@[simp] theorem State.rallyOwn_objVals (s : State) (t e : Nat) (o : MatOp) : (State.rallyOwn s t e o).objVals = s.objVals := by
  simp [State.rallyOwn]
@[simp] theorem State.rallyRefused_objVals (s : State) (k : Packet) (case : Nat) : (State.rallyRefused s k case).1.objVals = s.objVals := by
  simp [State.rallyRefused]
@[simp] theorem State.forwardVerdict_objVals (s : State) (e : Nat) (k : Packet) : (State.forwardVerdict s e k).objVals = s.objVals := by
  unfold State.forwardVerdict
  dsimp only
  repeat' (first | (simp; done) | split | (refine (foldl_objVals _ ?_ _ _).trans ?_) | (intro _ _))
@[simp] theorem State.judgeWindow_objVals (s : State) (n : Nat) (k : Packet) (len : Nat) (wr : Bool) (ue : Option Nat) :
    (State.judgeWindow s n k len wr ue).1.objVals = s.objVals := by
  unfold State.judgeWindow
  dsimp only
  repeat' (first | (simp; done) | split | (refine (foldl_objVals _ ?_ _ _).trans ?_) | (refine (foldl_fst_objVals _ ?_ _ _).trans ?_) | (intro _ _)
                 | (simp only [Prod.ext_iff] at *; (repeat (cases ‹_ ∧ _›)); subst_vars; simp; done))
@[simp] theorem State.windowRefused_objVals (s : State) (k : Packet) (case : Nat) : (State.windowRefused s k case).objVals = s.objVals := by
  simp [State.windowRefused]
@[simp] theorem State.windowRead_objVals (s : State) (cls : Nat) (e : Ecc) (runs : List (Place × Nat × Nat)) :
    (State.windowRead s cls e runs).1.objVals = s.objVals := by
  unfold State.windowRead
  dsimp only
  repeat' (first | (simp; done) | split | (refine (foldl_fst_objVals _ ?_ _ _).trans ?_) | (intro _ _))
@[simp] theorem State.noteRetry_objVals (s : State) (r : E2e) : (State.noteRetry s r).objVals = s.objVals := by
  unfold State.noteRetry
  repeat' (first | (simp; done) | split)
@[simp] theorem State.resend_objVals (s : State) (r : E2e) (f : E2e → E2e) : (State.resend s r f).objVals = s.objVals := by
  unfold State.resend
  dsimp only
  repeat' (first | (simp; done) | split)
@[simp] theorem State.linkErr_objVals (s : State) (n cause : Nat) (sev : Sev) (l : Option Nat) :
    (State.linkErr s n cause sev l).objVals = s.objVals := by
  simp [State.linkErr]
@[simp] theorem State.portDown_objVals (s : State) (n : Nat) : (State.portDown s n).objVals = s.objVals := by
  simp [State.portDown]
@[simp] theorem State.settlePort_objVals (s : State) (n : Nat) : (State.settlePort s n).objVals = s.objVals := by
  simp [State.settlePort]
@[simp] theorem State.linkEdge_objVals (s : State) : (State.linkEdge s).objVals = s.objVals := by
  unfold State.linkEdge
  dsimp only
  repeat' (first | (simp; done) | split | (refine (foldl_objVals _ ?_ _ _).trans ?_) | (intro _ _))
@[simp] theorem State.sendControl_objVals (s : State) (n : Nat) : (State.sendControl s n).objVals = s.objVals := by
  simp [State.sendControl]
@[simp] theorem State.resendHeld_objVals (s : State) (n : Nat) : (State.resendHeld s n).objVals = s.objVals := by
  unfold State.resendHeld
  dsimp only
  repeat' (first | (simp; done) | split | (refine (foldl_objVals _ ?_ _ _).trans ?_) | (intro _ _))
@[simp] theorem State.retry_objVals (s : State) (n : Nat) : (State.retry s n).objVals = s.objVals := by
  unfold State.retry
  dsimp only
  repeat' (first | (simp; done) | split | (refine (foldl_objVals _ ?_ _ _).trans ?_) | (intro _ _))
@[simp] theorem State.ackHeld_objVals (s : State) (n ack : Nat) : (State.ackHeld s n ack).objVals = s.objVals := by
  simp [State.ackHeld]
@[simp] theorem State.beginReplace_objVals (s : State) (n l pos : Nat) (reactive : Bool) :
    (State.beginReplace s n l pos reactive).objVals = s.objVals := by
  unfold State.beginReplace
  repeat' (first | (simp; done) | split)
@[simp] theorem State.takeTrigger_objVals (s : State) (n : Nat) (k : Trigger) : (State.takeTrigger s n k).objVals = s.objVals := by
  unfold State.takeTrigger
  dsimp only
  repeat' (first | (simp; done) | split)
@[simp] theorem State.nextTrigger_objVals (s : State) (n : Nat) : (State.nextTrigger s n).objVals = s.objVals := by
  unfold State.nextTrigger
  repeat' (first | (simp; done) | split | (refine (foldl_objVals _ ?_ _ _).trans ?_) | (intro _ _))
@[simp] theorem State.applyRetrain_objVals (s : State) (n l v : Nat) : (State.applyRetrain s n l v).objVals = s.objVals := by
  simp [State.applyRetrain]
@[simp] theorem State.applyPin_objVals (s : State) (n l : Nat) : (State.applyPin s n l).objVals = s.objVals := by
  simp [State.applyPin]
@[simp] theorem State.charge_objVals (s : State) (ref : Nat) (l : List Placement) : (State.charge s ref l).objVals = s.objVals := by
  simp [State.charge]
@[simp] theorem State.setCad_objVals (s : State) (c : CadState) : (State.setCad s c).objVals = s.objVals := by
  unfold State.setCad
  dsimp only
  repeat' (first | (simp; done) | split)
@[simp] theorem State.announce_objVals (s : State) (e : Nat) (c : CadState) (hold : Nat) : (State.announce s e c hold).objVals = s.objVals := by
  simp [State.announce]
@[simp] theorem State.stray_objVals (s : State) : (State.stray s).objVals = s.objVals := by
  simp [State.stray]
@[simp] theorem State.relockPulse_objVals (s : State) : (State.relockPulse s).objVals = s.objVals := by
  unfold State.relockPulse
  dsimp only
  repeat' (first | (simp; done) | split)
@[simp] theorem State.winRead_objVals (s : State) (a n w off : Nat) : (State.winRead s a n w off).1.objVals = s.objVals := by
  unfold State.winRead
  dsimp only
  repeat' (first | (simp; done) | split)
@[simp] theorem State.cfeWriteRun_objVals (s : State) (ref : Nat) (ring : Option Nat) (pl : Place) (a : Nat) (bs : List Byte) :
    (State.cfeWriteRun s ref ring pl a bs).1.objVals = s.objVals := by
  unfold State.cfeWriteRun
  dsimp only
  repeat' (first | (simp; done) | split | (refine (foldl_objVals _ ?_ _ _).trans ?_) | (intro _ _))
@[simp] theorem State.settle_objVals (s : State) (q : Nat) : (State.settle s q).objVals = s.objVals := by
  simp [State.settle]
@[simp] theorem State.takeBuffer_objVals (s : State) (b : Buffer) : (State.takeBuffer s b).objVals = s.objVals := by
  unfold State.takeBuffer
  dsimp only
  repeat' (first | (simp; done) | split)
@[simp] theorem State.signalRing_objVals (s : State) (r : Nat) : (State.signalRing s r).objVals = s.objVals := by
  unfold State.signalRing
  dsimp only
  repeat' (first | (simp; done) | split)
@[simp] theorem State.ringLost_objVals (s : State) (r : Nat) : (State.ringLost s r).objVals = s.objVals := by
  simp [State.ringLost]
@[simp] theorem State.storeWaits_objVals (s : State) (q : Nat) (on : Bool) : (State.storeWaits s q on).objVals = s.objVals := by
  simp [State.storeWaits]
@[simp] theorem State.cfeFault_objVals (s : State) (eng : Engine) (ref : Nat) (x : XferFault) : (State.cfeFault s eng ref x).objVals = s.objVals := by
  simp [State.cfeFault]
@[simp] theorem State.refuse_objVals (s : State) (c : Cmd) (cls : Option Class) (st : Status) (reason : Nat) :
    (State.refuse s c cls st reason).objVals = s.objVals := by
  unfold State.refuse
  dsimp only
  repeat' (first | (simp; done) | split)
@[simp] theorem State.postRequests_objVals (s : State) (c : Cmd) (l : List (Nat × Nat)) : (State.postRequests s c l).objVals = s.objVals := by
  unfold State.postRequests
  dsimp only
  repeat' (first | (simp; done) | split | (refine (foldl_objVals _ ?_ _ _).trans ?_) | (intro _ _))
@[simp] theorem State.endDestroy_objVals (s : State) (q : Nat) : (State.endDestroy s q).objVals = s.objVals := by
  unfold State.endDestroy
  dsimp only
  repeat' (first | (simp; done) | split)
@[simp] theorem State.posted_objVals (s : State) (c : Cmd) (st : Status) : (State.posted s c st).objVals = s.objVals := by
  unfold State.posted
  dsimp only
  repeat' (first | (simp; done) | split)
@[simp] theorem State.finish_objVals (s : State) (q : Nat) : (State.finish s q).objVals = s.objVals := by
  simp [State.finish]
@[simp] theorem State.adminDone_objVals (s : State) (c : Cmd) (st : Status) (err : Nat) (inl : List Byte) :
    (State.adminDone s c st err inl).objVals = s.objVals := by
  simp [State.adminDone]
@[simp] theorem State.adminErr_objVals (s : State) (c : Cmd) (err : Nat) : (State.adminErr s c err).objVals = s.objVals := by
  simp [State.adminErr]
@[simp] theorem State.dropUntaken_objVals (s : State) (q : Nat) : (State.dropUntaken s q).objVals = s.objVals := by
  simp [State.dropUntaken]
@[simp] theorem State.cancelAll_objVals (s : State) (q : Nat) (p : Cmd → Bool) : (State.cancelAll s q p).objVals = s.objVals := by
  unfold State.cancelAll
  dsimp only
  repeat' (first | (simp; done) | split | (refine (foldl_objVals _ ?_ _ _).trans ?_) | (intro _ _))
@[simp] theorem State.endFaulted_objVals (s : State) (q : Nat) : (State.endFaulted s q).objVals = s.objVals := by
  simp [State.endFaulted]
@[simp] theorem State.applyQuotas_objVals (s : State) : (State.applyQuotas s).objVals = s.objVals := by
  simp [State.applyQuotas]
@[simp] theorem State.setAtt_objVals (s : State) (a : AttState) : (State.setAtt s a).objVals = s.objVals := by
  simp [State.setAtt]
@[simp] theorem State.loseReads_objVals (s : State) : (State.loseReads s).objVals = s.objVals := by
  unfold State.loseReads
  repeat' (first | (simp; done) | split | (refine (foldl_objVals _ ?_ _ _).trans ?_) | (intro _ _))
@[simp] theorem State.loseStore_objVals (s : State) (h : HostStore) : (State.loseStore s h).objVals = s.objVals := by
  unfold State.loseStore
  dsimp only
  repeat' (first | (simp; done) | split)
@[simp] theorem State.loseStores_objVals (s : State) : (State.loseStores s).objVals = s.objVals := by
  unfold State.loseStores
  dsimp only
  repeat' (first | (simp; done) | split | (refine (foldl_objVals _ ?_ _ _).trans ?_) | (intro _ _))
@[simp] theorem State.hostLoss_objVals (s : State) : (State.hostLoss s).objVals = s.objVals := by
  simp [State.hostLoss]
@[simp] theorem State.attachEdge_objVals (s : State) : (State.attachEdge s).objVals = s.objVals := by
  simp [State.attachEdge]
@[simp] theorem State.otpBlow_objVals (s : State) (mask : Nat) : (State.otpBlow s mask).objVals = s.objVals := by
  simp [State.otpBlow]
@[simp] theorem State.random_objVals (s : State) (n : Nat) : (State.random s n).1.objVals = s.objVals := by
  simp [State.random]
@[simp] theorem State.securityRec_objVals (s : State) (sev : Sev) (cause id : Nat) : (State.securityRec s sev cause id).objVals = s.objVals := by
  simp [State.securityRec]
@[simp] theorem State.freePlace_objVals (s : State) (pos : Nat) : (State.freePlace s pos).objVals = s.objVals := by
  simp [State.freePlace]
@[simp] theorem State.endBench_objVals (s : State) : (State.endBench s).objVals = s.objVals := by
  unfold State.endBench
  dsimp only
  repeat' (first | (simp; done) | split)
@[simp] theorem State.cancelBench_objVals (s : State) (c : Nat) : (State.cancelBench s c).objVals = s.objVals := by
  unfold State.cancelBench
  repeat' (first | (simp; done) | split)
@[simp] theorem State.returnBench_objVals (s : State) (p : Nat) : (State.returnBench s p).objVals = s.objVals := by
  unfold State.returnBench
  repeat' (first | (simp; done) | split)
@[simp] theorem State.applyBenchreq_objVals (s : State) (p v : Nat) : (State.applyBenchreq s p v).objVals = s.objVals := by
  simp [State.applyBenchreq]
@[simp] theorem State.takeOver_objVals (s : State) (pos old new : Nat) (c : Core) : (State.takeOver s pos old new c).objVals = s.objVals := by
  simp [State.takeOver]
@[simp] theorem State.benchStep_objVals (s : State) : (State.benchStep s).objVals = s.objVals := by
  unfold State.benchStep
  dsimp only
  repeat' (first | (simp; done) | split)
@[simp] theorem State.replace_objVals (s : State) (c : Cmd) (ords : List Nat) : (State.replace s c ords).objVals = s.objVals := by
  unfold State.replace
  dsimp only
  repeat' (first | (simp; done) | split)
@[simp] theorem State.loseCore_objVals (s : State) (c : Nat) : (State.loseCore s c).objVals = s.objVals := by
  unfold State.loseCore
  dsimp only
  repeat' (first | (simp; done) | split | (refine (foldl_objVals _ ?_ _ _).trans ?_) | (intro _ _))
@[simp] theorem State.benchEdge_objVals (s : State) : (State.benchEdge s).objVals = s.objVals := by
  unfold State.benchEdge
  refine (State.benchStep_objVals ..).trans ((foldl_objVals _ ?_ _ _).trans ((foldl_objVals _ ?_ _ _).trans ((State.modRepair_objVals ..).trans (foldl_objVals _ ?_ _ _))))
  · intro a b
    split
    · exact State.replace_objVals ..
    · exact State.modRepair_objVals ..
  · intro a b
    exact State.loseCore_objVals ..
  · intro a b
    rw [ite_objVals, State.setPstate_objVals, ite_self]
@[simp] theorem State.setBist_objVals (s : State) (c : Nat) (pend mb lb : Bool) : (State.setBist s c pend mb lb).objVals = s.objVals := by
  unfold State.setBist
  exact State.modRepair_objVals ..
@[simp] theorem State.closePos_objVals (s : State) (p : Nat) : (State.closePos s p).objVals = s.objVals := by
  simp [State.closePos]
@[simp] theorem State.toSpare_objVals (s : State) (c : Nat) : (State.toSpare s c).objVals = s.objVals := by
  simp [State.toSpare]
@[simp] theorem State.slotBist_objVals (s : State) (c : Nat) (pass : Bool) : (State.slotBist s c pass).objVals = s.objVals := by
  simp [State.slotBist]
@[simp] theorem State.applyBistrun_objVals (s : State) (c : Nat) : (State.applyBistrun s c).objVals = s.objVals := by
  simp [State.applyBistrun]
@[simp] theorem State.applyFuserepair_objVals (s : State) (v : Nat) : (State.applyFuserepair s v).objVals = s.objVals := by
  simp [State.applyFuserepair]
@[simp] theorem State.applyScanreq_objVals (s : State) (c : Nat) : (State.applyScanreq s c).objVals = s.objVals := by
  simp [State.applyScanreq]
@[simp] theorem State.applyToken_objVals (s : State) : (State.applyToken s).objVals = s.objVals := by
  simp [State.applyToken]
@[simp] theorem State.blowAll_objVals (s : State) (errs : List Nat) (r0 : Nat) : (State.blowAll s errs r0).objVals = s.objVals := by
  induction r0 generalizing s with
  | zero => rfl
  | succ n ih =>
    rw [State.blowAll]
    split
    · rfl
    · split
      · exact State.postErr_objVals ..
      · dsimp only
        split
        · rw [ih, State.postErr_objVals, State.modRepair_objVals]
        · rw [ih, State.modRepair_objVals, State.modRepair_objVals]
@[simp] theorem State.setErqhead_objVals (s : State) (mgmt : Bool) (v : Nat) : (State.setErqhead s mgmt v).objVals = s.objVals := by
  simp [State.setErqhead]
@[simp] theorem State.freeCard_objVals (s : State) (k : Nat) : (State.freeCard s k).objVals = s.objVals := by
  simp [State.freeCard]
@[simp] theorem State.trigger_objVals (s : State) (r0 : FatalTrigger) : (State.trigger s r0).objVals = s.objVals := by
  induction r0 generalizing s <;> simp [State.trigger, *]
@[simp] theorem State.haltCores_objVals (s : State) : (State.haltCores s).objVals = s.objVals := by
  simp [State.haltCores]
@[simp] theorem State.xcDrawn_objVals (s : State) : (State.xcDrawn s).objVals = s.objVals := by
  simp [State.xcDrawn]
@[simp] theorem State.xcPass_objVals (s : State) (l : List Nat) : (State.xcPass s l).objVals = s.objVals := by
  simp [State.xcPass]
@[simp] theorem State.xcEdge_objVals (s : State) : (State.xcEdge s).objVals = s.objVals := by
  simp [State.xcEdge]
@[simp] theorem State.xcCount_objVals (s : State) (touch : List Nat) (fails : Nat) : (State.xcCount s touch fails).objVals = s.objVals := by
  simp [State.xcCount]
@[simp] theorem State.xcVerdict_objVals (s : State) (r : XcRun) (third : Nat) : (State.xcVerdict s r third).objVals = s.objVals := by
  simp [State.xcVerdict]
@[simp] theorem State.xcRec_objVals (s : State) (sev : Sev) (cause c other third off : Nat) :
    (State.xcRec s sev cause c other third off).objVals = s.objVals := by
  simp [State.xcRec]
@[simp] theorem State.linkDown_objVals (s : State) : (State.linkDown s).objVals = s.objVals := by
  simp [State.linkDown]
@[simp] theorem State.snoopAdd_objVals (s : State) (line : Nat) : (State.snoopAdd s line).objVals = s.objVals := by
  unfold State.snoopAdd
  dsimp only
  repeat' (first | (simp; done) | split)
@[simp] theorem State.windowUnit_objVals (s : State) (dpa : Nat) (data : List Byte) (poison : Bool) (e : Ecc) :
    (State.windowUnit s dpa data poison e).objVals = s.objVals := by
  simp [State.windowUnit]
@[simp] theorem State.primaryMailbox_objVals (s : State) (opcode : Nat) : (State.primaryMailbox s opcode).objVals = s.objVals := by
  simp [State.primaryMailbox]
@[simp] theorem State.powerRec_objVals (s : State) (sev : Sev) (cause num : Nat) (reading : Int) :
    (State.powerRec s sev cause num reading).objVals = s.objVals := by
  simp [State.powerRec]
@[simp] theorem State.modRail_objVals (s : State) (d : Nat) (f : Rail → Rail) : (State.modRail s d f).objVals = s.objVals := by
  simp [State.modRail]
@[simp] theorem State.avsRail_objVals (s : State) (d margin mv da : Nat) (fail : Bool) :
    (State.avsRail s d margin mv da fail).objVals = s.objVals := by
  simp [State.avsRail]
@[simp] theorem State.sample_objVals (s : State) (n : Nat) (v med : Int) : (State.sample s n v med).objVals = s.objVals := by
  simp [State.sample]
@[simp] theorem State.noteDead_objVals (s : State) (x : Nat × Nat) : (State.noteDead s x).objVals = s.objVals := by
  simp [State.noteDead]
@[simp] theorem State.applyMapout_objVals (s : State) (st ch : Nat) : (State.applyMapout s st ch).objVals = s.objVals := by
  simp [State.applyMapout]
@[simp] theorem State.applyRegulator_objVals (s : State) (k n : Nat) : (State.applyRegulator s k n).objVals = s.objVals := by
  simp [State.applyRegulator]
@[simp] theorem State.entry_objVals (s : State) (kind route eid key keyid : Nat) (old new : List Byte) :
    (State.entry s kind route eid key keyid old new).objVals = s.objVals := by
  simp [State.entry]
@[simp] theorem State.signedEntry_objVals (s : State) (kind key : Nat) (nonce : List Byte) :
    (State.signedEntry s kind key nonce).objVals = s.objVals := by
  simp [State.signedEntry]
@[simp] theorem State.autoCheckpoint_objVals (s : State) : (State.autoCheckpoint s).objVals = s.objVals := by
  simp [State.autoCheckpoint]
@[simp] theorem State.journalPut_objVals (s : State) (kind route eid key keyid : Nat) (old new : List Byte) :
    (State.journalPut s kind route eid key keyid old new).1.objVals = s.objVals := by
  simp [State.journalPut]
@[simp] theorem State.genesis_objVals (s : State) (nonce : List Byte) : (State.genesis s nonce).objVals = s.objVals := by
  simp [State.genesis]
@[simp] theorem State.checkpoint_objVals (s : State) (nonce : List Byte) : (State.checkpoint s nonce).objVals = s.objVals := by
  simp [State.checkpoint]
@[simp] theorem State.flashPut_objVals (s : State) (a : Nat) (bs : List Byte) : (State.flashPut s a bs).objVals = s.objVals := by
  simp [State.flashPut]
@[simp] theorem State.flashErase_objVals (s : State) (a n : Nat) : (State.flashErase s a n).objVals = s.objVals := by
  simp [State.flashErase]
@[simp] theorem State.flashAnd_objVals (s : State) (a v : Nat) : (State.flashAnd s a v).objVals = s.objVals := by
  simp [State.flashAnd]
@[simp] theorem State.setFw_objVals (s : State) (f : FwState) (e : Nat) : (State.setFw s f e).objVals = s.objVals := by
  simp [State.setFw]
@[simp] theorem State.applyFwaction_objVals (s : State) (v : Nat) : (State.applyFwaction s v).objVals = s.objVals := by
  simp [State.applyFwaction]
@[simp] theorem State.selectBank_objVals (s : State) (notes : List Nat) (r0 : List Nat) : (State.selectBank s notes r0).1.objVals = s.objVals := by
  induction r0 generalizing s notes with
  | nil => rfl
  | cons b l ih =>
    have h : ∀ (c : Prop) [Decidable c] (m : Table Byte), (if c then { s with flash := m } else s).objVals = s.objVals := by
      intro c _ m
      split <;> rfl
    rw [State.selectBank]
    split
    · exact ih ..
    · extract_lets n s1 p
      have h1 : s1.objVals = s.objVals := h ..
      split
      · exact (ih ..).trans h1
      · split
        · exact (ih ..).trans h1
        · exact h1
@[simp] theorem State.softRows_objVals (s : State) (l : List (Nat × Nat × Nat × Nat)) : (State.softRows s l).objVals = s.objVals := by
  unfold State.softRows
  repeat' (first | (simp; done) | split | (refine (foldl_objVals _ ?_ _ _).trans ?_) | (intro _ _))
@[simp] theorem State.withFree_objVals (s : State) (n : Nat) : (State.withFree s n).objVals = s.objVals := by
  simp [State.withFree]
@[simp] theorem State.given_objVals (s : State) (b : Board) : (State.given s b).objVals = s.objVals := by
  unfold State.given
  dsimp only
  repeat' (first | (simp; done) | split | (refine (foldl_objVals _ ?_ _ _).trans ?_) | (intro _ _))
@[simp] theorem State.mapUntrained_objVals (s : State) (st ch : Nat) : (State.mapUntrained s st ch).objVals = s.objVals := by
  simp [State.mapUntrained]
@[simp] theorem State.startCore_objVals (s : State) (finds : List BistFind) (c : Nat) : (State.startCore s finds c).objVals = s.objVals := by
  unfold State.startCore
  dsimp only
  split
  · exact State.setPstate_objVals ..
  · split
    · exact State.setPstate_objVals ..
    · split
      · exact (State.repairRec_objVals ..).trans ((State.setPstate_objVals ..).trans (State.setBist_objVals ..))
      · split
        · exact (State.repairRec_objVals ..).trans ((State.setPstate_objVals ..).trans (State.setBist_objVals ..))
        · split
          · exact (State.repairRec_objVals ..).trans ((State.setPstate_objVals ..).trans ((State.repairRec_objVals ..).trans ((State.modRepair_objVals ..).trans (State.setBist_objVals ..))))
          · exact (State.repairRec_objVals ..).trans ((State.setPstate_objVals ..).trans ((State.modRepair_objVals ..).trans (State.setBist_objVals ..)))
@[simp] theorem State.assign_objVals (s : State) (p : Nat) : (State.assign s p).objVals = s.objVals := by
  unfold State.assign
  dsimp only
  repeat' (first | (simp; done) | split)
@[simp] theorem State.respond_objVals (s : State) (o : Origin) (op key : Nat) (pend : Bool) (r : Resp) :
    (State.respond s o op key pend r).objVals = s.objVals := by
  simp [State.respond]
@[simp] theorem State.take_objVals (s : State) (o : Origin) : (State.take s o).objVals = s.objVals := by
  simp [State.take]
@[simp] theorem State.discard_objVals (s : State) : (State.discard s).objVals = s.objVals := by
  simp [State.discard]
@[simp] theorem State.stage_objVals (s : State) (w : Waiting) : (State.stage s w).objVals = s.objVals := by
  simp [State.stage]
@[simp] theorem State.noteRefusal_objVals (s : State) (o : Origin) (key n : Nat) (r : Resp) :
    (State.noteRefusal s o key n r).objVals = s.objVals := by
  simp [State.noteRefusal]
@[simp] theorem State.request_objVals (s : State) (op : Nat) (r : Req) (f : State → Origin → State) (h_f : ∀ z y0, (f z y0).objVals = z.objVals) :
    (State.request s op r f).objVals = s.objVals := by
  unfold State.request
  dsimp only
  repeat' (first | (simp [*]; done) | split)
@[simp] theorem State.drawn_objVals (s : State) : (State.drawn s).objVals = s.objVals := by
  simp [State.drawn]
@[simp] theorem State.spdmAnswer_objVals (s : State) (transport eid session : Nat) (name : SpdmRsp) (vals : List Nat) (data : List Byte) :
    (State.spdmAnswer s transport eid session name vals data).objVals = s.objVals := by
  simp [State.spdmAnswer]
@[simp] theorem State.spdmRsp_objVals (s : State) (o : Origin) (name : SpdmRsp) (vals : List Nat) (data : List Byte) :
    (State.spdmRsp s o name vals data).objVals = s.objVals := by
  simp [State.spdmRsp]
@[simp] theorem State.spdmErr_objVals (s : State) (o : Origin) (e : SpdmErr) : (State.spdmErr s o e).objVals = s.objVals := by
  simp [State.spdmErr]
@[simp] theorem State.notReady_objVals (s : State) (w : SigWait) : (State.notReady s w).objVals = s.objVals := by
  simp [State.notReady]
@[simp] theorem State.deferSigs_objVals (s : State) : (State.deferSigs s).objVals = s.objVals := by
  unfold State.deferSigs
  dsimp only
  repeat' (first | (simp; done) | split | (refine (foldl_objVals _ ?_ _ _).trans ?_) | (intro _ _))
@[simp] theorem State.withCert_objVals (s : State) (o : Origin) (slot : Nat) (f : State → State) (h_f : ∀ z, (f z).objVals = z.objVals) :
    (State.withCert s o slot f).objVals = s.objVals := by
  simp [State.withCert, *]
@[simp] theorem State.signed_objVals (s : State) (o : Origin) (session code arg : Nat) (body : List Byte) :
    (State.signed s o session code arg body).objVals = s.objVals := by
  unfold State.signed
  dsimp only
  repeat' (first | (simp; done) | split | (refine (foldl_objVals _ ?_ _ _).trans ?_) | (refine (foldl_fst_objVals _ ?_ _ _).trans ?_) | (intro _ _)
                 | (simp only [Prod.ext_iff] at *; (repeat (cases ‹_ ∧ _›)); subst_vars; simp; done))
@[simp] theorem State.setChunking_objVals (s : State) (c : Chunking) : (State.setChunking s c).objVals = s.objVals := by
  simp [State.setChunking]
@[simp] theorem State.sendSigned_objVals (s : State) (w : SigWait) : (State.sendSigned s w).objVals = s.objVals := by
  unfold State.sendSigned
  dsimp only
  repeat' (first | (simp; done) | split)
@[simp] theorem State.endSession_objVals (s : State) (id : Nat) : (State.endSession s id).objVals = s.objVals := by
  simp [State.endSession]
@[simp] theorem State.inSession_objVals (s : State) (o : Origin) (hand : Bool) (f : State → Session → State) (h_f :
    ∀ z y0, (f z y0).objVals = z.objVals) : (State.inSession s o hand f).objVals = s.objVals := by
  unfold State.inSession
  repeat' (first | (simp [*]; done) | split)
@[simp] theorem State.modSession_objVals (s : State) (id : Nat) (f : Session → Session) : (State.modSession s id f).objVals = s.objVals := by
  simp [State.modSession]
@[simp] theorem State.beginEdge_objVals (s : State) (e : Nat) : (State.beginEdge s e).objVals = s.objVals := by
  unfold State.beginEdge
  dsimp only
  repeat' (first | (simp; done) | split)
@[simp] theorem State.dropLive_objVals (s : State) (p : Nat → Bool) : (State.dropLive s p).objVals = s.objVals := by
  simp [State.dropLive]
@[simp] theorem State.checkpointEdge_objVals (s : State) : (State.checkpointEdge s).objVals = s.objVals := by
  unfold State.checkpointEdge
  dsimp only
  repeat' (first | (simp; done) | split | (refine (foldl_objVals _ ?_ _ _).trans ?_) | (intro _ _))
@[simp] theorem State.mapoutRec_objVals (s : State) (st : Nat) : (State.mapoutRec s st).objVals = s.objVals := by
  simp [State.mapoutRec]
@[simp] theorem State.slowedStack_objVals (s : State) (st : Nat) : (State.slowedStack s st).objVals = s.objVals := by
  unfold State.slowedStack
  repeat' (first | (simp; done) | split | (refine (foldl_objVals _ ?_ _ _).trans ?_) | (intro _ _))
@[simp] theorem State.mapoutCopy_objVals (s : State) (st : Nat) : (State.mapoutCopy s st).objVals = s.objVals := by
  simp [State.mapoutCopy]
@[simp] theorem State.eachStack_objVals (s : State) (f : State → Nat → State) (h_f : ∀ z y0, (f z y0).objVals = z.objVals) :
    (State.eachStack s f).objVals = s.objVals := by
  unfold State.eachStack
  repeat' (first | (simp [*]; done) | split | (refine (foldl_objVals _ ?_ _ _).trans ?_) | (intro _ _))
@[simp] theorem State.ledgerEdge_objVals (s : State) : (State.ledgerEdge s).objVals = s.objVals := by
  simp [State.ledgerEdge]

end Sys2Proof.Machine
end

