-- ==== Sys2Proof/Tests/Slice0.lean ====
section
/-!
SUPPORT. Small checks: an ill-formed term for each check of WellFormed, words written out from the spec's encodings, and for every statement of
the obligations a concrete state and operands that meet its hypotheses together.
-/
namespace Sys2Proof.Tests

open Sys2Proof Sys2Proof.Machine

set_option maxRecDepth 200000
set_option Elab.async false

/-- An instruction word from its class, opcode and fields (value, lowest bit), as 05_core_programs.md R136 places them. -/
def word (cls op : Nat) (fields : List (Nat × Nat)) : Nat :=
  cls * 2 ^ 124 + op * 2 ^ 120 + (fields.map (fun f => f.1 * 2 ^ f.2)).sum

/-! ### Ill-formed commands -/

/-- An origin on the management routes, and one on a route that does not exist. -/
def someOrigin : Origin := ⟨2, 8, 0, 5⟩
def noOrigin : Origin := ⟨4, 8, 0, 5⟩
/-- Each check refuses its own kind: a core, a queue, a port, a lane, a die, a unit of a die, a translation unit, a mailbox slot, a rail. -/
theorem test_ill_formed_parts :
    [Instr.instructionDispatch 20 144, .sqDoorbell 20 256 0, .controlWord 20 12 [], .failoverTrigger 20 0 9 0 0 false, .slmCacheFill 20 8 false,
      .slmUnitSkimDone 20 0 12, .mailboxD2hRead 20 64, .railOutOfTolerance 20 26 0 0].all (fun c => !c.wellFormed) = true := by decide +kernel
/-- The same with parts that exist. -/
theorem test_well_formed_parts :
    [Instr.instructionDispatch 20 143, .sqDoorbell 20 255 0, .controlWord 20 11 [], .failoverTrigger 20 0 8 0 0 false, .slmCacheFill 20 7 false,
      .slmUnitSkimDone 20 0 11, .mailboxD2hRead 20 63, .railOutOfTolerance 20 25 0 0].all (fun c => c.wellFormed) = true := by decide +kernel
/-- A stack, a table, a nonce's length, an owner's length and an origin, each wrong and right. -/
theorem test_ill_formed_writes :
    [Instr.mapout 20 someOrigin 16 0, .hmapcommit 20 someOrigin 3840 0, .jckreq 20 someOrigin [], .modid 20 noOrigin 1].all (fun c => !c.wellFormed) = true ∧
    [Instr.mapout 20 someOrigin 15 0, .hmapcommit 20 someOrigin 3839 0, .jckreq 20 someOrigin (List.replicate 32 0), .modid 20 someOrigin 1].all
      (fun c => c.wellFormed) = true := by decide +kernel
/-! ### Fetch, dispatch and waiting -/

/-- A task of command 7 whose code is at 0x40000. -/
def task0 : TaskRec := { code := 0x40000, trapen := 0, creset := 0, budget := 1000, cmdref := 7 }
/-- A core that runs it since CCLK 10. -/
def running : Core := { st := .run, task := some task0, started := some 10, pc := 0x40000, fetchAddr := 0x40000, rtags := [(1, 2)] }
/-- A state whose core 0 is the one given. -/
def onCore (c : Core) : State := { cores := [(0, c)] }
theorem witness_fetch_appends_eight :
    let t : Nat := 20; let p : Nat := 0; let s : State := (onCore running); let c := s.coreAt t p; let a := c.fetchAddr
    s.coresStopped = false ∧ c.task.isSome = true ∧ c.fetchAt ≤ t ∧ c.fetchBuf.length ≤ 24 ∧ c.ended = false ∧
    (c.st = .run ∨ c.st = .wait ∨ c.st = .replay ∨ c.st = .switch) ∧ (∀ f ∈ c.lastFetch, f < t) ∧ a + 128 ≤ spmSize ∧
    c.inCacheUnit a 128 = false ∧ c.isCode a 128 = true ∧ c.lostRead a 128 = false := by decide +kernel

/-- The core with one instruction word in its fetch buffer. -/
def holding (w : Nat) : Core := { running with fetchBuf := [(w, none)] }

/-- VX.ALU ADD of INT32 v1 + v2 into v3: class 3, opcode 0, FN 0, IT 1 (04_vector_engine.md R125). -/
def wordAdd : Nat := word 3 0 [(0, 114), (1, 113), (3, 108), (1, 103), (2, 98)]
def opsAdd : VxOps := { it := true, vd := 3, va := 1, vb := 2, vc := 0, bm := 0, bidx := 0, msk := 0, mz := false, imm := 0, rsv := 0 }
theorem test_decode_vx_add : decodeCore wordAdd = some (.vx .add opsAdd) := by decide +kernel
theorem test_decode_undefined_class : decodeCore (word 9 0 []) = none := by decide +kernel
/-- The same core with a full VX queue. -/
def fullVx (w : Nat) : Core := { holding w with qVx := List.replicate 16 (.gate 5) }
/-- The core that dispatches at CCLK 20 of a state. -/
def dispatcher (s : State) : Core := ((s.core 0).dispatching 20).getD {}
theorem witness_dispatch_in_order_c0 :
    let t : Nat := 20; let p : Nat := 0; let w : Nat := wordAdd; let rest : List (Nat × Option Cause) := []
    let i : CoreInstr := (.vx .add opsAdd); let q : QueueId := .vx; let s : State := (onCore (holding wordAdd))
    let c : Core := (dispatcher (onCore (holding wordAdd)))
    s.coresStopped = false ∧ (s.core p).dispatching t = some c ∧ c.fetchBuf = (w, none) :: rest ∧ decodeCore w = some i ∧
    coreQueue i = some q ∧ (c.queue q).length < 16 := by decide +kernel
theorem witness_dispatch_in_order_c1 :
    let t : Nat := 20; let p : Nat := 0; let w : Nat := wordAdd; let rest : List (Nat × Option Cause) := []
    let i : CoreInstr := (.vx .add opsAdd); let q : QueueId := .vx; let s : State := (onCore (fullVx wordAdd))
    let c : Core := (dispatcher (onCore (fullVx wordAdd)))
    s.coresStopped = false ∧ (s.core p).dispatching t = some c ∧ c.fetchBuf = (w, none) :: rest ∧ decodeCore w = some i ∧
    coreQueue i = some q ∧ 16 ≤ (c.queue q).length := by decide +kernel
theorem witness_dispatch_in_order_c2 :
    let t : Nat := 20; let p : Nat := 0; let w : Nat := (word 9 0 []); let rest : List (Nat × Option Cause) := []
    let s : State := (onCore (holding (word 9 0 []))); let c : Core := (dispatcher (onCore (holding (word 9 0 []))))
    s.coresStopped = false ∧ (s.core p).dispatching t = some c ∧ c.fetchBuf = (w, none) :: rest ∧ decodeCore w = none := by decide +kernel

/-- SY.GATE of the MX and VX queues at TIME 5: class 5, opcode 0 (05_core_programs.md R141). -/
def wordGate : Nat := word 5 0 [(5, 114), (5, 82)]
def opsGate : SyGate := { qmask := 5, time := 5, bound := 0, rsv := 0 }
theorem test_decode_sy_gate : decodeCore wordGate = some (.syGate opsGate) := by decide +kernel
/-- A core with a gate marker at the head of its VX queue. -/
def gated : Core := { running with qVx := [.gate 5] }
theorem witness_gates_hold_queues :
    let t : Nat := 20; let p : Nat := 0; let w : Nat := wordGate; let rest : List (Nat × Option Cause) := []; let f : SyGate := opsGate
    let s : State := (onCore (holding wordGate)); let c : Core := (dispatcher (onCore (holding wordGate)))
    s.coresStopped = false ∧ (s.core p).dispatching t = some c ∧ c.fetchBuf = (w, none) :: rest ∧ decodeCore w = some (.syGate f) ∧
    f.qmask ≠ 0 ∧ f.time.toNat < 2 ^ 31 ∧ f.bound = 0 ∧ f.rsv = 0 ∧ (∀ q, (c.queue q).length < 16) := by
    and_intros; iterate 8 decide +kernel
    intro q; cases q <;> decide +kernel
theorem witness_gates_hold_queues_2 :
    let p : Nat := 0; let time : Nat := 5; let q : QueueId := .vx; let rest : List QItem := []; let s : State := (onCore gated)
    let c := s.core p
    c.queue q = .gate time :: rest ∧ (c.st = .run ∨ c.st = .wait) := by decide +kernel
/-- SY.WAITC of counter 3 for 2 arrivals, BOUND 50: class 5, opcode 1 (05_core_programs.md R141). -/
def wordWaitc : Nat := word 5 1 [(3, 114), (2, 82), (50, 50)]
def opsWaitc : SyWaitc := { cnt := 3, target := 2, bound := 50, rsv := 0 }
theorem test_decode_sy_waitc : decodeCore wordWaitc = some (.syWaitc opsWaitc) := by decide +kernel
/-- A core that waits for counter 3 to reach 2 since CCLK 20. -/
def waiting : Core := { running with st := .wait, pause := some (.waitc 3 2 50 20), arr := [(3, 1)] }
theorem witness_arrival_counters_c0 :
    let t : Nat := 20; let p : Nat := 0; let w : Nat := wordWaitc; let rest : List (Nat × Option Cause) := []; let f : SyWaitc := opsWaitc
    let s : State := (onCore (holding wordWaitc)); let c : Core := (dispatcher (onCore (holding wordWaitc)))
    s.coresStopped = false ∧ (s.core p).dispatching t = some c ∧ c.fetchBuf = (w, none) :: rest ∧ decodeCore w = some (.syWaitc f) ∧
    f.bound ≠ 0 ∧ f.rsv = 0 := by decide +kernel
theorem witness_arrival_counters_c1 :
    let t : Nat := 70; let p : Nat := 0; let cnt : Nat := 3; let target : Nat := 2; let bound : Nat := 50; let since : Nat := 20
    let s : State := (onCore waiting); let c := s.core p
    c.pause = some (.waitc cnt target bound since) ∧ (c.st = .wait ∨ c.st = .replay) ∧ since + bound ≤ t := by decide +kernel
/-- A core that starts a task which zeroes counter 3 after CCLK 30. -/
def resetArr : Core := { waiting with st := .switch, pause := none, fetchAt := 100, task := some { task0 with creset := 8 } }
theorem witness_arrival_counters_2_c2 :
    let c : Core := waiting; let cnt : Nat := 3; let t : Nat := 30
    c.resetAfter cnt t = false := by decide +kernel
theorem witness_arrival_counters_2_c3 :
    let c : Core := resetArr; let cnt : Nat := 3; let t : Nat := 30
    c.resetAfter cnt t = true := by decide +kernel

/-! ### The vector engine -/

/-- A core that runs with one instruction at the head of its VX queue. -/
def vxHead (i : CoreInstr) : Core := { running with qVx := [.instr i 99 15] }
/-- An instruction of the common layout that is legal for a binary function. -/
def opsV : VxOps := { it := false, vd := 3, va := 1, vb := 2, vc := 0, bm := 0, bidx := 0, msk := 0, mz := false, imm := 0, rsv := 0 }
/-- The same core with a write of v1 still pending. -/
def vxBusy : Core := { vxHead (.vx .add opsV) with vpend := [⟨false, 1, 30⟩] }
theorem witness_vx_common_layout_completes :
    let fn : VxFn := .add; let t : Nat := 20; let p : Nat := 0; let w : Nat := 99; let f : VxOps := opsV
    let s : State := (onCore (vxHead (.vx .add opsV))); let c := s.coreAt t p
    s.issues t p .vx (.vx fn f) w c.portFree.vx [(vxIllegal fn f, .illegalEncoding), (vxHazard fn f t c, .hazard)] [] := by decide +kernel
theorem witness_vx_lanes_under_mask :
    let fn : VxFn := .add; let l : Nat := 1023
    vxLaneWise fn = true ∧ l < 1024 := by decide +kernel
theorem witness_int_arithmetic_saturates :
    let fn := .add
    fn ∈ [VxFn.add, VxFn.sub, VxFn.mul, VxFn.abs, VxFn.neg] := by decide +kernel
theorem witness_vx_hazard_writes_nothing :
    let fn : VxFn := .add; let t : Nat := 20; let p : Nat := 0; let w : Nat := 99; let f : VxOps := opsV; let s : State := (onCore vxBusy)
    let c := s.coreAt t p
    s.issues t p .vx (.vx fn f) w c.portFree.vx [(vxIllegal fn f, .illegalEncoding)] [] ∧ vxHazard fn f t c = true := by decide +kernel
/-- VX.RDA of a DONE FP32 tile into v4, all lanes masked off by a clear mask. -/
def opsRda : VxRda := { fmto := 6, acc := 2, rb := 0, ch := false, vd := 4, osh := 0, ostep := 0, msk := 1, mz := true, rsv := 0 }
def rdaCore : Core := { vxHead (.vxRda opsRda) with tiles := [(2, { done := true })] }
/-- VX.QNT of v1 to FP8 without group scales at the start of bank 1. -/
def opsQnt : VxQnt :=
  { fmtq := 2, scl := 0, gsz := 0, va := 1, tsc := 127, floor := 0, daddr := 0x1800, dstr := 1, saddr := 0, sstr := 0, msk := 0, rsv := 0 }
/-- VX.DQT of FP8 elements into v5, all lanes masked off. -/
def opsDqt : VxDqt :=
  { fmtq := 2, scl := 0, gsz := 0, vd := 5, tsc := 127, goff := false, aaddr := 0x1800, astr := 1, saddr := 0, sstr := 0, msk := 1, mz := false,
    rsv := 0 }
/-- VX.LD and VX.ST of FP32 rows of 256 bytes in bank 1. -/
def opsLs : VxLs := { fmt := 6, vr := 6, addr := 0x1800, str := 4, msk := 0, mz := false, rsv := 0 }
/-- A core about to store with only lane 0 unmasked. -/
def opsSt : VxLs := { opsLs with msk := 1 }
def stCore : Core := { vxHead (.vxSt opsSt) with masks := [(1, 1)] }
theorem witness_vx_moves_complete_c0 :
    let t : Nat := 20; let p : Nat := 0; let w : Nat := 99; let f : VxRda := opsRda; let s : State := (onCore rdaCore)
    let lanes : List LaneRes := (((rdaConvert rdaCore opsRda).map (fun r => r.2.2.1)).getD []); let c := s.coreAt t p
    s.issues t p .vx (.vxRda f) w c.portFree.vx (rdaChecks t f false c) [] ∧ (rdaConvert c f).map (fun r => r.2.2.1) = some lanes := by decide +kernel
theorem witness_vx_moves_complete_c1 :
    let t : Nat := 20; let p : Nat := 0; let w : Nat := 99; let f : VxQnt := opsQnt; let s : State := (onCore (vxHead (.vxQnt opsQnt)))
    let c := s.coreAt t p
    s.issues t p .vx (.vxQnt f) w c.portFree.vx (qntChecks t f false c) (qntAccesses t f c w) := by decide +kernel
theorem witness_vx_moves_complete_c2 :
    let t : Nat := 20; let p : Nat := 0; let w : Nat := 99; let f : VxDqt := opsDqt; let s : State := (onCore (vxHead (.vxDqt opsDqt)))
    let lanes : List LaneRes := ((dqtLanes (vxHead (.vxDqt opsDqt)) opsDqt).getD []); let c := s.coreAt t p
    s.issues t p .vx (.vxDqt f) w c.portFree.vx (dqtChecks t f false c) (dqtAccesses t f c w) ∧ dqtLanes c f = some lanes := by decide +kernel
theorem witness_vx_moves_complete_c3 :
    let t : Nat := 20; let p : Nat := 0; let w : Nat := 99; let f : VxLs := opsLs; let s : State := (onCore (vxHead (.vxLd opsLs)))
    let c := s.coreAt t p; let n := extent 16 (64 * lsElem f) (lsStride f)
    s.issues t p .vx (.vxLd f) w c.portFree.vx [(lsIllegal f, .illegalEncoding)] (lsAccesses t f c w) ∧ c.vPending false f.vr.toNat t = false ∧
    c.vPending true f.msk.toNat t = false ∧ c.inCacheUnit (lsBase f) n = false ∧ c.lostRead (lsBase f) n = false := by decide +kernel
theorem witness_vx_moves_complete_c4 :
    let t : Nat := 20; let p : Nat := 0; let w : Nat := 99; let f : VxLs := opsSt; let s : State := (onCore stCore); let c := s.coreAt t p
    let n := extent 16 (64 * lsElem f) (lsStride f)
    s.issues t p .vx (.vxSt f) w c.portFree.vx [(lsIllegal f || f.mz, .illegalEncoding)] (lsAccesses t f c w) ∧
    c.vPending false f.vr.toNat t = false ∧ c.vPending true f.msk.toNat t = false ∧ c.inCacheUnit (lsBase f) n = false := by decide +kernel
/-- A trap that has taken effect. -/
def trapped : Core := { running with vtraps := [⟨18, 99, 1⟩] }
theorem witness_arithmetic_flag_trap :
    let t : Nat := 20; let p : Nat := 0; let v : VTrap := ⟨18, 99, 1⟩; let s : State := (onCore trapped)
    (s.core p).vtraps.find? (fun x => decide (x.time ≤ t)) = some v ∧ (s.core p).st ≠ .halted ∧ (s.core p).st ≠ .idle := by decide +kernel

/-! ### The matrix engines -/

/-- A core that runs with one instruction at the head of its MX queue. -/
def mxHead (i : CoreInstr) : Core := { running with qMx := [.instr i 99 15] }
/-- MX.LDW of one INT8 element from byte 0. -/
def opsLdw : MxLdw :=
  { fmt := 0, wb := false, scl := 0, gsz := 0, tsc := 127, kvm1 := 0, nvm1 := 0, waddr := 0, wstr := 1, wsaddr := 0, sstr := 0, rsv := 0 }
/-- MX.MUL of one INT8 row in bank 1 with the held tile, into a new operation on tile 2. -/
def opsMul : MxMul :=
  { fmta := 0, wb := false, acc := 2, accum := false, last := true, tr := false, conv := false, cw := false, halo := false, anchor := 0,
    astep := 1, rmax := 0, mm1 := 0, scla := 0, gsza := 0, tsca := 127, aaddr := 0x1800, astr := 1, asaddr := 0, noff := false, asstr := 0 }
def mulCore : Core :=
  { mxHead (.mxMul opsMul) with wb0 := { held := some { fmt := 0, scl := 0, gsz := 0, tsc := 127, kv := 1, nv := 1, rows := [[⟨3, 0⟩]], ldw := opsLdw } },
                                spm := [(0xC0000, 5)] }
/-- MV.MUL of one INT8 vector, weights in bank 2. -/
def opsMv : MvMul :=
  { fmta := 0, fmtw := 0, acc := 2, vm1 := 0, accum := false, last := true, anchor := 0, astep := 1, rmax := 0, kvm1 := 0, nvm1 := 0, scla := 0,
    gsza := 0, sclw := 0, gszw := 0, tsca := 127, tscw := 127, aaddr := 0x1800, waddr := 0x3000, row0 := 0, rsv := 0 }
def mvCore : Core := { running with qMv := [.instr (.mvMul opsMv) 99 15] }
theorem witness_matrix_loads_and_passes_c0 :
    let t : Nat := 20; let p : Nat := 0; let w : Nat := 99; let f : MxLdw := opsLdw; let s : State := (onCore (mxHead (.mxLdw opsLdw)))
    let c := s.coreAt t p
    s.issues t p .mx (.mxLdw f) w c.loadFree (ldwChecks t f c) (ldwAccesses t f c w) := by decide +kernel
theorem witness_matrix_loads_and_passes_c1 :
    let t : Nat := 20; let p : Nat := 0; let w : Nat := 99; let f : MxMul := opsMul; let s : State := (onCore mulCore); let c := s.coreAt t p
    s.issues t p .mx (.mxMul f) w c.portFree.mx (mulChecks t (s.reverses p) f c) (mulAccesses t f c w) ∧
    (∀ h ∈ (c.wb f.wb).held, h.nv ≤ 128 ∧ (h.fmt = 5 → h.nv ≤ 64 ∧ h.kv ≤ 64)) := by decide +kernel
theorem witness_matrix_loads_and_passes_c2 :
    let t : Nat := 20; let p : Nat := 0; let w : Nat := 99; let f : MvMul := opsMv; let s : State := (onCore mvCore); let c := s.coreAt t p
    s.issues t p .mv (.mvMul f) w c.portFree.mv (mvChecks t f c) (mvAccesses t f c w) := by decide +kernel
theorem witness_matrix_loads_and_passes_c3 :
    let f : MxLdw := opsLdw; let c : Core := mulCore
    let h : Held := ((mulCore.loadTile opsLdw).getD { fmt := 0, scl := 0, gsz := 0, tsc := 0, kv := 0, nv := 0, rows := [], ldw := opsLdw })
    ldwIllegal f = false ∧ c.loadTile f = some h := by decide +kernel
theorem witness_element_formats_c3 :
    let f : Nat := 1
    fmtWidth f = 4 := by decide +kernel
theorem witness_element_formats_c4 :
    let f : Nat := 7; let n : Nat := 4
    fmtWidth f = 8 * n ∧ 1 ≤ n := by decide +kernel
/-- A closed operation of one pass that is due for judgement. -/
def closedOp : MatOp := { tile := 2, anchor := 0, base := 0, astep := 1, rmax := 0, intOp := true, judgeAt := 18 }
def judgeCore : Core := { running with mxaDone := [closedOp] }
def triggered : MatOp := { closedOp with trigger := true }
def triggerCore : Core := { running with mxaDone := [triggered] }
theorem witness_judgement_c0 :
    let t : Nat := 20; let p : Nat := 0; let e : MatEngine := .mxa; let o : MatOp := closedOp; let s : State := (onCore judgeCore)
    let c := s.coreAt t p
    (c.closedOps e).find? (fun x => decide (x.judgeAt ≤ t) && !x.judged) = some o ∧ o.rally = none ∧ o.trigger = false ∧
    c.sumTrigger o.tile = false ∧ c.checksOk e o = true := by decide +kernel
theorem witness_judgement_c1 :
    let t : Nat := 20; let p : Nat := 0; let e : MatEngine := .mxa; let o : MatOp := triggered; let s : State := (onCore triggerCore)
    let c := s.coreAt t p
    (c.closedOps e).find? (fun x => decide (x.judgeAt ≤ t) && !x.judged) = some o ∧ c.st ≠ .halted ∧ o.rally = none ∧
    (o.trigger = true ∨ c.sumTrigger o.tile = true) ∧ (o.replays = o.rmax ∨ 383 < o.anchor + o.astep) := by decide +kernel
/-- MX.WO of the INT32 tile 2 to bank 3, its scale byte in bank 4. -/
def opsWo : MxWo := { fmto := 7, acc := 2, osh := 0, ostep := 1, vrows := 1, nvm1 := 0, oaddr := 0x4800, ostr := 1, tsaddr := 0x300000, rsv := 0 }
def woCore : Core := { mxHead (.mxWo opsWo) with tiles := [(2, { done := true, intOp := true })], acm := [(2 * 16384, 7)] }
/-- A halted core with the same operation. -/
def haltedOp : Core := { triggerCore with st := .halted, pausedTotal := 3 }
/-- An operation that may still replay. -/
def replayable : MatOp := { triggered with rmax := 3 }
theorem witness_judgement_2_c2 :
    let t : Nat := 20; let p : Nat := 0; let e : MatEngine := .mxa; let o : MatOp := replayable
    let s : State := (onCore { judgeCore with mxaDone := [replayable] })
    let d : Core := (({ judgeCore with mxaDone := [replayable] }.startReplay .mxa replayable 1 20).getD {}); let c := s.coreAt t p
    (c.closedOps e).find? (fun x => decide (x.judgeAt ≤ t) && !x.judged) = some o ∧ c.st ≠ .halted ∧ o.rally = none ∧
    (o.trigger = true ∨ c.sumTrigger o.tile = true) ∧ o.replays ≠ o.rmax ∧ o.anchor + o.astep ≤ 383 ∧
    c.startReplay e o (o.anchor + o.astep) t = some d := by decide +kernel
theorem witness_judgement_2_c3 :
    let t : Nat := 20; let p : Nat := 0; let e : MatEngine := .mxa; let o : MatOp := triggered; let s : State := (onCore haltedOp)
    let c := s.coreAt t p
    (c.closedOps e).find? (fun x => decide (x.judgeAt ≤ t) && !x.judged) = some o ∧ c.st = .halted ∧ o.rally = none ∧
    (o.trigger = true ∨ c.sumTrigger o.tile = true) := by decide +kernel
theorem witness_write_out :
    let t : Nat := 20; let p : Nat := 0; let w : Nat := 99; let k : Nat := 0; let f : MxWo := opsWo; let s : State := (onCore woCore)
    let osh : Int := ((woConvert woCore opsWo).map (fun r => r.1) |>.getD 0)
    let codes : List Nat := (((woConvert woCore opsWo).map (fun r => r.2.2.1)).getD [])
    let osat : Bool := (((woConvert woCore opsWo).map (fun r => r.2.2.2)).getD false); let c := s.coreAt t p
    s.issues t p .mx (.mxWo f) w c.woFree (woChecks t f c) (woAccesses t f c w) ∧ woConvert c f = some (osh, k, codes, osat) := by decide +kernel

/-! ### The block's queue -/

/-- A task waits for its first instructions, and another command stands behind. -/
def queued : State := { onCore running with pending := [.instructionFetch 20 0 .ok, .instructionDispatch 30 0] }
/-- The state after one step. -/
def stepped (s : State) : State := match step s with | .next u => u | _ => s
theorem witness_step_runs_the_front_command :
    let c : Instr := (.instructionFetch 20 0 .ok); let rest : List Instr := [.instructionDispatch 30 0]; let s : State := queued
    s.pending = c :: rest := by decide +kernel
theorem witness_reset_and_idle :
    let s : State := (onCore running)
    s.pending = [] := by decide +kernel
theorem witness_step_keeps_waiting_commands :
    let s : State := queued; let u : State := (stepped queued)
    step s = .next u := rfl
theorem witness_step_keeps_memory_canonical :
    let s : State := { queued with mem := { dram := [(3, 4)] } }; let u : State := (stepped { queued with mem := { dram := [(3, 4)] } })
    s.canonical = true ∧ step s = .next u := ⟨by decide +kernel, rfl⟩

/-! ### The data movers -/

/-- A scratchpad that holds numbers of eight bytes from an address up. -/
def words64 (m : Memory) (a : Nat) (l : List Nat) : Memory := m.writeBytes a (l.flatMap (leBytes 8))
/-- Descriptor words of a copy of one row of 256 bytes from scratchpad offset 0x1000 to 0x8000, counted on counter 5 and source counter 6. -/
def descCopy : List Nat := [2 ^ 63 + 0x1000, 2 ^ 63 + 0x8000, 255, 0, 5 * 2 ^ 50 + 2 ^ 49 + 6 * 2 ^ 43 + 2 ^ 42, 0, 0, 0]
/-- The same as a transpose of 2 rows of 2 FP32 elements. -/
def descTranspose : List Nat := [2 ^ 63 + 0x1000, 2 ^ 63 + 0x8000, 2 ^ 32 + 7, 8 + 8 * 2 ^ 32, 2 ^ 35 + 3 * 2 ^ 32, 0, 0, 0]
def opsXfer : DmXfer := { desc := 0x100, rsv := 0 }
/-- A core that is about to issue a DM.XFER of a descriptor. -/
def xferCore (d : List Nat) : Core := { running with qDt := [.instr (.dmXfer opsXfer) 99 15], spm := words64 [] 0x100 d }
/-- DM.LITE of 16 bytes between scratchpad offset 0x1000 and DVA 0x5000. -/
def opsLite : DmLite := { laddr := 0x1000, raddr := 0x5000, lenm1 := 15, cnt := 1, cen := true, sclass := 2, scnt := 3, scen := false, rsv := 0 }
def liteCore (get : Bool) : Core := { running with qDt := [.instr (if get then .dmLiteGet opsLite else .dmLitePut opsLite) 99 15] }
/-- DM.SKIM of 256 bytes at 0x10000 with a pattern, and DM.COPY of 256 bytes from 0x2000 to 0x10000. -/
def opsSkim : DmLocal := { daddr := 0x200, lenm1 := 1, saddr := 0, pat := 0xA1B2C3D4, rsv := 0 }
def opsCopy : DmLocal := { daddr := 0x200, lenm1 := 1, saddr := 0x40, pat := 0, rsv := 0 }
def skimCore : Core := { running with qDl := [.instr (.dmSkim opsSkim) 99 15] }
def copyCore : Core := { running with qDl := [.instr (.dmCopy opsCopy) 99 15], spm := [(0x2001, 7), (0x20FF, 9)] }
theorem witness_data_moves_c0 :
    let tr : Bool := false; let t : Nat := 20; let p : Nat := 0; let w : Nat := 99; let f : DmXfer := opsXfer
    let s : State := (onCore (xferCore descCopy)); let c := s.coreAt t p
    s.issues t p .dt (.dmXfer f) w c.portFree.dt [] [] ∧ s.fullOut p < 4 ∧ (c.descMode f == 1) = tr ∧ f.rsv = 0 ∧ f.desc.toNat % 64 = 0 ∧
    f.desc.toNat + 64 ≤ spmSize ∧ descLegal c (c.descriptor f.desc.toNat) = true ∧ c.inCacheUnit f.desc.toNat 64 = false ∧
    c.lostRead f.desc.toNat 64 = false := by decide +kernel
theorem witness_data_moves_c1 :
    let get : Bool := true; let t : Nat := 20; let p : Nat := 0; let w : Nat := 99; let f : DmLite := opsLite
    let s : State := (onCore (liteCore true)); let c := s.coreAt t p
    s.issues t p .dt (if get then .dmLiteGet f else .dmLitePut f) w c.portFree.dt [] [] ∧ s.liteOut p < 16 ∧ f.rsv = 0 ∧
    f.laddr.toNat + f.lenm1.toNat + 1 ≤ spmSize := by decide +kernel
theorem witness_data_moves_c2 :
    let t : Nat := 20; let p : Nat := 0; let w : Nat := 99; let f : DmLocal := opsSkim; let s : State := (onCore skimCore)
    let c := s.coreAt t p
    s.issues t p .dl (.dmSkim f) w c.portFree.dl [] (chunkRuns t (dlDst f) (dlLen f) w (fun i => i)) ∧ f.rsv = 0 ∧ f.saddr = 0 ∧
    chunksOneBank (dlDst f) (dlLen f) = true ∧ c.inCacheUnit (dlDst f) (dlLen f) = false := by decide +kernel
theorem witness_data_moves_c0b :
    let tr : Bool := true; let t : Nat := 20; let p : Nat := 0; let w : Nat := 99; let f : DmXfer := opsXfer
    let s : State := (onCore (xferCore descTranspose)); let c := s.coreAt t p
    s.issues t p .dt (.dmXfer f) w c.portFree.dt [] [] ∧ s.fullOut p < 4 ∧ (c.descMode f == 1) = tr ∧ f.rsv = 0 ∧ f.desc.toNat % 64 = 0 ∧
    f.desc.toNat + 64 ≤ spmSize ∧ descLegal c (c.descriptor f.desc.toNat) = true ∧ c.inCacheUnit f.desc.toNat 64 = false ∧
    c.lostRead f.desc.toNat 64 = false := by decide +kernel
theorem witness_data_moves_c3 :
    let t : Nat := 20; let p : Nat := 0; let w : Nat := 99; let f : DmLocal := opsCopy; let s : State := (onCore copyCore)
    let c := s.coreAt t p
    s.issues t p .dl (.dmCopy f) w c.portFree.dl [] (copyAccesses t f c w) ∧ f.rsv = 0 ∧ f.pat = 0 ∧ chunksOneBank (dlDst f) (dlLen f) = true ∧
    chunksOneBank (dlSrc f) (dlLen f) = true ∧ (dlSrc f + dlLen f ≤ dlDst f ∨ dlDst f + dlLen f ≤ dlSrc f) ∧
    c.inCacheUnit (dlDst f) (dlLen f) = false ∧ c.inCacheUnit (dlSrc f) (dlLen f) = false ∧ c.lostRead (dlSrc f) (dlLen f) = false := by decide +kernel

/-- The copy as an outstanding transfer of core 0, its source in place. -/
def xferX : Xfer := xferOf 1 0 7 descCopy []
def moving (x : Xfer) : State := { cores := [(0, { running with spm := [(0x1001, 7), (0x10FF, 9)] })], mem := { xfers := [x], nextXfer := 2 } }
/-- The places of its only unit, and what the arrival finds ready and reads. -/
def arrived (f : UnitFinding) : State × Moved (List (Place × Nat × List Byte)) :=
  andThen (((moving xferX).atBC 20 20).unitReady xferX 0) (fun z l => z.unitBytes xferX 0 f false l)
def arrivedRuns : List (Place × Nat × List Byte) := match (arrived .ok).2 with | .ok l => l | _ => []
theorem witness_units_arrive_c0 :
    let t : Nat := 20; let tc : Nat := 20; let id : Nat := 1; let fnd : UnitFinding := .ok; let oldBad : Bool := false; let x : Xfer := xferX
    let s : State := (moving xferX); let runs : List (Place × Nat × List Byte) := arrivedRuns; let y := s.atBC t tc
    let r := andThen (y.unitReady x x.next) (fun z l => z.unitBytes x x.next fnd oldBad l)
    y.xfer id = some x ∧ x.st = .moving ∧ x.next < x.units ∧ r.2 = .ok runs := by decide +kernel
theorem witness_units_arrive_c2 :
    let bs : List Byte := (List.replicate 4096 3)
    bs.length ≤ 4096 := by decide +kernel
theorem witness_units_arrive_c3 :
    let s : State := (moving xferX); let d : Nat := 0x3000; let bs : List Byte := (List.replicate 4096 3)
    bs ≠ [] ∧ bs.length ≤ 4096 ∧ s.placeOf d bs.length = some (.dram d) := by decide +kernel
/-- What the source release of the same transfer reads. -/
def releasedGot : List (Nat × List Byte) := match (((moving xferX).atBC 20 20).readRest xferX .ok).2 with | .ok l => l | _ => []
/-- The transfer when all is delivered and read, and when its source has still to be released. -/
def xferEnd : Xfer := { xferX with st := .delivered, released := true, next := 1 }
def xferOpen : Xfer := { xferEnd with released := false }
theorem witness_transfer_ends_c0 :
    let t : Nat := 20; let tc : Nat := 20; let id : Nat := 1; let fnd : UnitFinding := .ok; let x : Xfer := xferX
    let s : State := (moving xferX); let got : List (Nat × List Byte) := releasedGot; let y := s.atBC t tc; let r := y.readRest x fnd
    y.xfer id = some x ∧ x.released = false ∧ x.st ≠ .failed ∧ r.2 = .ok got := by decide +kernel
theorem witness_transfer_ends_c1 :
    let id : Nat := 1; let x : Xfer := xferEnd; let s : State := (moving xferEnd)
    s.xfer id = some x ∧ x.st = .delivered ∧ x.sent = [] ∧ x.released = true ∧ s.combining id = false := by decide +kernel
theorem witness_transfer_ends_c2 :
    let id : Nat := 1; let x : Xfer := xferOpen; let s : State := (moving xferOpen)
    s.xfer id = some x ∧ x.st = .delivered ∧ (x.sent ≠ [] ∨ x.released = false ∨ s.combining id = true) := by decide +kernel
/-- A page table with root 0x10000, one table below at each level and leaves of one 4 KiB page of HBM for DVA 0x5000
and one of core 0's scratchpad for DVA 0x6000. -/
def pageTables : Memory :=
  words64 (words64 (words64 (words64 [] 0x10000 [2 ^ 63 + 0x20000]) 0x20000 [2 ^ 63 + 0x21000]) 0x21000 [2 ^ 63 + 0x22000]) 0x22028
    [2 ^ 63 + 2 ^ 62 + 2 ^ 59 + 0x7000, 2 ^ 63 + 2 ^ 62 + 2 ^ 59 + 0x14000007000]
def paged : State := { objVals := [(okey 0x2500 1, some 0x10000)], mem := { dram := pageTables } }
/-- A miss of transfer 1 on the first page, walked by a shared engine. -/
def missed : Miss := { die := 0, page := 5, cls := 2, slots := [(3, 1, 0x5010)], since := 10, eng := .shared }
def walking : State := { paged with mem := { paged.mem with xl := { misses := [missed] }, xfers := [xferX] } }
def walked : State × WalkOut := paged.pageWalk 0 [3] false 0x5010 none
def walkedEntry : Tlb := match walked.2 with | .ok e _ => e | _ => ⟨0, 0, 0, .local', false, 0⟩
def walkedPtrs : List WalkPtr := match walked.2 with | .ok _ l => l | _ => []
def walkFault : XFault := match (paged.pageWalk 0 [3] false 0x9010 none).2 with | .fault f => f | _ => { case := 0 }
theorem witness_page_walk_fills_c0 :
    let t : Nat := 20; let xu : Nat := 3; let dva : Nat := 0x5010; let id : Nat := 1; let s : State := walking; let m : Miss := missed
    (s.atB t).walking xu dva id = some m := by decide +kernel
theorem witness_page_walk_fills_c1 :
    let d : Nat := 0; let dva : Nat := 0x5010; let xus : List Nat := [3]; let stale : Bool := false; let s : State := paged
    let e : Tlb := walkedEntry; let ptrs : List WalkPtr := walkedPtrs; let r := s.pageWalk d xus stale dva none
    xus.Nodup ∧ r.2 = .ok e ptrs := by decide +kernel
theorem witness_page_walk_fills_c2 :
    let d : Nat := 0; let dva : Nat := 0x9010; let xus : List Nat := [3]; let stale : Bool := false; let s : State := paged
    let f : XFault := walkFault; let r := s.pageWalk d xus stale dva none
    r.2 = .fault f := by decide +kernel
theorem witness_page_walk_fills_c3 :
    let s : State := walking; let w : Nat × Nat × Nat := (3, 1, 0x5010); let x : Xfer := xferX
    s.xfer w.2.1 = some x := by decide +kernel

/-! ### Control instructions and tasks -/

/-- A core that runs with one instruction at the head of its CT queue. -/
def ctHead (i : CoreInstr) : Core := { running with qCt := [.instr i 99 15] }
/-- CT.WRC of 42 to arrival counter 63, the last of the page; and a start of the 64-bin histogram with fixed edges. -/
def opsWrc : CtWrc := { offset := 0x1FC, value := 42, rsv := 0 }
theorem witness_control_instructions_c0 :
    let t : Nat := 20; let p : Nat := 0; let w : Nat := 99; let f : CtBare := ⟨0⟩; let s : State := (onCore (ctHead (.ctEnd ⟨0⟩)))
    let c := s.coreAt t p
    s.issues t p .ct (.ctEnd f) w (c.ctFree t) [] [] ∧ f.rsv = 0 := by decide +kernel
theorem witness_control_instructions_c1 :
    let t : Nat := 20; let p : Nat := 0; let w : Nat := 99; let f : CtBare := ⟨0⟩; let s : State := (onCore (ctHead (.ctNop ⟨0⟩)))
    let c := s.coreAt t p
    s.issues t p .ct (.ctNop f) w (c.ctFree t) [] [] ∧ f.rsv = 0 := by decide +kernel
theorem witness_control_instructions_c2 :
    let t : Nat := 20; let p : Nat := 0; let w : Nat := 99; let f : CtWrc := opsWrc; let s : State := (onCore (ctHead (.ctWrc opsWrc)))
    let c := s.coreAt t p
    s.issues t p .ct (.ctWrc f) w (c.ctFree t) [(wrcIllegal f, .illegalEncoding)] (if wrcEdges f c then [accessRun .ct .ct (wrcTable f) t (if hgBins f.value = 64 then 2 else 8) 1 t w] else []) ∧
    (wrcEdges f c = true → oneBank (wrcTable f) (wrcTableLen f) = true ∧ c.inCacheUnit (wrcTable f) (wrcTableLen f) = false ∧ c.lostRead (wrcTable f) (wrcTableLen f) = false) := by decide +kernel
theorem witness_control_instructions_c3 :
    let t : Nat := 20; let p : Nat := 0; let w : Nat := 99; let f : CtCinv := ⟨63, 0⟩
    let s : State := (onCore { ctHead (.ctCinv ⟨63, 0⟩) with cache := [(cacheKey 5 3, [1])] }); let c := s.coreAt t p
    s.issues t p .ct (.ctCinv f) w (c.ctFree t) [] [] ∧ f.rsv = 0 ∧ s.cachedOut p = false := by decide +kernel
/-- CT.RTAG of the last granule as ONCE data, CT.STS of tile 2's word, CT.HGDUMP of 64 counters to byte 0x80. -/
def opsRtag : CtRtag := { gran := 95, tag := 1, rsv := 0 }
def opsSts : CtSts := { acc := 2, addr := 0x44, rsv := 0 }
def dumpCore : Core := { ctHead (.ctHgdump ⟨0⟩) with hgctl := 0x100000, hist := [(0, 3), (63, 2 ^ 32 + 5)] }
theorem witness_control_stores_c0 :
    let p : Nat := 0; let v : Nat := 63; let s : State := (onCore { running with cacheWait := some 63 }); let c := s.core p
    c.cacheWait = some v ∧ v < 64 ∧ s.cachedOut p = false := by decide +kernel
theorem witness_control_stores_c1 :
    let t : Nat := 20; let p : Nat := 0; let w : Nat := 99; let f : CtRtag := opsRtag
    let s : State := (onCore { ctHead (.ctRtag opsRtag) with spm := [(0x17C0000, 1), (0x17FFFFF, 2)] }); let c := s.coreAt t p
    let a := f.gran.toNat * 0x40000
    s.issues t p .ct (.ctRtag f) w (max (c.ctFree t) c.portFree.dl) [] [accessRun .dl .ct a t 512 1 t w] ∧ f.rsv = 0 ∧ f.gran.toNat ≤ 95 ∧
    f.tag ≠ 3 ∧ c.inCacheUnit a 0x40000 = false := by decide +kernel
theorem witness_control_stores_c2 :
    let t : Nat := 20; let p : Nat := 0; let w : Nat := 99; let f : CtSts := opsSts
    let s : State := (onCore { ctHead (.ctSts opsSts) with tiles := [(2, { done := true, anchor := -3 })] }); let c := s.coreAt t p
    s.issues t p .ct (.ctSts f) w (c.ctFree t) [] [accessRun .ct .ct f.addr.toNat t 1 1 t w] ∧ f.rsv = 0 ∧ f.addr.toNat % 4 = 0 ∧
    f.addr.toNat + 4 ≤ spmSize ∧ c.inCacheUnit f.addr.toNat 4 = false := by decide +kernel
theorem witness_control_stores_c3 :
    let t : Nat := 20; let p : Nat := 0; let w : Nat := 99; let f : CtBare := ⟨0⟩; let s : State := (onCore dumpCore); let c := s.coreAt t p
    let a := bits c.hgctl.toNat 37 20 * 128; let n := hgBins c.hgctl
    s.issues t p .ct (.ctHgdump f) w (c.ctFree t) [] [accessRun .ct .ct a t (if n = 64 then 2 else 8) 1 t w] ∧ f.rsv = 0 ∧
    oneBank a (4 * n) = true ∧ c.inCacheUnit a (4 * n) = false := by decide +kernel
/-- A core whose task is ending, with a record on deck. -/
def endingCore : Core := { running with ending := true, ondeck := some task0, vregs := [(1, [5])], spm := [(3, 4)] }
theorem witness_tasks_end_c0 :
    let p : Nat := 0; let s : State := (onCore running); let c := s.core p
    c.ondeck = none := by decide +kernel
theorem witness_tasks_end_c1 :
    let p : Nat := 0; let s : State := (onCore endingCore)
    (s.core p).ondeck ≠ none := by decide +kernel
theorem witness_tasks_end_c2 :
    let t : Nat := 20; let p : Nat := 0; let s : State := (onCore endingCore); let c := s.core p
    c.mayRetire t = true := by decide +kernel
theorem witness_tasks_end_c3 :
    let t : Nat := 2000; let p : Nat := 0; let k : TaskRec := task0; let s : State := (onCore running); let c := s.core p
    c.task = some k ∧ (c.st = .run ∨ c.st = .wait ∨ c.st = .replay) ∧ c.overrun = false ∧ k.budget < c.etk t := by decide +kernel
theorem witness_tasks_end_c4 :
    let t : Nat := 20; let tb : Nat := 20; let p : Nat := 0; let s : State := (onCore { running with st := .halted, spm := [(3, 4)] })
    let c := s.core p
    c.st = .halted ∧ ({ s.atC t with bclk := max s.bclk tb } : State).placedOn (s.taskRef p) p = false := by decide +kernel

/-! ### Memory -/

/-- An ATOMIC_ADD of two INT32 elements at DPA 0x1000, which returns the old values to scratchpad offset 0x40 of core 0. -/
def atomBytes : List Byte :=
  ([2 ^ 57 + 2 ^ 40 + 0x1000, 0x40 * 2 ^ 18 + 9 * 2 ^ 12 + 2 ^ 11, 0, 0, 0, 0, 0, 0].flatMap (leBytes 8)) ++ leBytes 4 5 ++ leBytes 4 0xFFFFFFFF
def atomReq : PortReq := { xfer := 4, port := 32, pos := 0, ref := 7, bytes := atomBytes, whole := true }
def atomState : State := { cores := [(0, running)], mem := { dram := [(0x1000, 3), (0x1004, 1), (0x1008, 8)], ports := [atomReq] } }
theorem witness_atomics_apply :
    let op : Nat := 0; let t : Nat := 20; let x : Nat := 4; let r : PortReq := atomReq; let s : State := atomState; let h := atomHdr r.bytes
    let sz := atomSize h.ty
    op ≤ 8 ∧ s.portReq x = some r ∧ s.runsAt t ∧ r.port = 32 ∧ r.whole = true ∧ h.op = op ∧ atomLegal h = true ∧ s.atomEarlier r = false ∧
    s.atomTarget h = true ∧ s.biNeeded h.target (h.count * sz) true = [] ∧ s.isBad h.target = false := by decide +kernel
/-- The current slot is a reserved test and repair slot. -/
def inRepairSlot (s : State) : State :=
  { s with fix := { s.fix with lastEdge := some 0 }, objVals := (okey 0x4200 0, some (2 ^ 1152)) :: s.objVals }
/-- A die with a fill outstanding and a unit being skimmed; a stack that copies a channel. -/
def memState : State :=
  { mem := { slms := [(1, { fills := [(77, false)], skimming := [3] })], hbms := [(2, { mo := .copy, moChan := 4 })],
             dram := [(0x10098000001, 5)] } }
theorem witness_memory_events_c0 :
    let k : Nat := 1; let blk : Nat := 77; let cancelled : Bool := false; let rest : List (Nat × Bool) := []; let s : State := memState
    (s.slm k).fills = (blk, cancelled) :: rest := by decide +kernel
theorem witness_memory_events_c1 :
    let k : Nat := 1; let n : Nat := 3; let s : State := memState
    n ∈ (s.slm k).skimming := by decide +kernel
theorem witness_memory_events_c2 :
    let t : Nat := 20; let dpa : Nat := 0x1000; let s : State := memState
    s.runsAt t ∧ (match s.region dpa with | .hbm _ _ => true | .slm _ _ => true | _ => false) = true := by decide +kernel
theorem witness_memory_events_c3 :
    let t : Nat := 20; let st : Nat := 2; let s : State := (inRepairSlot memState)
    s.runsAt t ∧ (s.atB t).mayRepair .mapoutCopy [] = true ∧ (s.stack st).mo = .copy ∧ (s.stack st).copied = false := by decide +kernel

/-! ### The Command Front End -/

/-- Queue 3 open with ring 4; an entry of ring 4 deferred to BCLK 15; the host's link up and vector 9 unmasked. -/
def queue3 : Queue := { st := .opened, fhead := 5, dbtail := 5, cr := 4, qmaxcmd := 4, qmaxkib := 64, qspawn := 2, dbflag := true }
def ring4 : Ring := { opened := true, ctail := 7, chead := 2, signalDue := some 15, vec := 9, inten := true }
def cfeState : State :=
  { cfe := { att := .attached, queues := [(3, queue3)], rings := [(4, ring4)] },
    host := { linkUp := true, msixEnable := true, msix := [(9, { written := true, mask := false })] } }
/-- The state with one change to its CFE. -/
def withCfe (f : Cfe → Cfe) : State := { cfeState with cfe := f cfeState.cfe }
theorem witness_doorbells_c0 :
    let t : Nat := 20; let s : State := cfeState
    s.runsAt t := by decide +kernel
theorem witness_doorbells_c1 :
    let t : Nat := 20; let s : State := cfeState
    s.runsAt t := by decide +kernel
theorem witness_doorbells_c2 :
    let r : Nat := 4; let d : Nat := 15; let s : State := cfeState
    (s.cfe.ring r).signalDue = some d := by decide +kernel
/-- A ring in HBM through the page tables above, whose one entry names a buffer of 128 bytes. -/
def ringState : State :=
  { paged with
    cfe := { att := .attached, queues := [(3, { queue3 with fhead := 0, dbtail := 1, base := 0x5000 })], rings := [(4, ring4)] },
    mem := { dram := words64 pageTables 0x7000 [0x5040, 128] } }
def entryRead : State × Moved (List Byte) :=
  ((ringState.atB 20).modCfe (fun x => x.modQueue 3 (fun y => { y with dbflag := false }))).cfeRead {} 0x5000 16
def entryBytes : List Byte := match entryRead.2 with | .ok l => l | _ => []
def bufferRead : State × Moved (List Byte) := (entryRead.1.storeWaits 3 false).cfeRead {} 0x5040 128
def bufferBytes : List Byte := match bufferRead.2 with | .ok l => l | _ => []
/-- A buffer of one NOP with TAG 77. -/
def nopBody : List Byte := ([127, 127, 0, 0, 0, 0, 0, 0, 2, 0, 0, 0, 0, 0, 77, 0] : List Nat).flatMap (leBytes 8)
def nopBuffer : Buffer := { id := 0, q := 3, bytes := nopBody.take 4 ++ leBytes 4 (bcrcOf nopBody) ++ nopBody.drop 8, len := 128, spawned := false }
theorem test_parse_nop : parseBuffer false nopBuffer.bytes 128 = .inl [{ kind := .nop, tag := 77 }] := by decide +kernel
theorem witness_fetch_and_take_c0 :
    let t : Nat := 20; let q : Nat := 3; let s : State := cfeState; let qu := s.cfe.queue q
    s.runsAt t ∧ (qu.st = .opened ∨ qu.st = .halted) ∧ (qu.dbflag = true ∨ qu.fetch ≠ .idle) ∧ qu.spawnQ = [] ∧ qu.fhead = qu.dbtail := by decide +kernel
theorem witness_fetch_and_take_c1 :
    let t : Nat := 20; let q : Nat := 3; let f : ReadFind := {}; let s : State := ringState; let e : List Byte := entryBytes
    let bs : List Byte := bufferBytes; let qu := s.cfe.queue q; let again := qu.dbflag && qu.inPass
    let s0 := (s.atB t).modCfe (fun x => x.modQueue q (fun y => { y with dbflag := again }))
    let a := qu.base + 16 * (qu.fhead.toNat % ringSize qu.szlogm4); let r1 := s0.cfeRead f a 16; let w0 := reqWord e 0; let w1 := reqWord e 1
    let b := bits w0 51 0; let len := bits w1 16 0; let r2 := (r1.1.storeWaits q false).cfeRead f b len; let kib := 4 * cdiv len 4096
    s.runsAt t ∧ (qu.st = .opened ∨ qu.st = .halted) ∧ (qu.dbflag = true ∨ qu.fetch ≠ .idle) ∧ qu.spawnQ = [] ∧ qu.dbtail = qu.fhead + 1 ∧
    s.cfe.parked.length < 16384 ∧ (s0.cfeHost a = true → s0.hostFor (q == 0) = true) ∧ r1.2 = .ok e ∧ entryLegal w0 w1 = true ∧
    (q = 0 → s.cfe.kibOf 0 + kib ≤ 256) ∧
    (q ≠ 0 → (s.cfe.kibOf q = 0 ∨ s.cfe.kibOf q + kib ≤ qu.qmaxkib) ∧ s.cfe.kibAll + kib ≤ 16384 - 256 ∧ s.cfe.behind q = false) ∧
    (r1.1.cfeHost b = true → r1.1.hostFor (q == 0) = true) ∧ r2.2 = .ok bs := by decide +kernel
theorem witness_fetch_and_take_c2 :
    let t : Nat := 20; let q : Nat := 3; let b : Buffer := nopBuffer; let l : List Parsed := [{ kind := .nop, tag := 77 }]
    let s : State := (withCfe (fun f => { f with buffers := [nopBuffer] })); let qu := s.cfe.queue q
    s.runsAt t ∧ (qu.st = .opened ∨ qu.st = .halted) ∧ qu.spawnQ = [] ∧ s.cfe.buffers.filter (fun b => b.q == q && !b.taken) = [b] ∧
    b.bad = none ∧ parseBuffer (q == 0) b.bytes b.len = .inl l ∧ (q = 0 ∨ s.cfe.cmdsOf q = [] ∨ (s.cfe.cmdsOf q).length + l.length ≤ qu.qmaxcmd) := by decide +kernel
/-- A READY RUN of queue 3 with its cost table at DVA 0x6000, in core 0's scratchpad: one phase without positions; its due slot is slot 3, two cycles on. -/
def run0 : RunRec :=
  { duecyc := 2, dueslot := 3, argspm := 0, rel := true, cost := 0x6000, valid := 1, argoff := 0, arglen := 64, spawn := 0, seqoff := 0, reqoff := 0,
    outoff := 0, nout := 0, nreq := 0 }
def runCmd : Cmd := { q := 3, cseq := 6, incarn := 1, buf := 0, kind := .run run0, tag := 50, st := .ready }
def runState : State :=
  { paged with
    fix := { cad := .locked, lastEdge := some 0, ready := true },
    cfe := { att := .attached, queues := [(3, queue3)], rings := [(4, ring4)], cmds := [runCmd] },
    cores := [(0, { running with spm := words64 [] 0x7000 [2 ^ 58 + 2 ^ 48 + 4, 9, 0, 0, 0, 0, 0, 0, 10, 0, 0, 0, 0, 0, 0, 0] })] }
def costRead : State × Moved (List Byte) := ((runState.atB 20).modCfe (fun x => { x with served := 3 })).cfeRead {} 0x6000 4096
def costBytes : List Byte := match costRead.2 with | .ok l => l | _ => []
def costFound : CostTable :=
  (costOf costBytes).getD { cls := .bulk, plan := 0, planid := 0, seq := false, pklenm1 := 0, pqm1 := 0, combine := [], phases := [], peers := [] }
/-- It is admitted. -/
theorem witness_admitted :
    (match (costRead.1.modCmd runCmd.ref (fun d => { d with cost := some costFound })).decideRoom 3 6 costFound 2 3 with
      | .accept _ _ => true | _ => false) = true := by decide +kernel
def nopCmd : Cmd := { runCmd with kind := .nop, st := .ready }
theorem witness_admission_c0 :
    let rep : Bool := false; let t : Nat := 20; let q : Nat := 3; let cseq : Nat := 6; let f : ReadFind := {}; let s : State := runState
    let c : Cmd := runCmd; let r : RunRec := run0; let b : List Byte := costBytes; let x : CostTable := costFound
    let h := ((s.atB t).modCfe (fun x => { x with served := q })).readHeaders f (s.cfe.reqsOf c r)
    let y := h.1.cfeRead f (r.cost / 4096 * 4096) 4096
    s.runsAt t ∧ s.fix.edgeDue = none ∧ s.cfe.pick = some c ∧ c.run? = some r ∧ c.q = q ∧ c.cseq = cseq ∧ r.rep = rep ∧ h.2 = .ok true ∧
    y.2 = .ok b ∧ costOf (b.drop (r.cost % 4096)) = some x ∧ (s.cfe.reqsOf c r = [] ∨ x.phases.any (fun p => p.k == 0) = true) ∧
    shapeOk (s.cfe.bytesOf c) r x = true := by decide +kernel
theorem witness_admission_c1 :
    let s : State := { runState with fix := { runState.fix with edgeDue := some 40 } }
    s.fix.edgeDue ≠ none := by decide +kernel
theorem witness_admission_c2 :
    let t : Nat := 20; let q : Nat := 3; let cseq : Nat := 6; let c : Cmd := nopCmd
    let s : State := (withCfe (fun f => { f with cmds := [nopCmd] }))
    s.runsAt t ∧ s.cfe.cmdAt q cseq = some c ∧ c.kind = .nop ∧ c.st = .ready ∧
    (q = 0 → s.cfe.cmds.find? (fun d => d.q == 0 && d.st != .done && d.st != .running) = some c) := by decide +kernel
/-- An admitted command whose phase on position 2 starts at once; a running one with its work done and a spawn list at DVA 0x5000; a done NOP. -/
def admCmd : Cmd := { runCmd with st := .admitted }
def placed2 : Placement := { q := 3, cseq := 6, cls := .rank, first := 0, slots := 4, positions := [2] }
def phaseState : State := { runState with fix := { cad := .locked, lastEdge := some 0, ledger := [placed2] }, cfe := { cmds := [admCmd] } }
def runSpawn : RunRec := { run0 with spawn := 0x5000 }
def spawnCmd : Cmd := { runCmd with kind := .run runSpawn, st := .running, ran := true }
def spawnState : State :=
  { runState with cfe := { queues := [(3, queue3)], cmds := [spawnCmd] }, mem := { dram := words64 pageTables 0x7000 [2, 0, 0x9000, 128, 0xA000, 256] } }
def spawnRead : State × Moved (List Byte) := (spawnState.atB 20).cfeRead {} 0x5000 256
def spawnBytes : List Byte := match spawnRead.2 with | .ok l => l | _ => []
def doneCmd : Cmd := { nopCmd with st := .done, status := some .ok }
/-- Queue 3's ring is in core 0's scratchpad. -/
def postState : State := { ringState with cfe := { queues := [(3, queue3)], rings := [(4, { ring4 with base := 0x6000 })], cmds := [doneCmd] } }
theorem witness_release_and_post_c0 :
    let t : Nat := 20; let tc : Nat := 30; let q : Nat := 3; let cseq : Nat := 6; let s : State := phaseState; let c : Cmd := admCmd
    let r : RunRec := run0; let p : Placement := placed2; let s0 := s.atBC t tc
    s.runsAt t ∧ s.cfe.cmdAt q cseq = some c ∧ c.run? = some r ∧ (s.placements c).filter (fun p => !p.released) = [p] ∧
    (c.st = .admitted ∨ c.st = .running) ∧ p.first ≤ s0.absSlot := by decide +kernel
theorem witness_release_and_post_c1 :
    let t : Nat := 20; let q : Nat := 3; let cseq : Nat := 6; let f : ReadFind := {}; let s : State := spawnState; let c : Cmd := spawnCmd
    let r : RunRec := runSpawn; let b : List Byte := spawnBytes; let y := (s.atB t).cfeRead f r.spawn 256
    s.runsAt t ∧ s.cfe.cmdAt q cseq = some c ∧ c.run? = some r ∧ r.spawn ≠ 0 ∧ c.spawnRead = false ∧ c.st = .running ∧
    (s.atB t).workDone c = true ∧ y.2 = .ok b ∧ bits (reqWord b 0) 63 4 = 0 ∧ reqWord b 1 = 0 := by decide +kernel
theorem witness_release_and_post_c2 :
    let t : Nat := 20; let q : Nat := 3; let f : ReadFind := {}; let c : Cmd := doneCmd; let s : State := postState
    let s0 := ((s.atB t).finish q).markHeld q; let st := s0.statusOf c
    let c1 := if st = .late ∧ c.reason = 0 then { c with reason := if c.stalled then 0x0A else 0x0F } else c
    let y := s0.issueRecord f (if q = 0 then 0 else (s0.cfe.queue q).cr) (s0.record c1 st)
    s.runsAt t ∧ s0.cfe.nextIssue q = some c ∧ (c.st = .done ∨ c.st = .finished) ∧ s0.taskOn c.ref = false ∧ s0.busyRef c.ref = false ∧
    (∀ r, c.run? = some r → ∀ e ∈ (s0.cfe.outsOf c r).head?, (bitAt e.1 63 && (c.status == none || c.status == some .empty)) = false) ∧
    y.2 = true := by decide +kernel
/-- An admin command at the head of Q0. -/
def admin (kind w1 w2 w3 : Nat) : Cmd := { q := 0, cseq := 1, incarn := 1, buf := 0, kind := .admin kind w1 w2 w3 false, tag := 0, st := .ready }
def adminState (c : Cmd) (l : List Cmd) : State := withCfe (fun f => { f with queues := (0, { st := .opened }) :: f.queues, cmds := c :: l })
/-- Quotas 8, 64 KiB and 4 spawns. -/
def quota8 : Nat := 8 * 2 ^ 48 + 64 * 2 ^ 32 + 4 * 2 ^ 16
def halted3 (l : List Cmd) (c : Cmd) : State :=
  withCfe (fun f => { f with queues := [(0, { st := .opened }), (3, { queue3 with st := .halted, haltseq := 6 })], cmds := c :: l })
def faultedCmd : Cmd := { runCmd with st := .faulted, fault := some .sealMismatch }
theorem witness_admin_create_destroy_c0 :
    let t : Nat := 20; let w1 : Nat := 0x9000; let w2 : Nat := (255 * 2 ^ 24 + 4 * 2 ^ 16); let w3 : Nat := quota8
    let c : Cmd := (admin 0x10 0x9000 (255 * 2 ^ 24 + 4 * 2 ^ 16) quota8)
    let s : State := (adminState (admin 0x10 0x9000 (255 * 2 ^ 24 + 4 * 2 ^ 16) quota8) []); let q := bits w2 31 24; let r := bits w2 23 16
    s.adminFirst t 0x10 w1 w2 w3 c ∧ ringOk w1 = true ∧ quotaOk w3 = true ∧ q ≠ 0 ∧ r ≠ 0 ∧ (s.cfe.ring r).opened = true ∧
    (s.cfe.queue q).st = .free := by decide +kernel
theorem witness_admin_create_destroy_c1 :
    let t : Nat := 20; let w1 : Nat := (12 * 2 ^ 60 + 0x9000); let w2 : Nat := (255 * 2 ^ 24); let w3 : Nat := 7
    let c : Cmd := (admin 0x11 (12 * 2 ^ 60 + 0x9000) (255 * 2 ^ 24) 7)
    let s : State := (adminState (admin 0x11 (12 * 2 ^ 60 + 0x9000) (255 * 2 ^ 24) 7) []); let r := bits w2 31 24
    s.adminFirst t 0x11 w1 w2 w3 c ∧ ringOk w1 = true ∧ r ≠ 0 ∧ (s.cfe.ring r).opened = false := by decide +kernel
theorem witness_admin_create_destroy_c2 :
    let t : Nat := 20; let w1 : Nat := 0; let w2 : Nat := (3 * 2 ^ 24); let w3 : Nat := 0; let c : Cmd := (admin 0x12 0 (3 * 2 ^ 24) 0)
    let s : State := (adminState (admin 0x12 0 (3 * 2 ^ 24) 0) [runCmd]); let q := bits w2 31 24
    s.adminFirst t 0x12 w1 w2 w3 c ∧ q ≠ 0 ∧ ((s.cfe.queue q).st = .opened ∨ (s.cfe.queue q).st = .halted) := by decide +kernel
theorem witness_admin_create_destroy_c3 :
    let t : Nat := 20; let w1 : Nat := 0; let w2 : Nat := (5 * 2 ^ 24); let w3 : Nat := 0; let c : Cmd := (admin 0x13 0 (5 * 2 ^ 24) 0)
    let s : State := { adminState (admin 0x13 0 (5 * 2 ^ 24) 0) [] with cfe := { (adminState (admin 0x13 0 (5 * 2 ^ 24) 0) []).cfe with rings := [(5, ring4)] } }
    let r := bits w2 31 24
    s.adminFirst t 0x13 w1 w2 w3 c ∧ r ≠ 0 ∧ (s.cfe.ring r).opened = true ∧ s.cfe.parkedOf r = 0 ∧
    s.cfe.queues.any (fun p => p.1 != 0 && p.2.st != .free && p.2.cr == r) = false := by decide +kernel
theorem witness_admin_changes_c0 :
    let t : Nat := 20; let w1 : Nat := 0; let w2 : Nat := (3 * 2 ^ 24); let w3 : Nat := 0; let c : Cmd := (admin 0x14 0 (3 * 2 ^ 24) 0)
    let s : State := (halted3 [faultedCmd] (admin 0x14 0 (3 * 2 ^ 24) 0)); let q := bits w2 31 24
    s.adminFirst t 0x14 w1 w2 w3 c ∧ q ≠ 0 ∧ (s.cfe.queue q).st = .halted := by decide +kernel
theorem witness_admin_changes_c1 :
    let t : Nat := 20; let w1 : Nat := 0; let w2 : Nat := (3 * 2 ^ 24); let w3 : Nat := quota8
    let c : Cmd := (admin 0x15 0 (3 * 2 ^ 24) quota8); let s : State := (adminState (admin 0x15 0 (3 * 2 ^ 24) quota8) [])
    let q := bits w2 31 24
    s.adminFirst t 0x15 w1 w2 w3 c ∧ quotaOk w3 = true ∧ q ≠ 0 ∧ (s.cfe.queue q).st ≠ .free := by decide +kernel
theorem witness_admin_changes_c2 :
    let t : Nat := 20; let w1 : Nat := 0x9000; let w2 : Nat := (3 * 2 ^ 24); let w3 : Nat := 0
    let c : Cmd := (admin 0x16 0x9000 (3 * 2 ^ 24) 0); let s : State := (adminState (admin 0x16 0x9000 (3 * 2 ^ 24) 0) [])
    let q := bits w2 31 24
    s.adminFirst t 0x16 w1 w2 w3 c ∧ q ≠ 0 ∧ ((s.cfe.queue q).st = .opened ∨ (s.cfe.queue q).st = .halted) ∧ ringOk w1 = true ∧
    bits w1 63 60 = (s.cfe.queue q).szlogm4 := by decide +kernel
theorem witness_admin_changes_c3 :
    let t : Nat := 20; let w1 : Nat := 0x9000; let w2 : Nat := (4 * 2 ^ 24); let w3 : Nat := 0
    let c : Cmd := (admin 0x17 0x9000 (4 * 2 ^ 24) 0); let s : State := (adminState (admin 0x17 0x9000 (4 * 2 ^ 24) 0) [])
    let r := bits w2 31 24
    s.adminFirst t 0x17 w1 w2 w3 c ∧ r ≠ 0 ∧ (s.cfe.ring r).opened = true ∧ ringOk w1 = true ∧ bits w1 63 60 = (s.cfe.ring r).szlogm4 ∧
    s.cfe.parkedOf r = 0 := by decide +kernel
theorem witness_attach_and_detach_c0 :
    let t : Nat := 20; let s : State := { cfe := { admsq := 0x10000, admcr := 0x20000 } }; let sq := s.cfe.admsq.toNat
    let cr := s.cfe.admcr.toNat
    s.runsAt t ∧ s.cfe.att = .detached ∧ admRingOk sq = true ∧ admRingOk cr = true ∧ s.cfe.parkedOf 0 = 0 := by decide +kernel
theorem witness_attach_and_detach_c1 :
    let s : State := cfeState
    (s.cfe.att ≠ .detached ∨ admRingOk s.cfe.admsq.toNat = false ∨ admRingOk s.cfe.admcr.toNat = false) := by decide +kernel
theorem witness_attach_and_detach_c2 :
    let t : Nat := 20; let s : State := cfeState
    s.runsAt t := by decide +kernel

/-! ### The cadence -/

/-- The cadence in a state, its last edge at BCLK 100 and its last pulse at 36. -/
def cadence (c : CadState) : Fixture := { cad := c, ready := true, lastEdge := some 100, pulse := some 36 }
theorem witness_cadence_pulses_c1 :
    let last : Nat := 100; let s : State := { fix := cadence .locked }
    s.fix.edgeDue = none ∧ s.fix.lastEdge = some last := by decide +kernel
theorem witness_cadence_pulses_c2 :
    let t : Nat := 500000000; let last : Nat := 100; let p4 : Nat := 36
    let s : State := { fix := { cadence .unlocked with relockWait := some 36 } }
    s.fix.edgeDue = none ∧ s.fix.lastEdge = some last ∧ s.fix.relockWait = some p4 ∧ p4 + s.period + s.window ≤ max s.bclk t := by decide +kernel
theorem witness_cadence_pulses_c4 :
    let t : Nat := 1100000101; let l : Nat := 100; let s : State := { fix := { lastPps := some 100 } }
    s.fix.lastPps = some l ∧ l + 1100000000 < max s.bclk t := by decide +kernel

/-! ### Embedding engines -/

/-- Table 7: 2,048 rows of 32 FP8 elements in one stripe, trainable, its home map at DVA 0x5800. -/
def desc7 : Nat :=
  (7 * 2 ^ 52 + 2 * 2 ^ 48 + 127 * 2 ^ 40 + 2 ^ 33 + 2047) + 2 ^ 48 * 2 ^ 64 + 0x5800 * 2 ^ 128 + 0x5800 * 2 ^ 192
/-- The home map names stack 2, frame 557056, where row 3 holds an element of 1. -/
def rowDpa (row : Nat) : Nat := (({} : State)).frameDpa 2 557056 (servOff desc7 row)
def embState : State :=
  { paged with
    objVals := [(okey 0x2500 1, some 0x10000), (okey 0x5007 1, some desc7)],
    mem := { dram := (words64 pageTables 0x7800 [2 ^ 47 + 2 * 2 ^ 28 + 557056]).write (rowDpa 3) 0x38 } }
/-- A lookup of rows 3 and 5 in one bag, whole in port 2. -/
def lookBytes : List Byte :=
  ([7 * 2 ^ 52 + 6 * 2 ^ 46, 2 ^ 23, 2, 0x9000, 128 * 2 ^ 32, 0, 0, 0].flatMap (leBytes 8)) ++ ([0, 2] ++ List.replicate 14 0 ++ [3, 5]).flatMap (leBytes 4)
def lookReq : PortReq := { xfer := 4, port := 2, pos := 0, ref := 7, bytes := lookBytes, whole := true }
/-- An update of row 3, whole in port 18. -/
def updBytes : List Byte :=
  ([7 * 2 ^ 52, 1, 0, 0, 0, 0, 0, 0].flatMap (leBytes 8)) ++ leBytes 4 3 ++ List.replicate 60 0 ++ (List.range 32).flatMap (leBytes 16)
def updReq : PortReq := { xfer := 4, port := 18, pos := 0, ref := 7, bytes := updBytes, whole := true }
def withPort (r : PortReq) : State := { embState with mem := { embState.mem with ports := [r] } }
def routesOf (r : State × Except XferFault (List Route)) : List Route := match r.2 with | .ok l => l | _ => []
def lookRoutes : List Route := routesOf (((withPort lookReq).atBC 20 20).routeRows true 2 7 desc7 0 none [3, 5] [])
def updRoutes : List Route := routesOf (((withPort updReq).atBC 20 20).routeRows false 2 7 desc7 0 none [3] [])
/-- The share of such a lookup at stack 2, rows 3 and 5 still to come. -/
def share0 : Share :=
  { src := 0, st := 2, tag := 44, home := 2, table := 7, desc := desc7, step := 0, eff := 0, gen := 0, ref := 7, rows := [(3, [(0, 1)]), (5, [(0, 1)])],
    left := [(3, [(0, 1)]), (5, [(0, 1)])], at' := [(3, 2, 557056), (5, 2, 557056)] }
def shareState : State := { embState with emb := { shares := [share0] } }
def rowGot : List Dy := (rowVals desc7 (shareState.mem.dram.readBytes (rowDpa 3) (tdB desc7))).getD []
/-- Stripe 0 of table 7 moves from stack 2 to stack 3; nothing is written yet. -/
def mig0 : Mig := { key := rowKey 7 0, srcSt := 2, srcFrame := 557056, dstMod := 0, asked := 3, dstSt := 3, dstFrame := 557056, st := .copy }
def migState : State := inRepairSlot { objVals := [(okey 0x5007 1, some desc7)], emb := { migs := [mig0] } }
theorem witness_embedding_requests_c0 :
    let t : Nat := 20; let tc : Nat := 20; let x : Nat := 4; let ue : Option Nat := none; let s : State := (withPort lookReq)
    let r : PortReq := lookReq; let routes : List Route := lookRoutes; let s0 := s.atBC t tc; let h := lookHdr r.bytes; let d := s.tdesc h.table
    let y := s0.routeRows true r.port h.table d (s.gen h.table) ue ((lookEntries h).map (·.1)) []; let tag := y.1.freshTag (h.mode == 2)
    let base : Share := { src := s.modId, st := r.port, tag := tag, home := 0, table := h.table, desc := d, step := r.step, eff := if stepCase y.1.stepNo r.step = .late then y.1.stepNo else r.step, gen := s.gen h.table, ref := r.ref, exact := h.mode == 2, rows := [], left := [] }
    let shares := shareList base routes (groupRows (lookEntries h))
    s.runsAt t ∧ s.portReq x = some r ∧ r.port < 16 ∧ r.whole = true ∧ lookLegal r.bytes h = true ∧ d ≠ 0 ∧
    tdD d * fmtWidth h.fmto ≤ h.ostride * 8 ∧ poolClaim d h ≤ 1048576 ∧ s.poolUsed r.port + poolClaim d h ≤ 1048576 ∧
    y.2.toOption = some routes ∧ shares.any y.1.shareTooBig = false ∧ stepCase y.1.stepNo r.step ≠ .ahead ∧
    (y.1.emb.looks.all (fun l => l.tag != tag)) = true := by decide +kernel
theorem witness_embedding_requests_c1 :
    let t : Nat := 20; let src : Nat := 0; let st : Nat := 2; let tag : Nat := 44; let home : Nat := 2; let row : Nat := 3
    let bags : List (Nat × Nat) := [(0, 1)]; let rest : List (Nat × List (Nat × Nat)) := [(5, [(0, 1)])]; let h : Share := share0
    let s : State := shareState
    s.runsAt t ∧ s.emb.shares.find? (fun h => h.same src st tag && h.home == home) = some h ∧ h.left = (row, bags) :: rest := by decide +kernel
theorem witness_embedding_requests_c2 :
    let t : Nat := 20; let tc : Nat := 20; let x : Nat := 4; let ue : Option Nat := none; let s : State := (withPort updReq)
    let r : PortReq := updReq; let routes : List Route := updRoutes; let h := updHdr r.bytes; let d := s.tdesc h.table
    let rows := words32 ((r.bytes.drop 64).take (4 * h.nrows))
    let y := (s.atBC t tc).routeRows false (r.port - 16) h.table d (s.gen h.table) ue rows []
    s.runsAt t ∧ s.portReq x = some r ∧ 16 ≤ r.port ∧ r.port < 32 ∧ r.whole = true ∧ 64 ≤ r.bytes.length ∧ h.rsv = 0 ∧ d ≠ 0 ∧ h.nrows ≠ 0 ∧
    h.nrows ≤ 2 ^ 20 ∧ r.bytes.length = updVals h.nrows + 16 * h.nrows * tdD d ∧ tdTrain d = true ∧ h.anchor = tdUanchor d ∧
    y.2.toOption = some routes ∧ stepCase y.1.stepNo r.step ≠ .ahead := by decide +kernel
theorem witness_embedding_requests_c3 :
    let t : Nat := 20; let table : Nat := 7; let stripe : Nat := 0; let m : Mig := mig0; let s : State := migState; let s0 := s.atB t
    s.runsAt t ∧ s0.inRsv = true ∧ s.emb.migs.find? (fun m => m.key == rowKey table stripe) = some m ∧ m.st = .copy ∧ m.sent = false := by decide +kernel
/-- A bank with one partial of row 9. -/
def bank9 : Table Entry := [(9, { vals := [1, 2], chk := 3, n := 1 })]
def part9 : Partial := { feed := ⟨0, 2, 44, 7⟩, key := 9, vals := [5, -2], chkBad := false }
def bankOf (r : AddRes) : Table Entry := match r with | .ok b => b | _ => []
theorem witness_combine_is_exact :
    let b : Table Entry := bank9; let b' : Table Entry := (bankOf (bankAdd bank9 part9)); let p : Partial := part9
    bankAdd b p = .ok b' := by decide +kernel

/-! ### Farast packets -/

/-- A packet from module 5 to this module, which is module 0, and what receiving it on the fabric port leaves. -/
def from5 (a : PktArgs) : Packet := ({ objVals := [(okey 0x2700 1, some 5)] } : State).mkPacket { a with dst := 0 } 1 false
def received (s : State) (k : Packet) : State := match (s.atBC 20 20).recvRequest 12 k with | .apply x => x | .drop x => x
def linked (s : State) (k : Packet) : State := match (s.atBC 20 20).recvLink 12 k with | .apply x => x | .drop x => x
/-- Inbound windows 3 and 4 of one page at DVA 0x6000 and at DVA 0x5000, for reads and writes of any module; 5 is not valid. -/
def windowState : State :=
  { paged with
    objVals := [(okey 0x2500 1, some 0x10000), (okey 0x2610 3, some (2 ^ 63 + 2 ^ 62 + 2 ^ 61 + 6 * 2 ^ 12 + 4095 * 2 ^ 64 + 2 ^ 191)),
    (okey 0x2610 4, some (2 ^ 63 + 2 ^ 62 + 2 ^ 61 + 5 * 2 ^ 12 + 4095 * 2 ^ 64 + 2 ^ 191))] }
def writePkt : Packet := from5 { op := 0x01, dst := 0, w1 := 3 * 2 ^ 40 + 0x10, payload := (List.range 16).flatMap (leBytes 1) }
def readPkt : Packet := from5 { op := 0x02, dst := 0, w1 := 3 * 2 ^ 40 + 0x10, w2 := 16 }
def dramPkt : Packet := from5 { op := 0x01, dst := 0, w1 := 4 * 2 ^ 40 + 0x10, payload := (List.range 16).flatMap (leBytes 1) }
def badPkt : Packet := from5 { op := 0x01, dst := 0, w1 := 5 * 2 ^ 40 + 0x10, payload := (List.range 16).flatMap (leBytes 1) }
def refusal : Nat := match ((received windowState badPkt).judgeWindow 12 badPkt 16 true none).2 with | .refused c => c | _ => 0
/-- A READ and an embedding request of this module await their answers from module 5. -/
def askState : State :=
  { links := { reqs := [{ dst := 5, eseq := 9, pkt := readPkt, owner := .unit 1 0x5000 true, sentAt := 0, lastAt := 0 },
                        { dst := 5, eseq := 10, pkt := readPkt, owner := .emb 4, sentAt := 0, lastAt := 0 }] },
    mem := { xfers := [xferX] } }
def respPkt : Packet := from5 { op := 0x03, dst := 0, w6 := 9, payload := leBytes 16 77 }
def eackPkt : Packet := from5 { op := 0x04, dst := 0, w6 := 10 }
theorem witness_window_packets_c0 :
    let t : Nat := 20; let tc : Nat := 20; let n : Nat := 12; let op : Nat := 0x01; let k : Packet := writePkt; let s : State := windowState
    let x : State := (received windowState writePkt)
    s.receives t tc n op k x := by decide +kernel
theorem witness_window_packets_c1 :
    let t : Nat := 20; let tc : Nat := 20; let n : Nat := 12; let c : Nat := 0; let off : Nat := 0x7010; let a : Nat := 0x6010
    let k : Packet := writePkt; let ue : Option Nat := none; let s : State := windowState; let x : State := (received windowState writePkt)
    let j := x.judgeWindow n k k.payload.length true ue
    s.receives t tc n 0x01 k x ∧ j.2 = .ok [(.spm c off, a, k.payload.length)] ∧
    (j.1.placesWait true [(.spm c off, a, k.payload.length)]).2 = false ∧ k.payload ≠ [] := by decide +kernel
theorem witness_window_packets_c2 :
    let t : Nat := 20; let tc : Nat := 20; let n : Nat := 12; let d : Nat := 0x7010; let a : Nat := 0x5010; let k : Packet := dramPkt
    let ue : Option Nat := none; let e : Ecc := .ok; let s : State := windowState; let x : State := (received windowState dramPkt)
    let j := x.judgeWindow n k k.payload.length true ue; let l := [(Place.dram d, a, k.payload.length)]
    s.receives t tc n 0x01 k x ∧ j.2 = .ok l ∧ (j.1.placesWait true l).2 = false ∧ d % 4096 + k.payload.length ≤ 4096 ∧ k.payload ≠ [] ∧
    (j.1.oldBytes (joinRuns l k.payload) (fun _ => e == .uncorrectable)).2 = none := by decide +kernel
theorem witness_window_packets_c3 :
    let t : Nat := 20; let tc : Nat := 20; let n : Nat := 12; let case : Nat := refusal; let wr : Bool := true; let k : Packet := badPkt
    let ue : Option Nat := none; let s : State := windowState; let x : State := (received windowState badPkt)
    let len := if wr then k.payload.length else bits (k.word 2) 12 0; let j := x.judgeWindow n k len wr ue
    (if wr then s.receives t tc n 0x01 k x else k.op = 0x02 ∧ (s.atBC t tc).recvLink n k = .apply x) ∧ j.2 = .refused case := by decide +kernel
theorem witness_window_packets_c4 :
    let t : Nat := 20; let tc : Nat := 20; let n : Nat := 12; let a : Nat := 0x6010; let pl : Place := (.spm 0 0x7010)
    let k : Packet := readPkt; let ue : Option Nat := none; let e : Ecc := .ok; let s : State := windowState
    let x : State := (linked windowState readPkt); let len := bits (k.word 2) 12 0; let j := x.judgeWindow n k len false ue
    let l := [(pl, a, len)]
    k.op = 0x02 ∧ (s.atBC t tc).recvLink n k = .apply x ∧ j.2 = .ok l ∧ (j.1.placesWait false l).2 = false ∧ e ≠ .uncorrectable ∧
    j.1.sealFails pl len = false := by decide +kernel
theorem witness_window_packets_c5 :
    let t : Nat := 20; let tc : Nat := 20; let n : Nat := 12; let k : Packet := respPkt; let s : State := askState
    let x : State := (linked askState respPkt)
    let r : E2e := { dst := 5, eseq := 9, pkt := readPkt, owner := .unit 1 0x5000 true, sentAt := 0, lastAt := 0 }
    s.answers t tc n 0x03 k x r := by decide +kernel
theorem witness_window_packets_c6 :
    let t : Nat := 20; let tc : Nat := 20; let n : Nat := 12; let k : Packet := eackPkt; let s : State := askState
    let x : State := (linked askState eackPkt)
    let r : E2e := { dst := 5, eseq := 10, pkt := readPkt, owner := .emb 4, sentAt := 0, lastAt := 0 }
    s.answers t tc n 0x04 k x r := by decide +kernel
/-- Embedding packets about request 44 of stack 2 on table 7. -/
def embPkt (op w6 : Nat) (payload : List Byte) : Packet := from5 { op := op, dst := 0, w1 := embWord1 7 2 44, w6 := w6, payload := payload }
/-- The lookup that awaits module 5 and stack 2, and the update that awaits three partials. -/
def look44 : Look :=
  { tag := 44, st := 2, pos := 0, ref := 7, table := 7, desc := desc7, step := 0, gen := 0, mode := 0, fmto := 6, osh := 0, plan := 1, valid := 1,
    out := 0x9000, ostride := 128, cnt := 0, cen := false, sclass := 0, claim := 33, homes := [2, 261], waiting := [2, 261] }
def upd44 : Upd := { tag := 44, st := 2, pos := 0, ref := 7, xfer := 4, step := 0, left := 3, homes := [(261, 3)] }
def rootState : State := { embState with emb := { looks := [look44], nextTag := 45 } }
def updState : State := { embState with emb := { upds := [upd44] } }
def homeState : State := { embState with emb := { shares := [{ share0 with src := 5, left := [] }] } }
def idxPkt : Packet := embPkt 0x10 0 (leBytes 8 3)
def sentPkt : Packet := embPkt 0x13 (2 ^ 60 + 2) []
def partPkt : Packet := embPkt 0x11 1 (leBytes 16 5 ++ leBytes 16 (2 ^ 128 - 6))
def updPkt : Packet := embPkt 0x12 (3 * 2 ^ 32) ((List.range 32).flatMap (leBytes 16))
/-- A packet with the first half of a row. -/
def halfPkt : Packet := embPkt 0x12 (3 * 2 ^ 32) ((List.range 16).flatMap (leBytes 16))
def donePkt : Packet := embPkt 0x13 (2 * 2 ^ 60 + 2 ^ 59) []
def replayPkt : Packet := from5 { op := 0x13, dst := 0, w1 := embWord1 7 2 44, w6 := 3 * 2 ^ 60, round := 1 }
def combinedPkt : Packet := embPkt 0x13 (4 * 2 ^ 60 + 2) []
def faultPkt : Packet := embPkt 0x13 (5 * 2 ^ 60 + 1) []
/-- A block of stripe 1 of table 7, which moves here. -/
def migPkt : Packet := from5 { op := 0x14, dst := 0, w1 := 7 * 2 ^ 52 + 1, w6 := 0, payload := leBytes 16 99 }
def migIn1 : MigIn := { key := rowKey 7 1, src := 5, st := 3, frame := 557060 }
def movingState : State := { embState with emb := { migIns := [migIn1] } }
theorem witness_embedding_packets_c0 :
    let sent : Bool := false; let t : Nat := 20; let tc : Nat := 20; let n : Nat := 12; let k : Packet := idxPkt; let s : State := embState
    let x : State := (received embState idxPkt)
    s.receives t tc n (if sent then 0x13 else 0x10) k x ∧ (sent = true → ekCode k = 1) := by decide +kernel
theorem witness_embedding_packets_c0b :
    let sent : Bool := true; let t : Nat := 20; let tc : Nat := 20; let n : Nat := 12; let k : Packet := sentPkt; let s : State := embState
    let x : State := (received embState sentPkt)
    s.receives t tc n (if sent then 0x13 else 0x10) k x ∧ (sent = true → ekCode k = 1) := by decide +kernel
theorem witness_embedding_packets_c1 :
    let t : Nat := 20; let tc : Nat := 20; let n : Nat := 12; let k : Packet := partPkt; let s : State := rootState
    let x : State := (received rootState partPkt); let l : Look := look44
    s.receives t tc n 0x11 k x ∧ s.lookOf k = some l := by decide +kernel
theorem witness_embedding_packets_c2 :
    let t : Nat := 20; let tc : Nat := 20; let n : Nat := 12; let st : Nat := 2; let frame : Nat := 557056; let k : Packet := updPkt
    let fnd : RowFinding := .ok; let s : State := embState; let x : State := (received embState updPkt); let table := ekTable k
    let d := s.tdesc table; let row := bits (k.word 6) 63 32; let vals := vals16 k.payload
    let y := x.stripeHome (ekStack k) table d (s.gen table) (row / tdRps d) none
    s.receives t tc n 0x12 k x ∧ s.updPending k = false ∧ s.emb.pieces = [] ∧ bits (k.word 6) 31 21 = 0 ∧ d ≠ 0 ∧ 0 < tdD d ∧ tdD d ≤ 256 ∧
    tdD d ≤ vals.length ∧ tdTrain d = true ∧ row < tdRows d ∧ y.2 = .here st frame ∧ stepCase y.1.stepNo k.step ≠ .ahead ∧ fnd ≠ .storeBad := by decide +kernel
theorem witness_embedding_packets_c3 :
    let t : Nat := 20; let tc : Nat := 20; let n : Nat := 12; let k : Packet := halfPkt; let s : State := embState
    let x : State := (received embState halfPkt); let d := s.tdesc (ekTable k); let vals := vals16 k.payload
    s.receives t tc n 0x12 k x ∧ s.updPending k = false ∧ s.emb.pieces = [] ∧ d ≠ 0 ∧ vals.length < tdD d := by decide +kernel
theorem witness_embedding_packets_c4 :
    let t : Nat := 20; let tc : Nat := 20; let n : Nat := 12; let k : Packet := donePkt; let s : State := rootState
    let x : State := (received rootState donePkt); let l : Look := look44
    s.receives t tc n 0x13 k x ∧ ekCode k = 2 ∧ s.lookOf k = some l := by decide +kernel
theorem witness_embedding_packets_c5 :
    let t : Nat := 20; let tc : Nat := 20; let n : Nat := 12; let k : Packet := replayPkt; let s : State := homeState
    let x : State := (received homeState replayPkt)
    s.receives t tc n 0x13 k x ∧ ekCode k = 3 := by decide +kernel
theorem witness_embedding_packets_c6 :
    let t : Nat := 20; let tc : Nat := 20; let n : Nat := 12; let k : Packet := combinedPkt; let s : State := updState
    let x : State := (received updState combinedPkt)
    s.receives t tc n 0x13 k x ∧ ekCode k = 4 := by decide +kernel
theorem witness_embedding_packets_c7 :
    let t : Nat := 20; let tc : Nat := 20; let n : Nat := 12; let k : Packet := faultPkt; let s : State := rootState
    let x : State := (received rootState faultPkt); let l : Look := look44
    s.receives t tc n 0x13 k x ∧ ekCode k = 5 ∧ s.emb.relays.find? (fun r => r.tag == ekTag k) = none ∧
    s.emb.looks.find? (fun l => l.tag == ekTag k) = some l := by decide +kernel
/-- The place of the block that moves here. -/
def hbmPlace : Nat × Nat := match movingState.region (movingState.frameDpa 3 557060 0) with | .hbm st l => (st, l) | _ => (0, 0)
theorem witness_embedding_packets_2 :
    let t : Nat := 20; let tc : Nat := 20; let n : Nat := 12; let st : Nat := 3; let frame : Nat := 557060; let hst : Nat := hbmPlace.1
    let hl : Nat := hbmPlace.2; let k : Packet := migPkt; let s : State := movingState; let x : State := (received movingState migPkt)
    let key := rowKey (ekTable k) (ekTag k); let a := s.frameDpa st frame (4096 * bits (k.word 6) 6 0)
    let old := s.emb.migs.find? (fun m => m.key == key && m.dstMod == k.src)
    s.receives t tc n 0x14 k x ∧ s.region a = .hbm hst hl ∧
    ((∃ m, old = some m ∧ m.srcSt = st ∧ m.srcFrame = frame) ∨ (old = none ∧ ∃ m, s.emb.migIns.find? (fun (m : MigIn) => m.key == key) = some m ∧ m.st = st ∧ m.frame = frame)) := by decide +kernel

/-! ### The rally tree, links and lanes -/

/-- DM.RALLY of tile 2 by rally entry 9, and the entry's words: role, own position, operation and time-out. -/
def opsRally : DmRally := { acc := 2, entry := 9, rsv := 0 }
def rallyEntryOf (role own : Nat) : Nat := 2 ^ 63 + role * 2 ^ 61 + 1 * 2 ^ 54 + own * 2 ^ 32 + 77 + 5 * 2 ^ 64
def rallyCore : Core :=
  { running with qDt := [.instr (.dmRally opsRally) 99 15], mxaDone := [{ closedOp with rally := none }], tiles := [(2, {})] }
def rallyStart : State := { onCore rallyCore with objVals := [(okey 0x2800 9, some (rallyEntryOf 1 0))] }
theorem witness_rally_tree :
    let t : Nat := 20; let p : Nat := 0; let w : Nat := 99; let f : DmRally := opsRally; let eng : MatEngine := .mxa
    let o : MatOp := { closedOp with rally := none }; let s : State := rallyStart; let c := s.coreAt t p; let ent := f.entry.toNat
    let d := s.rallyEntry ent; let mine (o : MatOp) : Bool := o.tile == f.acc.toNat && o.rally.isNone
    s.issues t p .dt (.dmRally f) w c.portFree.dt [] [] ∧ s.fullOut p < 4 ∧ f.rsv = 0 ∧ reValid d = true ∧ reRole d ≠ 3 ∧ reOwn d = s.posOf p ∧
    ((eng = .mxa ∧ c.mxaDone.find? mine = some o) ∨ (eng = .mvp ∧ c.mxaDone.find? mine = none ∧ c.mvpDone.find? mine = some o)) ∧
    (s.rally ent).armed = false := by decide +kernel
/-- Entry 9 is armed at core 0 for tile 2 of anchor 3, as node, root or leaf. -/
def armed9 : Rally := { armed := true, pos := 0, tile := 2, ref := 7, anchor := 3, armedAt := 1 }
def rallyArmed (role : Nat) : State :=
  { onCore { running with mxaDone := [{ closedOp with anchor := 3, rally := some 9, judged := true }], tiles := [(2, {})] } with
    objVals := [(okey 0x2700 1, some 0), (okey 0x2800 9, some (rallyEntryOf role 0))], links := { rally := [(9, armed9)] } }
def rallyPkt (op w6 : Nat) (payload : List Byte) : Packet := from5 { op := op, dst := 0, w1 := 77, w2 := rallyWord2 4 6 0 9, w6 := w6, payload := payload }
def partPkt9 : Packet := rallyPkt 0x20 (3 * 2 ^ 54 + 12 * 2 ^ 29 + 0) (leBytes 16 5)
def verdictPkt (code : Nat) : Packet := rallyPkt 0x21 (code * 2 ^ 62 + 4 * 2 ^ 52) []
theorem witness_rally_tree_2_c1 :
    let t : Nat := 20; let tc : Nat := 20; let n : Nat := 12; let k : Packet := partPkt9; let s : State := (rallyArmed 1)
    let x : State := (received (rallyArmed 1) partPkt9); let e := rkDent k; let d := s.rallyEntry e
    s.receives t tc n 0x20 k x ∧ reValid d = true ∧ (reRole d = 1 ∨ reRole d = 2) ∧ reOwn d = rkDpos k := by decide +kernel
theorem witness_rally_tree_2_c2 :
    let t : Nat := 20; let tc : Nat := 20; let n : Nat := 12; let k : Packet := (verdictPkt 0); let s : State := (rallyArmed 0)
    let x : State := (received (rallyArmed 0) (verdictPkt 0)); let e := rkDent k; let r := s.rally e; let d := s.rallyEntry e
    s.receives t tc n 0x21 k x ∧ r.armed = true ∧ reOwn d = rkDpos k ∧ bits (k.word 1) 31 0 = reOpid d := by decide +kernel
theorem witness_rally_tree_2_c2b :
    let t : Nat := 20; let tc : Nat := 20; let n : Nat := 12; let k : Packet := (verdictPkt 2); let s : State := (rallyArmed 0)
    let x : State := (received (rallyArmed 0) (verdictPkt 2)); let e := rkDent k; let r := s.rally e; let d := s.rallyEntry e
    s.receives t tc n 0x21 k x ∧ r.armed = true ∧ reOwn d = rkDpos k ∧ bits (k.word 1) 31 0 = reOpid d := by decide +kernel
theorem witness_rally_tree_2_c3 :
    let t : Nat := 6000; let e : Nat := 9; let s : State := (rallyArmed 1); let r := s.rally e; let d := s.rallyEntry e
    r.armed = true ∧ reRole d ≠ 0 ∧ r.sent = false ∧ r.armedAt + reTous d * 1000 ≤ max s.bclk t := by decide +kernel

/-- A port that carries packets on all eight positions, its ninth lane spare. -/
def upLane : Lane := { rx := .active, tx := .active }
def portUp : Port :=
  { st := .up, lanes := List.replicate 8 upLane ++ [{ rx := .spare, tx := .spare }], rxMap := List.range 8, txMap := List.range 8, rtt := 300 }
def onPort (p : Port) : State := { objVals := [(okey 0x2700 4, some 8), (okey 0x2700 5, some 100000)], links := { ports := [(4, p)] }, out := [.snoopHit 3] }
/-- A control word that acknowledges LSEQ 6 and returns no credit. -/
def ackWord : Nat := 6 * 2 ^ 64
def wordFields (w : Nat) : List (Option Nat) := (List.range 8).map (fun i => if i < 3 then some (bits w (20 * i + 19) (20 * i)) else if i < 7 then none else some (bits w 79 60))
def portHeld : Port :=
  { portUp with held := [⟨5, readPkt, 0⟩, ⟨6, writePkt, 0⟩, ⟨7, readPkt, 1⟩], progressAt := 100, resentAt := 200 }
theorem witness_links_and_retries :
    let n : Nat := 4; let w : Nat := ackWord; let fields : List (Option Nat) := (wordFields ackWord); let s : State := (onPort portHeld)
    let p := s.port n
    let copy := p.mirror.bind (fun m => if (p.lane m.spare).rx = .shadow then (fields.getD p.rxMap.length none).map (fun v => (m.pos, v)) else none)
    p.usable = true ∧ controlWord (fields.take p.rxMap.length) copy = some w ∧ bitAt w 63 = false := by decide +kernel
/-- A control word that asks for a retry. -/
def nakWord : Nat := ackWord + 2 ^ 63
theorem witness_links_and_retries_2_c1 :
    let n : Nat := 4; let w : Nat := nakWord; let fields : List (Option Nat) := (wordFields nakWord); let s : State := (onPort portHeld)
    let p := s.port n; let ack := bits w 79 64; let acked := p.held.any (fun h => h.lseq.toNat == ack)
    let left := if acked then (p.held.dropWhile (fun h => h.lseq.toNat != ack)).drop 1 else p.held
    p.usable = true ∧ p.mirror = none ∧ controlWord (fields.take p.rxMap.length) none = some w ∧ bitAt w 63 = true ∧ left ≠ [] := by decide +kernel
theorem witness_links_and_retries_2_c2 :
    let n : Nat := 4; let fields : List (Option Nat) := [none, some 1]; let s : State := (onPort portHeld); let p := s.port n
    p.usable = true ∧ p.mirror = none ∧ controlWord (fields.take p.rxMap.length) none = none := by decide +kernel
theorem witness_links_and_retries_2_c3 :
    let n : Nat := 4; let s : State := (onPort portHeld); let p := s.port n
    p.usable = true := by decide +kernel
theorem witness_links_and_retries_2_c4 :
    let t : Nat := 2200; let n : Nat := 4; let s : State := (onPort portHeld); let p := s.port n; let now := max s.bclk t
    p.usable = true ∧ p.held ≠ [] ∧ max p.progressAt p.resentAt + 2000 ≤ now := by decide +kernel
def notArmedReq : E2e := { dst := 5, eseq := 9, pkt := readPkt, owner := .unit 1 0x5000 true, sentAt := 0, lastAt := 0, notArmed := some 100 }
def unanswered : E2e := { notArmedReq with notArmed := none }
def reqState (r : E2e) : State :=
  { links := { reqs := [r] }, mem := { xfers := [xferX] }, objVals := [(okey 0x2700 2, some 1000), (okey 0x2700 3, some 4)] }
theorem witness_links_and_retries_3_c5 :
    let t : Nat := 2100; let dst : Nat := 5; let eseq : Nat := 9; let at' : Nat := 100; let r : E2e := notArmedReq
    let s : State := (reqState notArmedReq); let now := max s.bclk t
    s.reqOf dst eseq = some r ∧ r.notArmed = some at' ∧ at' + 2000 ≤ now := by decide +kernel
theorem witness_links_and_retries_3_c6 :
    let t : Nat := 2100; let dst : Nat := 5; let eseq : Nat := 9; let r : E2e := unanswered; let s : State := (reqState unanswered)
    let now := max s.bclk t
    s.reqOf dst eseq = some r ∧ r.notArmed = none ∧ r.lastAt + s.obj 0x2700 2 ≤ now := by decide +kernel

theorem witness_lane_repair :
    let n : Nat := 4; let csym : Nat := 70000; let ucw : Nat := 0; let lock : Bool := false; let s : State := (onPort portUp); let p := s.port n
    let reactive := lock || decide (s.obj 0x2700 7 ≤ ucw)
    p.usable = true ∧ (reactive = true ∨ s.obj 0x2700 6 < csym) := by decide +kernel
/-- Position 2 of the port is being mirrored onto lane 8. -/
def mirror2 : Mirror := ⟨2, 2, 8, 5⟩
def portMirror : Port := { portUp with lanes := List.replicate 8 upLane ++ [{ rx := .shadow, tx := .spare }], mirror := some mirror2 }
theorem witness_lane_repair_2_c1 :
    let n : Nat := 4; let m : Mirror := mirror2; let s : State := (onPort portMirror); let p := s.port n
    p.mirror = some m ∧ (p.lane m.spare).rx = .shadow := by decide +kernel
theorem witness_lane_repair_2_c2 :
    let n : Nat := 4; let sp : Nat := 8; let c : LinkCmd := ⟨1, 2, 5⟩; let s : State := (onPort { portUp with peerCmd := some ⟨1, 2, 5⟩ })
    let p := s.port n
    p.peerCmd = some c ∧ c.code = 1 ∧ p.spare false = some sp := by decide +kernel
theorem witness_lane_repair_2_c3 :
    let n : Nat := 4; let m : Mirror := mirror2; let c : LinkCmd := ⟨2, 2, 0⟩
    let s : State := (onPort { portMirror with sendCmd := some ⟨2, 2, 0⟩ }); let p := s.port n; let old := p.rxMap.getD m.pos 0
    p.mirror = some m ∧ p.sendCmd = some c ∧ c.code = 2 ∧ m.pos < p.rxMap.length ∧ m.spare < p.lanes.length ∧ old < p.lanes.length ∧
    old ≠ m.spare := by decide +kernel
theorem witness_lane_repair_2_c4 :
    let n : Nat := 4; let l : Nat := 8; let c : LinkCmd := ⟨2, 2, 0⟩; let s : State := (onPort { portUp with peerCmd := some ⟨2, 2, 0⟩ })
    let p := s.port n; let old := p.txMap.getD c.pos 0
    p.peerCmd = some c ∧ c.code = 2 ∧ (List.range 9).find? (fun l => (p.lane l).tx == .shadow || (p.lane l).tx == .spare) = some l ∧
    c.pos < p.txMap.length ∧ old < p.lanes.length ∧ l < p.lanes.length ∧ old ≠ l := by decide +kernel
theorem witness_lane_repair_2_c5 :
    let n : Nat := 4; let rx : Bool := true; let c : LinkCmd := ⟨3, 2, 0⟩; let s : State := (onPort { portUp with sendCmd := some ⟨3, 2, 0⟩ })
    let p := s.port n
    (if rx then p.sendCmd else p.peerCmd) = some c ∧ c.code = 3 ∧ c.pos < (p.map' rx).length ∧ p.usable = true := by decide +kernel
theorem witness_lane_repair_2_c6 :
    let n : Nat := 4; let rx : Bool := true; let c : LinkCmd := ⟨4, 2, 0⟩
    let s : State := (onPort { portUp with sendCmd := some ⟨4, 2, 0⟩, rxMap := [0, 1, 3, 4, 5, 6, 7] }); let p := s.port n
    (if rx then p.sendCmd else p.peerCmd) = some c ∧ c.code = 4 ∧ c.pos < 9 ∧ (p.map' rx).length < 8 ∧ p.usable = true ∧
    4 ≤ (p.join rx c.pos).live := by decide +kernel
/-- A port whose lanes all train, as the repair slot in which the block stands lets them. -/
def portTrain : Port := { st := .training, lanes := List.replicate 9 { rx := .train, tx := .train } }
theorem witness_lane_repair_3_c7 :
    let t : Nat := 20; let n : Nat := 4; let l : Nat := 3; let rx : Bool := true; let s : State := (onPort portTrain); let p := s.port n
    let repair := p.trains (p.lane l); let work := [laneTouch n l]; let s0 := s.atB t
    (p.lane l).dir rx = .train ∧ l < p.lanes.length ∧ (repair = true → s0.mayRepair .laneRetrain work = true) := by decide +kernel
theorem witness_lane_repair_3_c8 :
    let n : Nat := 4; let l : Nat := 3; let s : State := (onPort portUp); let p := s.port n; let x := p.lane l
    n < 12 ∧ l < 9 ∧ l < p.lanes.length ∧ (x.rx = .active ∨ x.rx = .spare ∨ x.rx = .shadow) := by decide +kernel
theorem witness_lane_repair_3_c9 :
    let n : Nat := 4; let l : Nat := 3; let s : State := (onPort portUp); let p := s.port n
    n < 12 ∧ l < 9 ∧ l < p.lanes.length := by decide +kernel

/-! ### The host attachment -/

/-- A running module whose host link is up. -/
def hostUp : State :=
  { start := { st := .running, trained := true, initAt := 5, mgcAt := 5 }, host := { linkUp := true, width := 16, speed := 640, decCommitted := true, snoop := [3], msix := [(1, {})] },
    out := [.snoopHit 9], cfe := { att := .attached } }
theorem witness_host_link_c0 :
    let t : Nat := 20; let s : State := hostUp; let c : Instr := (.cxlPerstAssert 20)
    c ∈ [Instr.cxlLinkDown t, .cxlHotReset t, .cxlPerstAssert t] ∧ s.host.linkUp = true := by decide +kernel
theorem witness_host_link_c1 :
    let t : Nat := 20; let s : State := {}; let c : Instr := (.functionLevelReset 20)
    c ∈ [Instr.cxlLinkDown t, .cxlHotReset t, .functionLevelReset t] ∧ s.host.linkUp = false := by decide +kernel
theorem witness_host_link_c2 :
    let s : State := {}
    s.host.linkUp = false := by decide +kernel
theorem witness_host_link_c4 :
    let s : State := hostUp
    s.host.linkUp = true := by decide +kernel
/-- A read of host memory of 16 bytes for transfer 1, and stores 6 and 8 of which the first serves a record. -/
def hostRead3 : HostRead := { id := 3, ref := 7, xfer := 1, src := 0x5000, addr := 0x90000, len := 16, sentAt := 10 }
def hostStore6 : HostStore := { id := 6, ref := 7, sentAt := 10 }
def hostAsk : State := { hostUp with host := { hostUp.host with reads := [hostRead3], stores := [hostStore6] }, mem := { xfers := [xferX] } }
theorem witness_host_link_2 :
    let t : Nat := 100000000000; let id : Nat := 3; let s : State := hostAsk
    let late (at' : Nat) : Bool := decide (at' + s.obj 0x2900 2 * 1000 ≤ max s.bclk t)
    (s.host.reads.any (fun r => r.id == id && late r.sentAt) || s.host.stores.any (fun h => h.id == id && late h.sentAt)) = true := by decide +kernel
/-- Mode 1 (two x8 links), the active link down since BCLK 10. -/
def standby : State := { start := { st := .running, bifur := 1, mgcAt := 5 }, host := { downAt := some 10 } }
theorem witness_host_link_3_c6 :
    let t : Nat := 100000010; let d : Nat := 10; let s : State := standby
    s.host.downAt = some d ∧ s.start.bifur = 1 ∧ s.host.linkUp = false ∧ s.host.perst = false ∧ d + 100000000 ≤ max s.bclk t := by decide +kernel
theorem witness_host_link_3_c7 :
    let t : Nat := 20; let width : Nat := 8; let speed : Nat := 320; let s : State := standby
    s.start.st = .running ∧ s.start.mgcAt ≤ max s.bclk t ∧ s.host.perst = false ∧ s.linkLegal width speed = true := by decide +kernel
theorem witness_host_link_3_c8 :
    let t : Nat := 20; let width : Nat := 3; let speed : Nat := 320; let s : State := standby
    s.start.st = .running ∧ s.start.mgcAt ≤ max s.bclk t ∧ s.host.perst = false ∧ s.linkLegal width speed = false := by decide +kernel
theorem witness_host_answers_c0 :
    let id : Nat := 3; let data : List Byte := (List.replicate 16 9); let r : HostRead := hostRead3; let s : State := hostAsk
    s.host.reads.find? (fun r => r.id == id) = some r ∧ data.length = r.len := by decide +kernel
theorem witness_host_answers_c1 :
    let id : Nat := 3; let r : HostRead := hostRead3; let s : State := hostAsk
    s.host.reads.find? (fun r => r.id == id) = some r := by decide +kernel
theorem witness_host_answers_c2 :
    let id : Nat := 6; let h : HostStore := hostStore6; let s : State := hostAsk
    s.host.stores.find? (fun h => h.id == id) = some h := by decide +kernel
theorem witness_host_answers_c3 :
    let s : State := hostUp
    s.host.linkUp = true := by decide +kernel
/-- Line 0x40 of the window is being taken back from the host. -/
def taken40 : State := { hostUp with host := { hostUp.host with bi := [⟨0x40, true, false⟩], snoop := [0x40, 5] }, mem := { dram := [(0x1001, 4), (0x1040, 6)] } }
theorem witness_host_answers_2_c4 :
    let line : Nat := 0x40; let data : Option (List Byte) := (some ((List.range 64).map (BitVec.ofNat 8)))
    let b : BackInv := ⟨0x40, true, false⟩; let s : State := taken40; let d := line * 64
    s.host.bi.find? (fun b => b.line == line && !b.answered) = some b ∧ (∀ bs ∈ data, bs.length = 64) ∧ s.isBad d = false ∧
    s.placeOf d 64 = some (.dram d) := by decide +kernel
theorem witness_host_answers_2_c5 :
    let line : Nat := 0x40; let poison : Bool := true; let b : BackInv := ⟨0x40, true, false⟩; let s : State := taken40; let d := line * 64
    s.host.bi.find? (fun b => b.line == line && !b.answered) = some b ∧ (poison = true ∨ s.isBad d = true) := by decide +kernel
/-- Mailbox slot 2 is bound to position 0, byte 0x1000, counter 4, where core 0 stands. -/
def mbxState : State :=
  { onCore { running with arr := [(4, 9)], spm := [(0x1040, 3)] } with
      host := hostUp.host, start := hostUp.start, stands := [(0, some 0)],
      objVals := [(okey 0x2901 2, some (2 ^ 63 + 4 * 2 ^ 42 + 0x1000 + 0x2000 * 2 ^ 64))] }
theorem witness_host_answers_3_c6 :
    let t : Nat := 20; let tc : Nat := 20; let n : Nat := 2; let c : Nat := 0; let data : List Byte := ((List.range 64).map (BitVec.ofNat 8))
    let s : State := mbxState; let b := s.mbx n; let a := bits b 24 0; let y := s.atBC t tc
    s.host.linkUp = true ∧ y.stopped = false ∧ s.mbxCore n = some c ∧ c < 144 ∧ data.length = 64 ∧ a + 64 ≤ spmSize := by decide +kernel
theorem witness_host_answers_3_c7 :
    let t : Nat := 20; let tc : Nat := 20; let n : Nat := 3; let off : Nat := 0; let data : List Byte := []; let s : State := mbxState
    let y := s.atBC t tc
    s.host.linkUp = true ∧ y.stopped = false ∧ (s.mbxCore n = none ∨ off ≠ 0 ∨ data.length ≠ 64) := by decide +kernel
theorem witness_host_answers_3_c8 :
    let s : State := mbxState
    s.host.linkUp = true := by decide +kernel
theorem witness_host_answers_3_c9 :
    let t : Nat := 20; let s : State := hostUp; let op : Nat := 0x0400; let c : Instr := (.getSupportedLogs 20)
    s.host.linkUp = true ∧
    (c, op) ∈ [(Instr.getSupportedLogs t, 0x0400), (.getLog t, 0x0401), (.getEventRecords t, 0x0100), (.clearEventRecords t, 0x0101)] := ⟨rfl, by simp⟩
/-- A window of stacks 0 and up, whose decoder is committed. -/
theorem witness_host_window :
    let off : Nat := 0x40; let e : Ecc := .ok; let s : State := hostUp; let d := s.hdmDpa off
    s.hdmServes off = true ∧ s.isBad d = false ∧ s.err.fatal = false ∧ (e = .ok ∨ e = .corrected) := by decide +kernel
/-- The block that holds the window's line 0x40 is bad. -/
def badWindow : State := let d := hostUp.hdmDpa 0x40
  { hostUp with mem := { hbms := [((match hostUp.region d with | .hbm st _ => st | _ => 0), { bad := [d / 4096 * 4096] })] } }
theorem witness_host_window_2_c1 :
    let off : Nat := 0x40; let s : State := badWindow; let d := s.hdmDpa off
    s.hdmServes off = true ∧ s.isBad d = true := by decide +kernel
theorem witness_host_window_2_c2 :
    let off : Nat := 0x40; let data : List Byte := ((List.range 64).map (BitVec.ofNat 8))
    let s : State := { hostUp with host := { hostUp.host with snoop := [3, hostUp.hdmDpa 0x40 / 64] } }; let d := s.hdmDpa off
    s.hdmServes off = true ∧ data.length = 64 ∧ s.err.fatal = false ∧ s.isBad d = false ∧ s.placeOf d 64 = some (.dram d) := by decide +kernel
theorem witness_host_window_2_c3 :
    let off : Nat := 0x40; let data : List Byte := ((List.range 64).map (BitVec.ofNat 8)); let poison : Bool := true; let s : State := hostUp
    let d := s.hdmDpa off
    s.hdmServes off = true ∧ data.length = 64 ∧ s.err.fatal = false ∧ (poison = true ∨ s.isBad d = true) := by decide +kernel
theorem witness_host_window_2_c4 :
    let t : Nat := 20; let s : State := hostUp
    s.host.linkUp = true ∧ s.runsAt t ∧ (s.host.decCommitted && s.host.decLock) = false := by decide +kernel
theorem witness_host_registers_c0 :
    let t : Nat := 20; let s : State := hostUp
    s.host.linkUp = true ∧ s.runsAt t := by decide +kernel
theorem witness_host_registers_c1 :
    let bar : Nat := 0; let off : Nat := 0x20002; let size : Nat := 4; let s : State := hostUp
    s.host.linkUp = true ∧ barIneffective bar off size = true := by decide +kernel
theorem witness_host_registers_c2 :
    let off : Nat := 0x40; let size : Nat := 8; let s : State := hostUp
    s.host.linkUp = true ∧ (size = 4 ∨ size = 8) ∧ off % size = 0 ∧ off < 4096 := by decide +kernel
theorem witness_host_registers_c3 :
    let t : Nat := 20; let off : Nat := 0x20008; let size : Nat := 8; let s : State := hostUp
    s.host.linkUp = true ∧ s.runsAt t ∧ (size = 4 ∨ size = 8) ∧ off % size = 0 ∧ (off < 0x28000 ∨ 0x30000 ≤ off) := by decide +kernel
theorem witness_host_registers_c4 :
    let t : Nat := 20; let vec : Nat := 9; let v : Nat := 0xFEE00000; let s : State := hostUp
    s.host.linkUp = true ∧ s.runsAt t ∧ vec < 2048 ∧ v < 2 ^ 64 ∧ (Table.get ({ } : MsixEntry) s.host.msix vec).addr < 2 ^ 64 := by decide +kernel
theorem witness_host_registers_c5 :
    let s : State := hostUp
    s.host.linkUp = true := by decide +kernel

/-! ### Errors, self-test and repair -/

/-- An error queue of 64 records from number 5 on. -/
theorem witness_error_queue_bounded :
    let e : Errors := { erqhead := 5, erqtail := 68 }
    (e.erqtail - e.erqhead).toNat ≤ 64 := by decide +kernel
/-- The cores named are in service. -/
def serving (l : List Nat) : State := { repair := { pst := l.map (fun c => (c, .inService)) }, start := { st := .running, complete := true, mgcAt := 5 } }
theorem witness_error_events_c0 :
    let t : Nat := 20; let d : Nat := 15; let s : State := { err := { signalDue := some 15 } }
    s.err.signalDue = some d ∧ d ≤ max s.bclk t := by decide +kernel
theorem witness_error_events_c1 :
    let t : Nat := 20; let n : Nat := 0; let cause : Nat := 0x03; let c : Instr := (.handlerWatchdog 20); let s : State := (serving [1, 2])
    s.err.fatal = false ∧
    (c, cause) ∈ [(Instr.handlerWatchdog t, 0x03), (.safeStateEntry t (some .mgcMemory), 0x01), (.safeStateEntry t (some .aggregator), 0x02), (.safeStateEntry t (some (.repairAction n)), 0x04), (.safeStateEntry t (some .ledger), 0x05), (.safeStateEntry t (some (.router n)), 0x06)] := by decide +kernel
theorem witness_error_events_c2 :
    let t : Nat := 20; let c : Instr := (.handlerWatchdog 20); let s : State := { err := { fatal := true } }
    s.err.fatal = true ∧ (c = .handlerWatchdog t ∨ ∃ k, c = .safeStateEntry t (some k)) := ⟨rfl, Or.inl rfl⟩
theorem witness_error_events_c3 :
    let t : Nat := 3000; let f : Nat := 50; let s : State := { onCore running with err := { fatal := true, fatalAt := some 50 } }
    s.err.fatalAt = some f ∧ s.err.frozen = false ∧ f + 2000 ≤ max s.bclk t := by decide +kernel
/-- Core 1 is due for a cross-check in the repair slot of cycle 1; the pair of a run that differed in slot 0 waits for its repeat. -/
def checking (l : List XcRun) : State :=
  inRepairSlot { serving [1, 20, 40] with fix := { cycle := 1 }, err := { xcDue := [1, 2, 3], xcPend := l }, objVals := [(okey 0x2A01 1, some 1)] }
theorem witness_error_events_2_c4 :
    let t : Nat := 20; let a : Nat := 1; let b : Nat := 20; let s : State := (checking []); let s0 := s.atB t
    s.runsAt t ∧ s0.xcMay a b = true := by decide +kernel
theorem witness_error_events_2_c5 :
    let t : Nat := 20; let a : Nat := 1; let b : Nat := 20; let s : State := (checking []); let s0 := s.atB t
    s.runsAt t ∧ s0.xcMay a b = true := by decide +kernel
theorem witness_error_events_2_c6 :
    let t : Nat := 20; let a : Nat := 1; let b : Nat := 20; let third : Nat := 40; let r : XcRun := ⟨1, 20, 7, 0⟩
    let s : State := (checking [⟨1, 20, 7, 0⟩]); let s0 := s.atB t
    s.runsAt t ∧ s0.xcThird a b third = some r := by decide +kernel
theorem witness_error_events_2_c7 :
    let t : Nat := 20; let dpa : Nat := 0x7000; let s : State := (inRepairSlot { err := { reread := [0x3000, 0x7000] } })
    s.runsAt t ∧ s.err.reread.contains dpa = true ∧ (s.atB t).inRsv = true := by decide +kernel
def copying2 : Bench := { core := 1, sub := some 2, copying := true }
theorem witness_self_test_events_c0 :
    let t : Nat := 20; let r : Nat := 2; let b : Bench := copying2
    let s : State := (inRepairSlot { serving [1] with repair := { bench := some copying2 } }); let s0 := s.atB t; let touch := [b.core, r]
    s.runsAt t ∧ s.repair.bench = some b ∧ b.sub = some r ∧ s0.copyBegun b = true ∧ b.copied = false ∧ s0.mayRepair .benchCopy touch = true := by decide +kernel
theorem witness_self_test_events_c1 :
    let c : Nat := 1; let s : State := (serving [1, 2])
    c < 144 ∧ (s.pstate c = .inService ∨ s.pstate c = .benching) := by decide +kernel
def testing5 : State := { serving [1, 2] with repair := { pst := [(5, .testing), (6, .inService)], pend := [4] } }
theorem witness_self_test_events_2_c2 :
    let c : Nat := 5; let s : State := testing5
    c < 144 ∧ s.pstate c = .testing ∧ s.start.complete = true := by decide +kernel
theorem witness_self_test_events_2_c3 :
    let t : Nat := 20; let c : Nat := 1; let s : State := (inRepairSlot { serving [1] with err := { xcBist := [1] } }); let s0 := s.atB t
    s.err.xcBist.contains c = true ∧ s.pstate c = .inService ∧ s0.mayRepair .crossCheck [c] = true := by decide +kernel
/-- Core 1 between the tests of its units. -/
def unitTests (done : Nat) : State :=
  inRepairSlot { serving [1] with objVals := [(okey 0x8000 1, some 1)], repair := { pst := [(1, .inService)], mbUnits := [(1, done)] } }
theorem witness_self_test_events_3 :
    let t : Nat := 20; let c : Nat := 1; let v : Nat := 7; let s : State := (unitTests (2 ^ 112 - 1 - 128)); let s0 := s.atB t
    s.runsAt t ∧ s.obj 0x8000 1 ≠ 0 ∧ c < 144 ∧ v < 112 ∧ s.pstate c = .inService ∧ (s.core c).tileTestable v = true ∧
    s0.mayRepair .unitTest (unitTouch c) = true := by decide +kernel
/-- One entry is being blown, or a security version. -/
def blowEntry : Blow := { svn := none, since := 10, n := 1 }
def blowSvn : Blow := { svn := some 3, since := 10, n := 3 }
theorem witness_self_test_events_4_c5 :
    let t : Nat := 640010; let k : Nat := 1; let e : Nat := 99; let b : Blow := blowEntry
    let s : State := { repair := { pend := [99], used := [0], blow := some blowEntry } }
    s.repair.blow = some b ∧ b.svn = none ∧ b.since + b.n * 640000 ≤ max s.bclk t ∧ s.repair.pend = [e] ∧ s.repair.slotFree = some k := by decide +kernel
theorem witness_self_test_events_4_c6 :
    let t : Nat := 1920010; let v : Nat := 3; let b : Blow := blowSvn; let s : State := { repair := { blow := some blowSvn } }
    s.repair.blow = some b ∧ b.svn = some v ∧ b.since + b.n * 640000 ≤ max s.bclk t := by decide +kernel

/-! ### The dictionary -/

/-- A running module with a host link and a repair interface, and the origins on them. -/
def ruled : State := { serving [0, 1, 2] with host := { linkUp := true }, marmas := { live := [⟨0, okey 0x2A01 1, [1], 9⟩], jnext := 3 }, fix := { cad := .locked, cycle := 6, lastEdge := some 10 } }
def oH : Origin := ⟨1, 0, 0, 5⟩
def oM : Origin := ⟨2, 8, 0, 5⟩
def oF : Origin := ⟨0, 0, 0, 5⟩
theorem witness_writes_wait :
    let t : Nat := 20; let a : Nat := 1; let b : Nat := 0; let key : Nat := (okey 0x4500 1); let n : Nat := 1; let o : Origin := oH
    let c : Instr := (.cadsrc 20 oH 1); let s : State := ruled; let v := writtenAs key n
    liveRow t o a b c key n ∧ s.writesTo t o key v ∧ (key = okey 0x4500 1 → s.fix.cad ≠ .free) := ⟨Or.inl ⟨rfl, rfl, rfl⟩, by decide +kernel, by decide +kernel⟩
def ruledLane : State := { ruled with links := { ports := [(2, { lanes := List.replicate 9 { rx := .failed } })] } }
theorem witness_writes_wait_2_c1 :
    let t : Nat := 20; let nonce : List Byte := (List.replicate 32 7); let o : Origin := oM; let s : State := ruled
    s.writesTo t o (okey 0x7000 4) nonce := by decide +kernel
theorem witness_writes_wait_2_c2 :
    let t : Nat := 20; let o : Origin := oH; let s : State := { ruled with fix := { cad := .free } }
    s.writesTo t o (okey 0x4500 1) (leBytes 1 1) ∧ s.fix.cad = .free := by decide +kernel
theorem witness_writes_wait_2_c3 :
    let t : Nat := 20; let v : Nat := 0xA5C3; let o : Origin := oM; let s : State := { ruled with err := { fatal := true } }
    let y := (s.atB t).take o
    s.err.fatal = true ∧ (s.atB t).route o = .opened ∧ y.judgeWrite o (okey 0x2000 0x10) (leBytes 4 v) = none := by decide +kernel
theorem witness_writes_wait_2_c4 :
    let t : Nat := 20; let a : Nat := 7; let b : Nat := 3; let m : Nat := 0; let st : Nat := 0; let key : Nat := (okey 0x5F04 2)
    let n : Nat := (7 + 3 * 2 ^ 16); let o : Origin := oM; let c : Instr := (.migrelease 20 oM 7 3); let s : State := ruled
    let v := writtenAs key n
    stagedRow t o a b m st c key n ∧ s.writesTo t o key v := ⟨Or.inr (Or.inl ⟨rfl, rfl, by decide⟩), by decide +kernel⟩
def descState : State := { ruled with objVals := [(okey 0x5007 1, some desc7), (okey 0x2700 1, some 0)] }
theorem witness_writes_act_c0 :
    let t : Nat := 20; let root : Nat := 0x10000; let o : Origin := oM; let s : State := { ruled with mem := { xl := { tlbs := [] } } }
    s.writesTo t o (okey 0x2500 1) (leBytes 8 root) := by decide +kernel
theorem witness_writes_act_c1 :
    let t : Nat := 20; let v : Nat := 77; let o : Origin := oM; let s : State := ruled
    s.writesTo t o (okey 0x2700 1) (leBytes 1 v) := by decide +kernel
theorem witness_writes_act_c2 :
    let t : Nat := 20; let v : Nat := 1; let f : FwState := .staging; let c : Instr := (.fwactionStage 20 oM); let o : Origin := oM
    let s : State := ruled
    (c, v, f) ∈ [(Instr.fwactionStage t o, 1, FwState.staging), (.fwactionActivate t o, 2, .armed), (.fwactionAbort t o, 4, .idle)] ∧
    s.writesTo t o (okey 0x7200 2) (leBytes 1 v) := by decide +kernel
def ruledStaged : State := { ruled with sec := { fw := .staged, fwErr := 3, bootState := 1 } }
theorem witness_writes_act_2 :
    let t : Nat := 20; let o : Origin := oM; let s : State := ruledStaged
    s.writesTo t o (okey 0x7200 2) (leBytes 1 3) := by decide +kernel
def ruledSpare : State := { ruled with repair := { pst := [(5, .spare), (6, .benched)], pend := [77, 78] } }
theorem witness_writes_act_3_c4 :
    let t : Nat := 20; let c : Nat := 5; let o : Origin := oM; let s : State := ruledSpare
    s.writesTo t o (okey 0x8000 3) (leBytes 1 c) ∧ c < 144 := by decide +kernel
theorem witness_writes_act_3_c5 :
    let t : Nat := 20; let v : Nat := 1; let o : Origin := oM; let s : State := ruledSpare
    s.writesTo t o (okey 0x8100 1) (leBytes 1 v) := by decide +kernel
theorem witness_writes_act_3_c6 :
    let t : Nat := 20; let c : Nat := 6; let o : Origin := oM; let s : State := { ruledSpare with cores := [(6, stCore)] }
    s.writesTo t o (okey 0x8200 1) (leBytes 1 c) ∧ c < 256 := by decide +kernel
theorem witness_writes_act_3_c7 :
    let t : Nat := 20; let o : Origin := oM; let s : State := ruled
    s.err.fatal = false ∧ (s.atB t).route o = .opened := by decide +kernel
def ruledStage : State := { ruled with marmas := { ruled.marmas with staging := [{ jseq := 2, key := okey 0x5F04 2, value := leBytes 8 7 }], commitState := 1 } }
theorem witness_writes_act_4_c8 :
    let t : Nat := 20; let c : Nat := 9; let o : Origin := oM; let s : State := ruledStage
    s.writesTo t o (okey 0x2000 1) (leBytes 4 c) := by decide +kernel
theorem witness_writes_act_4_c9 :
    let t : Nat := 20; let o : Origin := oM; let s : State := ruledStage
    s.writesTo t o (okey 0x2000 5) (leBytes 1 1) := by decide +kernel
def ruledErr : State := { ruled with err := { erqhead := 5, erqtail := 69, scorecards := [(3, none)] } }
theorem witness_writes_act_5 :
    let s : State := ruledErr
    s.host.linkUp = true ∧ s.err.fatal = false := by decide +kernel
def ruledOwn : State := { ruledErr with objVals := [(okey 0x2A00 1, some 1)] }
theorem witness_writes_act_6_c11 :
    let t : Nat := 20; let v : Nat := 9; let o : Origin := oM; let s : State := ruledOwn
    s.writesTo t o (okey 0x6A00 2) (leBytes 4 v) := by decide +kernel
theorem witness_writes_act_6_c12 :
    let k : Nat := 3; let s : State := ruledErr
    s.host.linkUp = true ∧ s.err.fatal = false ∧ s.err.frozen = false ∧ k < 496 := by decide +kernel
theorem witness_writes_act_6_c13 :
    let t : Nat := 20; let k : Nat := 3; let o : Origin := oM; let s : State := ruledErr
    s.writesTo t o (okey 0x6A02 1) (leBytes 2 k) ∧ s.err.frozen = false ∧ k < 496 := by decide +kernel

/-- Word 0 of a management request: operation, object, tag 5 (15_marmas_dictionary.md R435). -/
def header (op idx sub : Nat) : Nat := sub * 2 ^ 48 + idx * 2 ^ 32 + 5 * 2 ^ 16 + op * 2 ^ 8 + 1
def entry3 : JEntry := { jseq := 3, etime := 9, kind := 1, transport := 2, eid := 8, key := okey 0x2A01 1, keyid := 0, cyc := 6, prev := List.replicate 32 0, old := [0], new := [1] }
def journalState : State := { ruled with marmas := { ruled.marmas with journal := [{ entry3 with jseq := 2 }, entry3, { entry3 with jseq := 4 }] } }
/-- The object 0x2A01 sub 2. -/
def obj2A01 : ObjDef := (objDef (okey 0x2A01 2)).getD ⟨0, 0, "", .u8, .no, .no, .no, 0, .live, 0⟩
theorem witness_dictionary_requests_c0 :
    let t : Nat := 20; let w0 : Nat := (header 1 0x2A01 2); let w1 : Nat := 0; let w2 : Nat := 0; let o : Origin := oM
    let data : List Byte := []; let d : ObjDef := obj2A01; let s : State := ruled; let r : Req := ⟨o, w0, w1, w2, data⟩
    s.requested t 1 r ∧ objDef r.key = some d ∧ d.acc r.origin ≠ .no ∧ (r.off = 0 ∨ offsetBad d.ty r.off = false) := by decide +kernel
theorem witness_dictionary_requests_c1 :
    let t : Nat := 20; let w0 : Nat := (header 2 0x2A01 2); let w1 : Nat := (2 ^ 48); let w2 : Nat := 0; let o : Origin := oM
    let data : List Byte := [7]; let s : State := ruled; let r : Req := ⟨o, w0, w1, w2, data⟩
    s.requested t 2 r := by decide +kernel
theorem witness_dictionary_requests_c2 :
    let t : Nat := 20; let w0 : Nat := (header 3 0x2A01 2); let w1 : Nat := 0; let w2 : Nat := 0; let o : Origin := oM
    let data : List Byte := []; let d : ObjDef := obj2A01; let s : State := ruled; let r : Req := ⟨o, w0, w1, w2, data⟩
    s.requested t 3 r ∧ objDef r.key = some d := by decide +kernel
theorem witness_dictionary_requests_c3 :
    let t : Nat := 20; let w0 : Nat := (header 4 0x2A01 2); let w1 : Nat := 0; let w2 : Nat := 0; let o : Origin := oM
    let data : List Byte := []; let s : State := ruled; let r : Req := ⟨o, w0, w1, w2, data⟩
    s.requested t 4 r := by decide +kernel
theorem witness_dictionary_requests_c4 :
    let t : Nat := 20; let w0 : Nat := (header 5 0 0); let w1 : Nat := 0; let w2 : Nat := 3; let o : Origin := oM; let data : List Byte := []
    let e : JEntry := entry3; let rest : List JEntry := [{ entry3 with jseq := 4 }]; let s : State := journalState
    let r : Req := ⟨o, w0, w1, w2, data⟩
    s.requested t 5 r ∧ s.marmas.journal.dropWhile (fun e => e.jseq != w2) = e :: rest ∧ r.off < e.size := by decide +kernel
def signState : State := { ruled with sec := { rak := some [1], rakCert := true, rakPub := [2], drbgLeft := 5 }, otp := { sec := 2 ^ 440 } }
theorem witness_dictionary_requests_2_c5 :
    let j : Nat := 3; let digest : List Byte := [5]; let key : List Byte := [1]; let rest : List (Nat × List Byte) := [(4, [6])]
    let s : State := { signState with marmas := { unsigned := [(3, [5]), (4, [6])], jckCount := 7 } }; let m := s.marmas
    m.unsigned = (j, digest) :: rest ∧ s.sec.rak = some key ∧ s.err.fatal = false ∧ s.sec.rakCert = true := by decide +kernel
theorem witness_dictionary_requests_2_c6 :
    let t : Nat := 20; let e : Nat := 9; let o : Origin := oM; let s : State := ruled
    (s.atB t).mctpUp o = true ∧ 0 < e ∧ e < 255 := by decide +kernel
theorem witness_dictionary_requests_2_c7 :
    let t : Nat := 20; let code : Nat := 4; let o : Origin := oM; let c : Instr := (.getMctpVersionSupport 20 oM 0xFF)
    let vals : List Nat := [1, 3]; let s : State := ruled
    (s.atB t).mctpUp o = true ∧
    (c, code, vals) ∈ [(Instr.getEndpointId t o, 2, [s.eidOf o]), (.getEndpointUuid t o, 3, (s.value (okey 0x1000 0xD)).map (·.toNat)), (.getMctpVersionSupport t o 0, 4, [1, 3]), (.getMctpVersionSupport t o 0xFF, 4, [1, 3]), (.getMessageTypeSupport t o, 5, messageTypes), (.getVendorDefinedMessageSupport t o 0, 6, [0xFF, 0, leNat (s.value (okey 0x1000 2))])] := by decide +kernel
theorem witness_dictionary_requests_2_c8 :
    let t : Nat := 20; let dasa : Bool := true; let s : State := { start := { st := .recovery, i3cStatic := 8 } }
    (s.start.st = .recovery ∨ (s.start.st = .running ∧ s.start.mgcAt ≤ max s.bclk t)) ∧ (dasa = true → s.start.i3cStatic ≠ 0) := by decide +kernel

/-! ### Security -/

theorem witness_spdm_requests_c0 :
    let t : Nat := 20; let o : Origin := oM; let c : Instr := (.getCapabilities 20 oM); let name : SpdmRsp := .capabilities
    let vals : List Nat := [spdmCaps, 13, 4096, 65536]; let s : State := signState
    s.asked t o ∧
    (c, name, vals) ∈ [(Instr.getVersion t o, SpdmRsp.version, [0x12, 0x13]), (.getCapabilities t o, .capabilities, [spdmCaps, 13, 4096, 65536]), (.negotiateAlgorithms t o false, .algorithms, [256, 256, 0, 3, 0x0101, 384, 256, 0]), (.negotiateAlgorithms t o true, .algorithms, [256, 256, 0, 3, 0x0101, 384, 256, 1])] := by decide +kernel
theorem witness_spdm_requests_c1 :
    let t : Nat := 20; let o : Origin := oM; let s : State := signState
    s.asked t o ∧ (s.slotEmpty = true ∨ s.sec.rakCert = true) := by decide +kernel
theorem witness_spdm_requests_c2 :
    let t : Nat := 20; let o : Origin := oM; let s : State := signState
    s.asked t o ∧ s.slotEmpty = false ∧ s.sec.rakCert = true := by decide +kernel
theorem witness_spdm_requests_c3 :
    let t : Nat := 20; let i : Nat := 0xFF; let o : Origin := oM; let s : State := signState
    s.asked t o ∧ (i ≤ 9 ∨ i = 0xFF) := by decide +kernel
theorem witness_spdm_requests_c4 :
    let t : Nat := 20; let arg : Nat := 3; let code : Nat := 0xE0; let o : Origin := oM; let c : Instr := (.getMeasurements 20 oM 3 true)
    let s : State := signState
    s.asked t o ∧ s.slotEmpty = false ∧ s.sec.rakCert = true ∧ s.sec.rak ≠ none ∧ (s.sec.drbgLeft ≠ 0 ∨ s.sec.trngFailed = false) ∧
    ((c = .challenge t o 0 ∧ code = 0x83 ∧ arg = 0) ∨ (c = .getMeasurements t o arg true ∧ code = 0xE0 ∧ (arg ≤ 9 ∨ arg = 0xFF))) := by decide +kernel
theorem witness_spdm_requests_c5 :
    let t : Nat := 20; let o : Origin := oM; let s : State := signState
    s.asked t o ∧ s.slotEmpty = false ∧ s.sec.rakCert = true ∧ s.sec.rak ≠ none ∧ (2 ≤ s.sec.drbgLeft ∨ s.sec.trngFailed = false) ∧
    s.sec.sessions.length < 4 := by decide +kernel
def sig83 : SigWait := { transport := 2, eid := 8, session := 0, code := 0x83, arg := 0, body := [1, 2], askedAt := 10 }
def signing : State := { signState with sec := { signState.sec with sigs := [sig83] } }
theorem witness_spdm_requests_2 :
    let t : Nat := 20; let key : List Byte := [1]; let w : SigWait := sig83; let s : State := signing; let x := (s.atB t).deferSigs
    s.sec.rak = some key ∧ x.sec.sigs.find? (fun w => !w.ready) = some w := by decide +kernel
def late83 : SigWait := { sig83 with deferred := true }
theorem witness_spdm_requests_3 :
    let t : Nat := 20; let code : Nat := 0x83; let key : List Byte := [1]; let o : Origin := oM; let w : SigWait := late83
    let s : State := { signState with sec := { signState.sec with sigs := [late83] } }; let x := (s.atB t).deferSigs
    s.asked t o ∧ s.sec.rak = some key ∧
    x.sec.sigs.find? (fun w => w.deferred && w.code == code && w.transport == o.route && w.eid == o.eid && (w.session == o.session || (code == 0xE4 && o.session == 0))) = some w := by decide +kernel
/-- Session 1 of the requester on I3C, in its handshake, and session 2, established. -/
def sess1 : Session := { id := 1, transport := 2, eid := 8, lastBeat := 10 }
def sess2 : Session := { sess1 with id := 2, established := true }
def sessState : State := { signState with sec := { signState.sec with sessions := [sess1, sess2], nextSession := 3, chunks := [{ transport := 2, eid := 8, session := 2, got := 9, large := (List.range 5000).map (BitVec.ofNat 8) }] } }
theorem witness_spdm_sessions_c0 :
    let t : Nat := 20; let o : Origin := ⟨2, 8, 1, 5⟩; let x : Session := sess1; let s : State := sessState
    s.askedIn t o false x := by decide +kernel
theorem witness_spdm_sessions_c1 :
    let t : Nat := 20; let o : Origin := ⟨2, 8, 2, 5⟩; let x : Session := sess2; let c : Instr := (.heartbeat 20 ⟨2, 8, 2, 5⟩)
    let name : SpdmRsp := .heartbeatAck; let f : Session → Session := (fun z => { z with lastBeat := max sessState.bclk 20 })
    let s : State := sessState
    s.askedIn t o true x ∧
    ((c = .heartbeat t o ∧ name = .heartbeatAck ∧ f = fun z => { z with lastBeat := max s.bclk t }) ∨ (c = .keyUpdate t o ∧ name = .keyUpdateAck ∧ f = fun z => { z with keyGen := z.keyGen + 1 })) := ⟨by decide +kernel, Or.inl ⟨rfl, rfl, rfl⟩⟩
theorem witness_spdm_sessions_c2 :
    let t : Nat := 20; let o : Origin := ⟨2, 8, 2, 5⟩; let x : Session := sess2; let s : State := sessState
    s.askedIn t o true x := by decide +kernel
theorem witness_spdm_sessions_c3 :
    let t : Nat := 20; let o : Origin := ⟨2, 8, 1, 5⟩; let x : Session := sess1; let s : State := sessState
    s.askedIn t o false x := by decide +kernel
theorem witness_spdm_sessions_c4 :
    let t : Nat := 20; let size : Nat := 100; let o : Origin := ⟨2, 8, 2, 5⟩; let s : State := sessState; let y := (s.atB t).deferSigs
    s.asked t o ∧ (y.chunking o).got + size ≤ 65536 ∧ size ≤ 4096 := by decide +kernel
theorem witness_spdm_sessions_c5 :
    let t : Nat := 20; let seq : Nat := 1; let o : Origin := ⟨2, 8, 2, 5⟩; let s : State := sessState; let y := (s.atB t).deferSigs
    let start := if seq = 0 then 0 else 4080 + 4084 * (seq - 1)
    let part := ((y.chunking o).large.drop start).take (if seq = 0 then 4080 else 4084)
    s.asked t o ∧ part ≠ [] := by decide +kernel
theorem witness_spdm_sessions_c6 :
    let t : Nat := 60000000010; let id : Nat := 2; let x : Session := sess2; let s : State := sessState
    s.sec.sessions.find? (fun x => x.id == id) = some x ∧ x.established = true ∧ x.lastBeat + heartbeatTime ≤ max s.bclk t := by decide +kernel
theorem witness_spdm_sessions_c7 :
    let s : State := sessState
    s.sec.trngFailed = false ∧ s.start.st ≠ .held := by decide +kernel
theorem witness_firmware_events_c0 :
    let s : State := { ruled with sec := { fw := .staging } }
    s.sec.fw = .staging := by decide +kernel
theorem witness_firmware_events_c1 :
    let s : State := { ruled with sec := { fw := .staging } }
    s.sec.fw = .staging := by decide +kernel
theorem witness_firmware_events_c2 :
    let t : Nat := 20; let s : State := { signState with sec := { signState.sec with dik := some [3], rakCert := false } }
    s.start.st = .running ∧ s.start.mgcAt ≤ max s.bclk t ∧ s.sec.rak ≠ none := by decide +kernel

/-! ### Power, clocks and start-up -/

def avsOff : State := { ruled with objVals := [(okey 0x2B01 1, some 0)] }
theorem witness_power_events :
    let s : State := avsOff
    s.obj 0x2B01 1 = 0 := by decide +kernel
def avsOn : State := { ruled with objVals := [(okey 0x2B01 1, some 1)], power := { rails := [(0, { target := 700, hold := 10, fails := 2 })] } }
theorem witness_power_events_2_c1 :
    let t : Nat := 20; let m : Nat := 400; let s : State := avsOn; let r := s.rail 0
    s.obj 0x2B01 1 ≠ 0 ∧ r.stopped = false ∧ r.hold ≤ max s.bclk t ∧ 4 * s.obj 0x2B01 4 ≤ m := by decide +kernel
theorem witness_power_events_2_c2 :
    let v : Int := 500;
    -160 ≤ v ∧ v ≤ 1040 ∧ v < 85 * 8 := by decide +kernel
theorem witness_power_events_2_c4 :
    let low : Bool := true; let s : State := ruled
    s.power.braked ≠ low := by decide +kernel
theorem witness_power_events_2_c5 :
    let r : Nat := 2; let mv : Nat := 855; let s : State := ruled; let q := if r < 8 then (s.rail r).target else (railNominal r).1
    r < 26 ∧ (r < 8 → 15 < awayBy mv q) ∧ (8 ≤ r → (railNominal r).2 * q < 100 * awayBy mv q) ∧ s.err.fatal = false := by decide +kernel
theorem witness_power_events_2_c6 :
    let pll : Nat := 1; let s : State := signState
    pll ≤ 1 ∧ s.err.fatal = false := by decide +kernel
theorem witness_power_events_2_c8 :
    let pll : Nat := 3
    3 ≤ pll := by decide +kernel
/-- A root key, a signer's key, and a package of four empty components for a SECURED module. -/
def bootKey : List Byte := List.replicate 32 7
def bootSigner : List Byte := List.replicate 32 8
def bootManifest : List Byte :=
  leBytes 4 0x4D414E46 ++ [1, 3, 4, 0] ++ leBytes 56 0 ++ [1, 2, 3, 4].flatMap (fun k => leBytes 16 k ++ sha256 []) ++ leBytes 576 0 ++
  bootKey ++ bootSigner ++ List.replicate 7856 0xFF
def bootPackage : List Byte := bootManifest ++ List.replicate 7856 0xFF
def bootHeader : List Byte :=
  let h : List Byte := [0xFF, 3, 3, 0x1F] ++ leBytes 4 0x53434642 ++ leBytes 4 16608
  h ++ leBytes 4 (headerCrc (h ++ leBytes 4 0)).toNat
/-- What makes a blank module one that boots: fuses, flash, the two signatures. -/
def boardOf (p h : List Byte) : Board where
  made := some { sec := leNat (sha256 bootKey) * 2 ^ 1024 + 3 * 2 ^ 440 + 3 * 2 ^ 448, serial := [1, 2] }
  flash := [(4096, p), (0, h)]
  signatures := [(bootKey, strBytes "Scaorabel signer" ++ bootSigner, List.replicate 7856 0xFF),
    (bootSigner, strBytes "Scaorabel firmware" ++ bootManifest, List.replicate 7856 0xFF)]
/-- The module with it. -/
def bootOf (p h : List Byte) : State := ({} : State).given (boardOf p h)
theorem bootOf_header (p h : List Byte) (l : h.length = 16) : (bootOf p h).flashBytes 0 16 = h := by
  have e := State.flashBytes_flashPut (State.flashPut {} 4096 p) 0 h
  rw [l] at e
  exact e
theorem bootOf_read (p h : List Byte) (l : h.length = 16) (n : Nat) (k : n < 16) : Table.get 0xFF (bootOf p h).flash n = h.getD n 0 := by
  have e := State.flash_flashPut (State.flashPut {} 4096 p) 0 h n
  rw [l, if_pos (by omega)] at e
  exact e
theorem bootOf_part (p h : List Byte) (l : h.length = 16) (a n : Nat) (k : a + n ≤ 16) :
    (bootOf p h).flashBytes a n = (List.range n).map (fun i => h.getD (a + i) 0) := by
  apply List.map_congr_left
  intro i hi
  have := List.mem_range.mp hi
  exact bootOf_read p h l (a + i) (by omega)
theorem bootOf_package (p h : List Byte) (l : h.length = 16) (m : p.length ≤ 0xC00000)
    (e : leNat ((List.range 4).map (fun i => h.getD (8 + i) 0)) = p.length) : (bootOf p h).bankPackage 0 = p := by
  unfold State.bankPackage
  rw [show bankBase 0 + 8 = 8 from rfl, bootOf_part p h l 8 4 (by omega), e, Nat.min_eq_right m]
  exact (State.flashBytes_flashPut_ne _ h (a := 0) (by right; rw [l]; decide)).trans (State.flashBytes_flashPut _ 4096 p)

theorem bootOf_above (p h : List Byte) (l : h.length = 16) (m : p.length ≤ 0xC00000) (n : Nat) : Table.get 0xFF (bootOf p h).flash (0x1000000 + n) = 0xFF := by
  have e := State.flash_flashPut (State.flashPut {} 4096 p) 0 h (0x1000000 + n)
  rw [if_neg (by omega)] at e
  have e2 := State.flash_flashPut {} 4096 p (0x1000000 + n)
  rw [if_neg (by omega)] at e2
  exact e.trans e2
theorem bootHeader_length : bootHeader.length = 16 := by decide +kernel
theorem bootPackage_length : bootPackage.length = 16608 := by
  have e : bootManifest.length = 8752 := by decide +kernel
  rw [bootPackage, List.length_append, e, List.length_replicate]
theorem boot_manifest : (bootOf bootPackage bootHeader).manifestOk bootPackage = true := by decide +kernel
theorem boot_states : (bootOf bootPackage bootHeader).bankState 0 = 0x1F ∧ (bootOf bootPackage bootHeader).bankState 1 = 0xFF := by
  have l := bootHeader_length
  have m : bootPackage.length ≤ 0xC00000 := by rw [bootPackage_length]; decide
  refine ⟨?_, ?_⟩
  · have e := bootOf_read bootPackage bootHeader l 3 (by omega)
    rw [State.bankState, show bankBase 0 + 3 = 3 from rfl, e]; decide +kernel
  · have e := bootOf_above bootPackage bootHeader l m 3
    rw [State.bankState, show bankBase 1 + 3 = 0x1000000 + 3 from rfl, e]; decide +kernel
theorem boot_order : (bootOf bootPackage bootHeader).bankOrder = [0] := by
  have h := boot_states
  simp [State.bankOrder, h.1, h.2]
theorem boot_header : (bootOf bootPackage bootHeader).headerOk 0 = true := by
  have h := bootOf_header bootPackage bootHeader bootHeader_length
  unfold State.headerOk
  rw [show bankBase 0 = 0 from rfl, h]; decide +kernel
theorem boot_package : (bootOf bootPackage bootHeader).bankPackage 0 = bootPackage :=
  bootOf_package bootPackage bootHeader bootHeader_length (by rw [bootPackage_length]; decide) (by rw [bootPackage_length]; decide +kernel)
theorem boot_svn : (bootOf bootPackage bootHeader).svnOk bootPackage = true := by decide +kernel

/-- A package is judged by the fuses and the signatures alone. -/
theorem manifestOk_congr (s x : State) (p : List Byte) (h : s.otp = x.otp) (g : s.signatures = x.signatures) : s.manifestOk p = x.manifestOk p := by
  unfold State.manifestOk State.rootHash State.rootRevoked State.sigOk State.lifecycle State.otpBits State.otpBytes
  rw [h, g]
/-- A board's parts do not depend on the clock. -/
theorem given_atB (s : State) (b : Board) (t : Nat) : ((s.atB t).given b).otp = (s.given b).otp ∧ ((s.atB t).given b).signatures = (s.given b).signatures :=
  ⟨rfl, rfl⟩
/-- A package that an update accepts. -/
def stagingState : State :=
  { ruled with sec := { fw := .staging }, otp := (bootOf [] []).otp, signatures := (boardOf [] []).signatures }
theorem witness_staging : stagingState.sec.fw = .staging ∧ bootPackage.length ≤ 0xC00000 ∧ stagingState.manifestOk bootPackage = true ∧
    stagingState.svnOk bootPackage = true :=
  ⟨rfl, by rw [bootPackage_length]; decide, (manifestOk_congr stagingState (bootOf bootPackage bootHeader) bootPackage rfl rfl).trans boot_manifest, by decide +kernel⟩
/-- A debug token for core 9 and a lifecycle token to RMA, each with the signature that its key's holder made. -/
def tokenHead (kind arg core : Nat) : List Byte :=
  leBytes 4 0x4E4B4F54 ++ leBytes 1 kind ++ leBytes 1 arg ++ leBytes 1 0 ++ leBytes 1 core ++ padTo 32 [1, 2] ++ List.replicate 32 5 ++ bootKey ++ leBytes 24 0
def tokenState (kind arg core : Nat) : State :=
  { ruled with
    otp := { sec := leNat (sha256 bootKey) * 2 ^ 1024 + 3 * 2 ^ 440 + leNat (sha256 bootKey) * 2 ^ 512, serial := [1, 2] }
    sec := { tokNonce := List.replicate 32 5 }
    objVals := [(okey 0x8201 0, some (leNat (tokenHead kind arg core)))]
    signatures := [(bootKey, strBytes "Scaorabel token" ++ tokenHead kind arg core, List.replicate 7856 0)] }
theorem witness_tokens : [tokenState 1 1 9, tokenState 2 7 0].all (fun s =>
    let x := (s.atB 20).take oM
    decide (s.err.fatal = false) && decide ((s.atB 20).route oM = .opened) && decide (x.judgeWrite oM (okey 0x8202 1) (leBytes 1 1) = none)) = true := by
  decide +kernel

theorem witness_reset_and_start_up_c1 :
    let straps : List Nat := [5, 5, 4]; let s : State := {}
    s.start.st = .held ∧ agree3 (straps.take 3) = none := by decide +kernel
theorem witness_reset_and_start_up_c2 :
    let t : Nat := 20; let v : Nat := 5; let w : Board := {}; let s : State := {}; let x := (s.atB t).given w
    let test : Bool := bitAt v 1 && (x.lifecycle == 0 || x.lifecycle == 3)
    s.start.st = .held ∧ (test = true ∨ x.bankOrder = []) := by decide +kernel
theorem witness_reset_and_start_up_c3 :
    let t : Nat := 20; let v : Nat := 5; let b : Nat := 0; let rest : List Nat := []; let w : Board := (boardOf bootPackage bootHeader)
    let s : State := {}; let x := (s.atB t).given w
    s.start.st = .held ∧ (bitAt v 1 && (x.lifecycle == 0 || x.lifecycle == 3)) = false ∧ x.bankOrder = b :: rest ∧ x.headerOk b = true ∧
    x.manifestOk (x.bankPackage b) = true ∧ x.svnOk (x.bankPackage b) = true := by
    refine ⟨rfl, rfl, boot_order, boot_header, ?_, ?_⟩
    · rw [show ((({} : State).atB 20).given (boardOf bootPackage bootHeader)).bankPackage 0 = bootPackage from boot_package]
      exact (manifestOk_congr _ (bootOf bootPackage bootHeader) bootPackage (given_atB {} _ 20).1 (given_atB {} _ 20).2).trans boot_manifest
    · rw [show ((({} : State).atB 20).given (boardOf bootPackage bootHeader)).bankPackage 0 = bootPackage from boot_package]; exact boot_svn
theorem witness_reset_and_start_up_2_c4 :
    let s : State := { start := { st := .strapHold, samples := [5, 5, 4] } }
    s.start.st = .strapHold := by decide +kernel
theorem witness_reset_and_start_up_2_c5 :
    let t : Nat := 900020; let fl : Table Byte := [(3, 4)]
    let s : State := { start := { st := .running, flash0 := some [(3, 4)], since := 20 }, flash := [(3, 5)], sec := { rak := some [1] } }
    s.start.flash0 = some fl ∧ max s.bclk t ≤ s.start.since + 1000000 := by decide +kernel
theorem witness_reset_and_start_up_2_c6 :
    let t : Nat := 50000000; let s : State := { start := { st := .running, mgcAt := 40900020 } }
    s.start.st = .running ∧ s.start.trained = false ∧ s.start.mgcAt ≤ max s.bclk t := by decide +kernel
theorem witness_reset_and_start_up_2_c7 :
    let t : Nat := 90000000; let st : Nat := 3; let ch : Nat := 9; let s : State := { start := { st := .running, mgcAt := 40900020 } }
    let k := s.stack st
    s.start.st = .running ∧ s.start.trained = false ∧ s.start.mgcAt ≤ max s.bclk t ∧ st < 16 ∧ ch < 32 ∧ bitAt k.chmap ch = false ∧ k.m < 4 := by decide +kernel
theorem witness_reset_and_start_up_2_c8 :
    let s : State := { start := { st := .running, trained := true } }
    s.start.st = .running ∧ s.start.trained = true ∧ s.start.complete = false ∧ s.repair.fuses = [] := by decide +kernel

end Sys2Proof.Tests
end

section
/-!
PROOFS. The statements about number formats (02_numerics.md): what an integer element code is worth (R48), how elements lie in a row of
the scratchpad (R49), and how a product is truncated at its anchor (R58).
-/
namespace Sys2Proof.Machine

/-! ### A number read from memory, byte by byte (R9) -/

/-- Reading one byte more: the byte at the lowest address is the least significant. -/
theorem Memory.readNat_succ (m : Memory) (a n : Nat) : m.readNat a (n + 1) = (m.read a).toNat + 256 * m.readNat (a + 1) n := rfl

theorem Memory.readNat_lt (m : Memory) (a n : Nat) : m.readNat a n < 256 ^ n := by
  induction n generalizing a with
  | zero => exact Nat.one_pos
  | succ n ih =>
    have hbyte := (m.read a).isLt
    have hrest := ih (a + 1)
    rw [Memory.readNat_succ, Nat.pow_succ]
    omega

/-- Digit `j` in base 256 of the number read is the byte at offset `j`. -/
theorem Memory.readNat_digit (m : Memory) (a : Nat) {n j : Nat} (h : j < n) : m.readNat a n / 256 ^ j % 256 = (m.read (a + j)).toNat := by
  induction n generalizing a j with
  | zero => omega
  | succ n ih =>
    have hbyte := (m.read a).isLt
    rw [Memory.readNat_succ]
    cases j with
    | zero => rw [Nat.pow_zero, Nat.div_one, Nat.add_mul_mod_self_left, Nat.mod_eq_of_lt hbyte, Nat.add_zero]
    | succ j =>
      have hdrop : ((m.read a).toNat + 256 * m.readNat (a + 1) n) / 256 = m.readNat (a + 1) n := by omega
      rw [Nat.pow_succ', ← Nat.div_div_eq_div_mul, hdrop, ih (a + 1) (by omega), Nat.add_right_comm, Nat.add_assoc]

/-- Byte `j` of a number, as bits and as a digit in base 256. -/
theorem bits_byte (v j : Nat) : bits v (8 * j + 7) (8 * j) = v / 256 ^ j % 256 := by
  have hplace : 2 ^ (8 * j) = 256 ^ j := Nat.pow_mul 2 8 j
  have hbits : 8 * j + 7 + 1 - 8 * j = 8 := by omega
  have hwidth : 2 ^ (8 * j + 7 + 1 - 8 * j) = 256 := congrArg (2 ^ ·) hbits
  rw [bits, hplace, hwidth]

/-- The low half of a byte. -/
theorem bits_nibble_low (v : Nat) : bits v 3 0 = v % 16 := by
  unfold bits
  omega

/-- The high half of a byte. -/
theorem bits_nibble_high {v : Nat} (h : v < 256) : bits v 7 4 = v / 16 := by
  unfold bits
  omega

/-! ### Integer element codes (R48) -/

/-- The model's two's complement value of a word is the word's signed value. -/
theorem signedOf_toNat {w : Nat} (b : BitVec w) : signedOf w b.toNat = b.toInt := by
  have hsign : b.toNat < 2 ^ (w - 1) ↔ 2 * b.toNat < 2 ^ w := by
    have hlt := b.isLt
    cases w with
    | zero => omega
    | succ w => rw [Nat.add_sub_cancel, Nat.pow_succ]; omega
  have hmod : ((2 ^ w : Nat) : Int) = 2 ^ w := Int.natCast_pow 2 w
  simp only [signedOf, Nat.mod_eq_of_lt b.isLt, hsign, BitVec.toInt_eq_toNat_cond, hmod]

/-- A code of a format that is not a floating-point one is worth its signed value. -/
theorem elemValue_of_int {f : Nat} (h : fpFmtOf f = none) (b : BitVec (fmtWidth f)) : elemValue f b.toNat = some ⟨b.toInt, 0⟩ := by
  simp only [elemValue, h, signedOf_toNat]

/-! ### Elements in a row (R49) -/

/-- A four-bit element is half of the byte it shares. -/
theorem Core.elem_four (c : Core) {f : Nat} (a i : Nat) (h : fmtWidth f = 4) :
    c.elem f a i = if i % 2 = 0 then (c.spm.read (a + i / 2)).toNat % 16 else (c.spm.read (a + i / 2)).toNat / 16 := if_pos h

theorem Core.elem_four_even (c : Core) {f : Nat} (a i : Nat) (h : fmtWidth f = 4) :
    c.elem f a (2 * i) = bits (c.spm.read (a + i)).toNat 3 0 := by
  have heven : 2 * i % 2 = 0 := by omega
  have hhalf : 2 * i / 2 = i := by omega
  rw [c.elem_four a _ h, if_pos heven, hhalf, bits_nibble_low]

theorem Core.elem_four_odd (c : Core) {f : Nat} (a i : Nat) (h : fmtWidth f = 4) :
    c.elem f a (2 * i + 1) = bits (c.spm.read (a + i)).toNat 7 4 := by
  have hodd : ¬ (2 * i + 1) % 2 = 0 := by omega
  have hhalf : (2 * i + 1) / 2 = i := by omega
  rw [c.elem_four a _ h, if_neg hodd, hhalf, bits_nibble_high (c.spm.read (a + i)).isLt]

/-- An element of whole bytes is the number read at its own place. -/
theorem Core.elem_bytes (c : Core) {f n : Nat} (a i : Nat) (h : fmtWidth f = 8 * n) : c.elem f a i = c.spm.readNat (a + i * n) n := by
  have hne : 8 * n ≠ 4 := by omega
  rw [Core.elem, h, if_neg hne, Nat.mul_div_cancel_left n (by decide)]

/-- Settles O17: each clause is the lemma above about one format or one way of packing. -/
theorem elementFormats : Obligations.ElementFormats := by
  unfold Obligations.ElementFormats
  refine ⟨fun b => ⟨elemValue_of_int (f := 0) rfl b, b.le_toInt, Int.le_sub_one_of_lt b.toInt_lt⟩,
    fun b => ⟨elemValue_of_int (f := 1) rfl b, b.le_toInt, Int.le_sub_one_of_lt b.toInt_lt⟩,
    fun b => ⟨elemValue_of_int (f := 7) rfl b, b.le_toInt, Int.le_sub_one_of_lt b.toInt_lt⟩,
    fun c f a i h => ⟨c.elem_four_even a i h, c.elem_four_odd a i h⟩, fun c f a i n h _ => ⟨?below, fun j hj => ?byte⟩⟩
  case below =>
    rw [c.elem_bytes a i h, Nat.pow_mul]
    exact c.spm.readNat_lt _ n
  case byte => rw [c.elem_bytes a i h, bits_byte, c.spm.readNat_digit _ hj]

/-! ### Truncation at the anchor (R58) -/

/-- A product that is a multiple of the anchor's unit enters whole. -/
theorem Dy.trunc_of_le {p : Dy} {a : Int} (h : a ≤ p.e) : p.trunc a = (p.m * 2 ^ (p.e - a).toNat, false) := if_pos h

/-- A sign put on by multiplying. -/
theorem ite_neg_one_mul (neg : Prop) [Decidable neg] (x : Int) : (if neg then -1 else 1) * x = if neg then -x else x := by
  split <;> omega

/-- Below the anchor the magnitude is divided with its remainder dropped, and the sign is put back. -/
theorem Dy.trunc_of_lt {p : Dy} {a : Int} (h : p.e < a) :
    p.trunc a = ((if p.m < 0 then -1 else 1) * ((p.m.natAbs / 2 ^ (a - p.e).toNat : Nat) : Int), decide (p.m.natAbs % 2 ^ (a - p.e).toNat ≠ 0)) := by
  rw [ite_neg_one_mul]
  exact if_neg (Int.not_le.mpr h)

/-- Settles O18: the exponent lies at or above the anchor, or below it. -/
theorem productTruncation : Obligations.ProductTruncation := by
  unfold Obligations.ProductTruncation
  intro m e a p
  constructor
  · intro h
    rw [Dy.trunc_of_le (p := p) h]
    exact ⟨rfl, rfl⟩
  · intro h
    rw [Dy.trunc_of_lt (p := p) h]
    exact ⟨rfl, decide_eq_true_iff⟩

end Sys2Proof.Machine
end

section
/-!
PROOFS. The statement about the INT32 lanes of the vector engine (04_vector_engine.md): arithmetic saturates, and a shift counts by the low
8 bits of its second operand (R118).
-/
namespace Sys2Proof.Machine

/-! ### Saturation (R118) -/

/-- A saturated integer that is in range stands for itself. -/
theorem intSat_of_inRange {e : Int} (hlo : -(2 ^ 31) ≤ e) (hhi : e < 2 ^ 31) : (intSat e).1.toInt = e ∧ (intSat e).2 = {} := by
  have hsat : intSat e = (BitVec.ofInt 32 e, {}) := by
    rw [intSat, sat32, if_neg (by omega), if_neg (by omega)]
  rw [hsat]
  exact ⟨BitVec.toInt_ofInt_eq_self (by decide) hlo hhi, rfl⟩

theorem intSat_of_above {e : Int} (h : 2 ^ 31 ≤ e) : (intSat e).1.toInt = 2 ^ 31 - 1 ∧ (intSat e).2 = { sat := true } := by
  have hsat : intSat e = (BitVec.ofInt 32 (2 ^ 31 - 1), { sat := true }) := by
    rw [intSat, sat32, if_neg (by omega), if_pos (by omega)]
  rw [hsat]
  exact ⟨by decide, rfl⟩

theorem intSat_of_below {e : Int} (h : e < -(2 ^ 31)) : (intSat e).1.toInt = -(2 ^ 31) ∧ (intSat e).2 = { sat := true } := by
  have hsat : intSat e = (BitVec.ofInt 32 (-(2 ^ 31)), { sat := true }) := if_pos h
  rw [hsat]
  exact ⟨by decide, rfl⟩

/-- The exact integer result of an arithmetic function of INT32 lanes. -/
def intExact (fn : VxFn) (a b : W32) : Int :=
  match fn with
  | .add => a.toInt + b.toInt | .sub => a.toInt - b.toInt | .mul => a.toInt * b.toInt | .abs => a.toInt.natAbs | _ => -a.toInt

/-- The five arithmetic functions saturate their exact results, whatever the operands they do not read. -/
theorem vxLane_int (imm : W32) (tag : Nat) (a b x : W32) {fn : VxFn} (h : fn ∈ [VxFn.add, VxFn.sub, VxFn.mul, VxFn.abs, VxFn.neg]) :
    vxLane fn true imm tag a b x = intSat (intExact fn a b) := by
  simp only [List.mem_cons, List.not_mem_nil, or_false] at h
  obtain rfl | rfl | rfl | rfl | rfl := h <;> rfl

/-! ### Shifts (R118) -/

theorem intShl_of_lt {a b : W32} (h : b.toNat % 256 < 32) : (intShl a b).1.toNat = a.toNat * 2 ^ (b.toNat % 256) % 2 ^ 32 := by
  simp only [intShl, if_neg (Nat.not_le.mpr h), BitVec.toNat_shiftLeft, Nat.shiftLeft_eq]

theorem intShrl_of_lt {a b : W32} (h : b.toNat % 256 < 32) : (intShrl a b).1.toNat = a.toNat / 2 ^ (b.toNat % 256) := by
  simp only [intShrl, if_neg (Nat.not_le.mpr h), BitVec.toNat_ushiftRight, Nat.shiftRight_eq_div_pow]

/-- An arithmetic right shift divides, rounding down; a count above 31 acts as 31. -/
theorem intShra_toInt (a b : W32) : (intShra a b).1.toInt = a.toInt / 2 ^ min (b.toNat % 256) 31 := by
  simp only [intShra, BitVec.toInt_sshiftRight, Int.shiftRight_eq_div_pow, Int.natCast_pow, Int.cast_ofNat_Int]

theorem intShra_of_lt {a b : W32} (h : b.toNat % 256 < 32) : (intShra a b).1.toInt = a.toInt / 2 ^ (b.toNat % 256) := by
  rw [intShra_toInt, Nat.min_eq_left (by omega)]

theorem intShl_of_ge {a b : W32} (h : 32 ≤ b.toNat % 256) : (intShl a b).1 = 0 := if_pos h

theorem intShrl_of_ge {a b : W32} (h : 32 ≤ b.toNat % 256) : (intShrl a b).1 = 0 := if_pos h

/-- A word divided by 2 ^ 31, rounding down, is its sign fill. -/
theorem intShra_of_ge {a b : W32} (h : 32 ≤ b.toNat % 256) : (intShra a b).1.toInt = if a.toInt < 0 then -1 else 0 := by
  have hlo := a.le_toInt
  have hhi := a.toInt_lt
  rw [intShra_toInt, Nat.min_eq_right (by omega)]
  split <;> omega

/-- Settles O11: the five functions saturate their exact results, which lie within the range, above it or below it; a shift's count lies below
32 or not. -/
theorem intArithmeticSaturates : Obligations.IntArithmeticSaturates := by
  unfold Obligations.IntArithmeticSaturates
  constructor
  case left =>
    intro a b imm x tag fn hfn e r
    have hr : r = intSat e := vxLane_int imm tag a b x hfn
    rw [hr]
    exact ⟨intSat_of_inRange, intSat_of_above, intSat_of_below⟩
  case right =>
    intro a b imm x tag n l u v
    exact ⟨rfl, rfl, rfl, fun hn => ⟨intShl_of_lt hn, intShrl_of_lt hn, intShra_of_lt hn⟩,
      fun hn => ⟨intShl_of_ge hn, intShrl_of_ge hn, intShra_of_ge hn⟩⟩

end Sys2Proof.Machine
end

section
/-!
PROOFS. The statement about doorbells (11_command_front_end.md): a submission doorbell moves DBTAIL or is ignored (R300), a completion doorbell
moves CHEAD or is ignored (R316), and a deferred completion signal is sent when its gap ends (R317).
-/
namespace Sys2Proof.Machine

/-! ### Queues and rings after a change to one of them -/

@[simp] theorem Cfe.queue_modQueue_same (f : Cfe) (q : Nat) (g : Queue → Queue) : (f.modQueue q g).queue q = g (f.queue q) :=
  Table.get_modify_same g

theorem Cfe.queue_modQueue_ne (f : Cfe) {q k : Nat} (g : Queue → Queue) (h : k ≠ q) : (f.modQueue q g).queue k = f.queue k :=
  Table.get_modify_ne g h

@[simp] theorem Cfe.ring_modRing_same (f : Cfe) (r : Nat) (g : Ring → Ring) : (f.modRing r g).ring r = g (f.ring r) :=
  Table.get_modify_same g

theorem Cfe.ring_modRing_ne (f : Cfe) {r k : Nat} (g : Ring → Ring) (h : k ≠ r) : (f.modRing r g).ring k = f.ring k :=
  Table.get_modify_ne g h

/-! ### Signals and error records change the error block, the host side and what is sent out -/

/-- Nothing but the error block, the host side and what is sent out differs between two states. -/
def State.ReportsTo (s u : State) : Prop := u = { s with err := u.err, host := u.host, out := u.out }

theorem State.ReportsTo.refl (s : State) : s.ReportsTo s := rfl

theorem State.ReportsTo.trans {s u v : State} (hsu : s.ReportsTo u) (huv : u.ReportsTo v) : s.ReportsTo v := by
  unfold State.ReportsTo at *
  rw [hsu] at huv
  exact huv

theorem State.ReportsTo.cfe_eq {s u : State} (h : s.ReportsTo u) : u.cfe = s.cfe :=
  (congrArg State.cfe h :)

/-- A state whose error block is replaced. -/
theorem State.reportsTo_err (s : State) (e : Errors) : s.ReportsTo { s with err := e } := rfl

theorem State.msix_of_open {s : State} {vec : Nat} (h : s.msixOpen vec = true) : s.msix vec = s.emit (.msix vec) := if_pos h

theorem State.msix_of_closed {s : State} {vec : Nat} (h : s.msixOpen vec = false) :
    s.msix vec = { s with host := { s.host with pba := Nat.lor s.host.pba (2 ^ vec) } } := if_neg (ne_true_of_eq_false h)

theorem State.reportsTo_msix (s : State) (vec : Nat) : s.ReportsTo (s.msix vec) := by
  unfold State.msix
  split <;> rfl

theorem State.reportsTo_signalErr (s : State) : s.ReportsTo s.signalErr := by
  have hsent := (s.reportsTo_msix (s.obj 0x2A00 2)).trans (State.reportsTo_err _ { s.err with lastSignal := some s.bclk })
  unfold State.signalErr
  split
  · split
    · rfl
    · exact hsent
  · exact hsent

theorem State.reportsTo_sendEvent (s : State) (r : ErrRec) : s.ReportsTo (s.sendEvent r) := by
  unfold State.sendEvent
  dsimp only
  split <;> rfl

theorem State.reportsTo_postNew (s : State) (a : ErrArgs) : s.ReportsTo (s.postNew a) := by
  unfold State.postNew
  split
  · rfl
  · exact ((s.reportsTo_err _).trans (State.reportsTo_signalErr _)).trans (State.reportsTo_sendEvent _ _)

theorem State.reportsTo_postErr (s : State) (a : ErrArgs) : s.ReportsTo (s.postErr a) := by
  unfold State.postErr
  split
  · rfl
  split
  · exact s.reportsTo_postNew a
  split
  · extract_lets k u n quiet
    split
    · rfl
    · exact (s.reportsTo_err _).trans (State.reportsTo_postNew _ _)
  · dsimp only
    split
    · rfl
    · exact s.reportsTo_postNew a

@[simp] theorem State.postErr_cfe (s : State) (a : ErrArgs) : (s.postErr a).cfe = s.cfe := (s.reportsTo_postErr a).cfe_eq

/-! ### A record does not depend on the CFE -/

theorem State.modCfe_obj (s : State) (g : Cfe → Cfe) (idx sub : Nat) : (s.modCfe g).obj idx sub = s.obj idx sub := rfl
theorem State.modCfe_cyc (s : State) (g : Cfe → Cfe) : (s.modCfe g).cyc = s.cyc := rfl

theorem State.signalErr_err_modCfe (s : State) (g : Cfe → Cfe) : (s.modCfe g).signalErr.err = s.signalErr.err := by
  unfold State.signalErr
  rw [State.modCfe_err]
  cases s.err.lastSignal with
  | none => rfl
  | some l =>
    dsimp only
    rw [apply_ite State.err, apply_ite State.err]
    rfl

theorem State.sendEvent_err (s : State) (r : ErrRec) : (s.sendEvent r).err = s.err := by
  unfold State.sendEvent
  dsimp only
  split <;> rfl

theorem State.postNew_err_modCfe (s : State) (g : Cfe → Cfe) (a : ErrArgs) : ((s.modCfe g).postNew a).err = (s.postNew a).err := by
  unfold State.postNew
  rw [State.modCfe_err, apply_ite State.err, apply_ite State.err]
  extract_lets
  rw [State.sendEvent_err, State.sendEvent_err]
  congr 1
  exact State.signalErr_err_modCfe { s with err := _ } g

theorem State.postErr_err_modCfe (s : State) (g : Cfe → Cfe) (a : ErrArgs) : ((s.modCfe g).postErr a).err = (s.postErr a).err := by
  unfold State.postErr
  rw [State.modCfe_err, State.modCfe_fix, State.modCfe_obj, State.modCfe_cyc]
  split
  · rfl
  split
  · exact s.postNew_err_modCfe g a
  split
  · extract_lets k u n quiet
    split
    · rfl
    · exact State.postNew_err_modCfe { s with err := _ } g _
  · extract_lets probe
    split
    · rfl
    · exact s.postNew_err_modCfe g a

/-! ### The submission doorbell (R300) -/

/-- A submission doorbell that R300 accepts. -/
def State.TakesTail (s : State) (q tail : Nat) : Prop :=
  q < 256 ∧ (s.cfe.att = .attached ∨ (q = 0 ∧ s.cfe.att = .attaching)) ∧ ((s.cfe.queue q).st = .opened ∨ (s.cfe.queue q).st = .halted) ∧
    serialLt tail (s.cfe.queue q).dbtail.toNat 32 = false ∧
    (BitVec.ofNat 32 tail - (s.cfe.queue q).fhead).toNat ≤ ringSize (s.cfe.queue q).szlogm4

/-- What an accepted doorbell leaves of its queue. -/
def Queue.takeTail (tail : Nat) (x : Queue) : Queue :=
  { x with dbtail := BitVec.ofNat 32 tail, dbflag := true, fetch := if x.fetch = .idle then .pass else x.fetch }

/-- What an ignored doorbell leaves of its queue. -/
def Queue.countIgnored (x : Queue) : Queue := { x with dbign := satInc x.dbign 16 }

/-- The record of an ignored submission doorbell. -/
def ignoredTail (q tail : Nat) : ErrArgs :=
  { cls := .host, sev := .info, cause := 0x03, ukind := .queue, unit := q % 256, info6 := tail % 2 ^ 32, info7 := 4 * (q % 256) }

theorem exec_sqDoorbell_of_takesTail {t q tail : Nat} {s : State} (hruns : s.runsAt t) (h : s.TakesTail q tail) :
    exec (.sqDoorbell t q tail) s = .next ((s.atB t).modCfe (fun f => f.modQueue q (Queue.takeTail tail))) := by
  obtain ⟨hq, hatt, hst, hserial, hroom⟩ := h
  change execSqDoorbell t q tail s = _
  exact (if_neg (ne_true_of_eq_false hruns)).trans (if_pos ⟨hq, hatt, hst, ne_true_of_eq_false hserial, hroom⟩)

theorem exec_sqDoorbell_of_not_takesTail {t q tail : Nat} {s : State} (hruns : s.runsAt t) (h : ¬ s.TakesTail q tail) :
    exec (.sqDoorbell t q tail) s =
      .next (((s.atB t).modCfe (fun f => f.modQueue (q % 256) Queue.countIgnored)).postErr (ignoredTail q tail)) := by
  change execSqDoorbell t q tail s = _
  refine (if_neg (ne_true_of_eq_false hruns)).trans (if_neg ?_)
  rintro ⟨hq, hatt, hst, hserial, hroom⟩
  exact h ⟨hq, hatt, hst, eq_false_of_ne_true hserial, hroom⟩

/-! ### The completion doorbell (R316, R327) -/

/-- A completion doorbell that R316 and R327 accept. -/
def State.TakesHead (s : State) (r head : Nat) : Prop :=
  r < 256 ∧ (s.cfe.att = .attached ∨ (r = 0 ∧ s.cfe.att = .attaching)) ∧
    serialLt head (s.cfe.ring r).chead.toNat 32 = false ∧ serialLt (s.cfe.ring r).ctail.toNat head 32 = false

/-- What an accepted doorbell leaves of its ring. -/
def Ring.takeHead (head : Nat) (x : Ring) : Ring := { x with chead := BitVec.ofNat 32 head }

/-- The record of an ignored completion doorbell. -/
def ignoredHead (r head : Nat) : ErrArgs :=
  { cls := .host, sev := .info, cause := 0x04, ukind := .ring, unit := r % 256, info6 := head % 2 ^ 32, info7 := 0x400 + 4 * (r % 256) }

/-- A ring with nothing parked finds nothing to move. -/
theorem Cfe.find?_parked_of_parkedOf_eq_zero {f : Cfe} {r : Nat} (h : f.parkedOf r = 0) : f.parked.find? (fun p => p.ring == r) = none :=
  List.find?_eq_none.mpr (List.filter_eq_nil_iff.mp (List.length_eq_zero_iff.mp h))

theorem State.unpark_of_parkedOf_eq_zero {s : State} {r : Nat} (n : Nat) (h : s.cfe.parkedOf r = 0) : s.unpark r n = s := by
  cases n with
  | zero => rfl
  | succ n => rw [State.unpark, Cfe.find?_parked_of_parkedOf_eq_zero h]

theorem exec_crDoorbell_of_takesHead {t r head : Nat} {s : State} (hruns : s.runsAt t) (h : s.TakesHead r head) :
    exec (.crDoorbell t r head) s = .next (((s.atB t).modCfe (fun f => f.modRing r (Ring.takeHead head))).unpark r 16384) := by
  obtain ⟨hr, hatt, hhead, htail⟩ := h
  change execCrDoorbell t r head s = _
  exact (if_neg (ne_true_of_eq_false hruns)).trans (if_pos ⟨hr, hatt, ne_true_of_eq_false hhead, ne_true_of_eq_false htail⟩)

theorem exec_crDoorbell_of_not_takesHead {t r head : Nat} {s : State} (hruns : s.runsAt t) (h : ¬ s.TakesHead r head) :
    exec (.crDoorbell t r head) s = .next ((s.atB t).postErr (ignoredHead r head)) := by
  change execCrDoorbell t r head s = _
  refine (if_neg (ne_true_of_eq_false hruns)).trans (if_neg ?_)
  rintro ⟨hr, hatt, hhead, htail⟩
  exact h ⟨hr, hatt, eq_false_of_ne_true hhead, eq_false_of_ne_true htail⟩

/-! ### The deferred completion signal (R317) -/

/-- What a signal sent at a BCLK leaves of its ring. -/
def Ring.signalled (b : Nat) (x : Ring) : Ring := { x with signalDue := none, lastSignal := some b }

/-- Whether a message can be sent does not depend on the rings. -/
theorem State.msixOpen_modRing (s : State) (r : Nat) (g : Ring → Ring) (vec : Nat) :
    (s.modCfe (fun f => f.modRing r g)).msixOpen vec = s.msixOpen vec := rfl

theorem exec_intgapExpiry_of_lt {t r d : Nat} {s : State} (hdue : (s.cfe.ring r).signalDue = some d) (h : max s.bclk t < d) :
    exec (.intgapExpiry t r) s = .next (s.atB t) := by
  change execIntgapExpiry t r s = _
  simp only [execIntgapExpiry, State.atB_cfe, hdue, State.atB_bclk, if_neg (Nat.not_le.mpr h)]

theorem exec_intgapExpiry_of_le {t r d : Nat} {s : State} (hdue : (s.cfe.ring r).signalDue = some d) (h : d ≤ max s.bclk t) :
    exec (.intgapExpiry t r) s =
      .next (((s.atB t).modCfe (fun f => f.modRing r (Ring.signalled (max s.bclk t)))).msix (s.cfe.ring r).vec) := by
  change execIntgapExpiry t r s = _
  simp only [execIntgapExpiry, State.atB_cfe, hdue, State.atB_bclk, if_pos h]
  rfl

/-! ### The three clauses -/

theorem sqDoorbell_outcome {t q tail : Nat} {s : State} (hruns : s.runsAt t) :
    ∃ u, exec (.sqDoorbell t q tail) s = .next u ∧ (∀ k, k ≠ q % 256 → u.cfe.queue k = s.cfe.queue k) ∧
      u = { s.atB t with cfe := { s.cfe with queues := u.cfe.queues }, err := u.err, host := u.host, out := u.out } ∧
      (s.TakesTail q tail → u = { s.atB t with cfe := { s.cfe with queues := u.cfe.queues } } ∧
        u.cfe.queue q = (s.cfe.queue q).takeTail tail) ∧
      (¬ s.TakesTail q tail → u.cfe.queue (q % 256) = (s.cfe.queue (q % 256)).countIgnored ∧
        u.err = ((s.atB t).postErr (ignoredTail q tail)).err) := by
  by_cases h : s.TakesTail q tail
  case pos =>
    have hq : q % 256 = q := Nat.mod_eq_of_lt h.1
    refine ⟨_, exec_sqDoorbell_of_takesTail hruns h, fun k hk => ?_, rfl, fun _ => ⟨rfl, ?_⟩, fun hnot => absurd h hnot⟩
    · rw [hq] at hk
      exact s.cfe.queue_modQueue_ne _ hk
    · exact s.cfe.queue_modQueue_same q _
  case neg =>
    have hframe := State.reportsTo_postErr ((s.atB t).modCfe (fun f => f.modQueue (q % 256) Queue.countIgnored)) (ignoredTail q tail)
    have hcfe := hframe.cfe_eq
    refine ⟨_, exec_sqDoorbell_of_not_takesTail hruns h, fun k hk => ?_, ?_, fun htakes => absurd htakes h, fun _ => ⟨?_, ?_⟩⟩
    · rw [hcfe]
      exact s.cfe.queue_modQueue_ne _ hk
    · rw [hcfe]
      exact hframe
    · rw [hcfe]
      exact s.cfe.queue_modQueue_same (q % 256) _
    · exact (s.atB t).postErr_err_modCfe _ _

theorem crDoorbell_outcome {t r head : Nat} {s : State} (hruns : s.runsAt t) :
    ∃ u, exec (.crDoorbell t r head) s = .next u ∧
      (s.TakesHead r head → s.cfe.parkedOf r = 0 → u = { s.atB t with cfe := { s.cfe with rings := u.cfe.rings } } ∧
        u.cfe.ring r = (s.cfe.ring r).takeHead head ∧ ∀ k, k ≠ r → u.cfe.ring k = s.cfe.ring k) ∧
      (¬ s.TakesHead r head → u = (s.atB t).postErr (ignoredHead r head) ∧ u.cfe = s.cfe) := by
  by_cases h : s.TakesHead r head
  case pos =>
    refine ⟨_, exec_crDoorbell_of_takesHead hruns h, fun _ hparked => ?_, fun hnot => absurd h hnot⟩
    have hnone : ((s.atB t).modCfe (fun f => f.modRing r (Ring.takeHead head))).cfe.parkedOf r = 0 := hparked
    rw [State.unpark_of_parkedOf_eq_zero _ hnone]
    exact ⟨rfl, s.cfe.ring_modRing_same r _, fun _ hk => s.cfe.ring_modRing_ne _ hk⟩
  case neg =>
    exact ⟨_, exec_crDoorbell_of_not_takesHead hruns h, fun htakes => absurd htakes h, fun _ => ⟨rfl, (s.atB t).postErr_cfe _⟩⟩

theorem intgapExpiry_outcome {t r d : Nat} {s : State} (hdue : (s.cfe.ring r).signalDue = some d) :
    ∃ u, exec (.intgapExpiry t r) s = .next u ∧ (max s.bclk t < d → u = s.atB t) ∧
      (d ≤ max s.bclk t →
        u = { s.atB t with cfe := { s.cfe with rings := u.cfe.rings }, host := { s.host with pba := u.host.pba }, out := u.out } ∧
        u.cfe.ring r = (s.cfe.ring r).signalled (max s.bclk t) ∧
        (∀ k, k ≠ r → u.cfe.ring k = s.cfe.ring k) ∧
        ((s.atB t).msixOpen (s.cfe.ring r).vec = true → u.out = [.msix (s.cfe.ring r).vec] ∧ u.host = s.host) ∧
        ((s.atB t).msixOpen (s.cfe.ring r).vec = false → u.out = [] ∧ u.host.pba = Nat.lor s.host.pba (2 ^ (s.cfe.ring r).vec))) := by
  rcases Nat.lt_or_ge (max s.bclk t) d with h | h
  case inl => exact ⟨_, exec_intgapExpiry_of_lt hdue h, fun _ => rfl, fun hle => absurd h (Nat.not_lt.mpr hle)⟩
  case inr =>
    refine ⟨_, exec_intgapExpiry_of_le hdue h, fun hlt => absurd h (Nat.not_le.mpr hlt), fun _ => ?_⟩
    have hsame : (s.cfe.modRing r (Ring.signalled (max s.bclk t))).ring r = (s.cfe.ring r).signalled (max s.bclk t) :=
      s.cfe.ring_modRing_same r _
    have hother : ∀ k, k ≠ r → (s.cfe.modRing r (Ring.signalled (max s.bclk t))).ring k = s.cfe.ring k :=
      fun _ hk => s.cfe.ring_modRing_ne _ hk
    cases hopen : (s.atB t).msixOpen (s.cfe.ring r).vec with
    | true =>
      rw [State.msix_of_open ((State.msixOpen_modRing ..).trans hopen)]
      exact ⟨rfl, hsame, hother, fun _ => ⟨rfl, rfl⟩, nofun⟩
    | false =>
      rw [State.msix_of_closed ((State.msixOpen_modRing ..).trans hopen)]
      exact ⟨rfl, hsame, hother, nofun, fun _ => ⟨rfl, rfl⟩⟩

/-- Settles O30: a doorbell is accepted or not, and a gap has ended or not. -/
theorem doorbells : Obligations.Doorbells := by
  unfold Obligations.Doorbells
  exact ⟨fun _ _ _ _ hruns => sqDoorbell_outcome hruns, fun _ _ _ _ hruns => crDoorbell_outcome hruns,
    fun _ _ _ _ hdue => intgapExpiry_outcome hdue⟩

end Sys2Proof.Machine
end
